-- ==== Sys2Proof/Word.lean ====
section
/-! DEFINITION. The word types of the model and the shape of its sparse storage. -/

namespace Sys2Proof

/-- A byte of storage. -/
abbrev Byte := BitVec 8

/-- A 64-bit word: a scalar register, a global address, a register image. -/
abbrev Word := BitVec 64

/-- The 128-bit integer of a Wide Sum Format element (R61). -/
abbrev Wide := BitVec 128

/-- A 64-byte tensor descriptor image (R221), as one little-endian number. -/
abbrev Image := BitVec 512

/-- Sparse storage by number: keys strictly rising, no entry equal to the default of the storage.
The operations are in Machine/Table.lean. -/
abbrev Table (α : Type) := List (Nat × α)

/-- `n` as a two's-complement number of `w` bits. -/
def toSigned (w n : Nat) : Int :=
  if 2 * (n % 2 ^ w) < 2 ^ w then (n % 2 ^ w : Nat) else (n % 2 ^ w : Nat) - (2 ^ w : Nat)

/-- The bits `[lo+len-1 : lo]` of a number. -/
def bits (n lo len : Nat) : Nat := n / 2 ^ lo % 2 ^ len

/-- Bit `i` of a number, as a Bool. -/
def bit (n i : Nat) : Bool := n / 2 ^ i % 2 == 1

/-- `n` with its bits `[lo+len-1 : lo]` replaced by `v`. -/
def putBits (n lo len v : Nat) : Nat :=
  n % 2 ^ lo + (v % 2 ^ len) * 2 ^ lo + n / 2 ^ (lo + len) * 2 ^ (lo + len)

end Sys2Proof
end

