-- ==== Sys2Proof/Syntax.lean ====
section
/-! DEFINITION. The commands: one constructor of `Instr` for each row of the table of operations and events, with
the row's operands. Rows 0 to 130 are the instructions of the Mellos instruction set (R210 to R235); the rest are the
events of the part's blocks. What a command's operands say is in its constructor's line; what it does is in Machine/. -/

namespace Sys2Proof

/-- A core, C0 to C63 (R2). -/
abbrev CoreId := Fin 64
/-- A channel of a core, CH0 to CH31 (R2). -/
abbrev ChanId := Fin 32
/-- A compute die, D0 to D3 (R2). -/
abbrev DieId := Fin 4
/-- A Golfort port, G0 to G7 (R2). -/
abbrev PortId := Fin 8
/-- A far port, F0 or F1 (R2). -/
abbrev FarId := Fin 2
/-- A Bennex endpoint: link Xx and which of its two dies, 0 for Dx and 1 for D((x+1) mod 4). -/
abbrev BxId := Fin 4 × Fin 2
/-- A local queue of a core (R2). -/
abbrev LQueue := Fin 64
/-- A queue of the package, 0 to 4,095 (R2). -/
abbrev QueueId := Fin 4096
/-- A scalar register s0 to s31. -/
abbrev SReg := Fin 32
/-- A predicate p0 to p7. -/
abbrev PReg := Fin 8
/-- A tensor descriptor t0 to t63. -/
abbrev TReg := Fin 64

/-- What an instruction word carries beside its class fields (R210): the core that issues it and its guard. -/
structure Issue where
  core : CoreId
  pred : PReg := 0
  pn : Bool := false
  deriving DecidableEq, Repr

/-- Operand b of the immediate scalar class (R215): IMM of 35 bits, or the extension word. -/
inductive ImmB where
  | imm (v : BitVec 35)
  | ext (v : Word)
  deriving DecidableEq, Repr

/-- Operand b of the compare class (R215): a register, or IMM of 31 bits with IS = 1. -/
inductive CmpB where
  | reg (r : SReg)
  | imm (v : BitVec 31)
  deriving DecidableEq, Repr

/-- Operand b of the vector class (R228): a tensor, or with BS = 1 a scalar register. -/
inductive VecB where
  | tensor (t : TReg)
  | scalar (r : SReg)
  deriving DecidableEq, Repr

/-- Operand n of the sync class (R235): NIMM, or with NS = 1 a register. -/
inductive SyncN where
  | imm (v : BitVec 16)
  | reg (r : SReg)
  deriving DecidableEq, Repr

/-- Where the keys and values of an attention step come from (R231): PAGED names a sequence and a head,
DIRECT two descriptors, a register for base and count, and with WIN a register for the window. -/
inductive KvSource where
  | paged (sseq : SReg) (head : Fin 8)
  | direct (tk tv : TReg) (sbv : SReg) (sw : SReg)
  deriving DecidableEq, Repr

/-- The fields that ASTEP, AMAX and AEXP share beside TQ, TO, TZ and TM (R231). -/
structure AttnArgs where
  ts : TReg
  causal : Bool
  win : Bool
  sqb : SReg
  sc : SReg
  sk0 : SReg
  b : BitVec 9
  src : KvSource
  deriving DecidableEq, Repr

/-- The units whose repeats the command UNIT_REPEAT names: the matrix array running MACC, MZERO or MCVT (R121), the
vector and spline unit, the row statistics unit (R155), the attention-step unit (R172). -/
inductive CheckedUnit where
  | matrixMove | vector | rowstat | attention
  deriving DecidableEq, Repr

/-- What a request does at a memory: it reads bytes or writes them. -/
inductive MemAccess where
  | read (len : Fin 257)
  | write (bytes : List Byte)
  deriving DecidableEq, Repr

/-- What a far port meets as it is brought up (R300): a partner, the lanes and rate it trains at (0 where training
fails), whether the device is a single-logical-device Type 3 device, its memory size, and whether decoder 0 commits. -/
structure FarOutcome where
  partner : Bool
  width : Fin 9
  rate : Fin 4
  type3 : Bool
  size : Nat
  decodes : Bool
  deriving DecidableEq, Repr

/-- How a Golfort port's training ends (R308, R323): at full width, at half width on the low or the high lanes, or in
failure with the lanes that did not train. -/
inductive GfTrained where
  | full
  | half (high : Bool)
  | fail
  deriving DecidableEq, Repr

/-- What a port sends in training (R321, R330): its version mask, chip ID, port number and device code. -/
structure GfPartner where
  mask : Fin 4
  chip : BitVec 20
  port : Fin 8
  device : Byte
  deriving DecidableEq, Repr

/-- The Cadence word of a control flit (R335), with the receiver's own phase at its arrival, in ns. -/
structure CadWord where
  count : Word
  phase : Fin 1000
  ownPhase : Fin 1000
  agreed : Bool
  deriving DecidableEq, Repr


/-- The fields of a mailbox request header beside OPCODE (R386). -/
structure MbHead where
  major : Byte
  minor : Byte
  seq : BitVec 32
  length : BitVec 32
  reserved : BitVec 32 := 0#32
  deriving DecidableEq, Repr

/-- A triplicated word whose three copies all differ (R422): the map, a fuse word, the Biscuit totals of a Golfort port, of
a Bennex endpoint or of a die's mesh, the security configuration, the saved-settings header. -/
inductive VoteLost where
  | map
  | fuse
  | golfort (p : PortId)
  | bennex (ep : BxId)
  | mesh (d : DieId)
  | security
  | settings
  deriving DecidableEq, Repr

/-- The units whose instruction the command UNIT_INSTRUCTION_END ends. -/
inductive StreamUnit where
  | vector | rowstat | attention
  deriving DecidableEq, Repr

/-- The commands. -/
inductive Instr where
  | nop (g : Issue)
  | endCmd (g : Issue)
  | fence (g : Issue) (mask : BitVec 5)
  | srd (g : Issue) (sd : SReg) (sreg : BitVec 12)
  | add (g : Issue) (sd sa sb : SReg)
  | sub (g : Issue) (sd sa sb : SReg)
  | and (g : Issue) (sd sa sb : SReg)
  | or (g : Issue) (sd sa sb : SReg)
  | xor (g : Issue) (sd sa sb : SReg)
  | shl (g : Issue) (sd sa sb : SReg)
  | shr (g : Issue) (sd sa sb : SReg)
  | sra (g : Issue) (sd sa sb : SReg)
  | mul (g : Issue) (sd sa sb : SReg)
  | mulhu (g : Issue) (sd sa sb : SReg)
  | min (g : Issue) (sd sa sb : SReg)
  | max (g : Issue) (sd sa sb : SReg)
  | minu (g : Issue) (sd sa sb : SReg)
  | maxu (g : Issue) (sd sa sb : SReg)
  | fadd (g : Issue) (sd sa sb : SReg)
  | fsub (g : Issue) (sd sa sb : SReg)
  | fmul (g : Issue) (sd sa sb : SReg)
  | fmin (g : Issue) (sd sa sb : SReg)
  | fmax (g : Issue) (sd sa sb : SReg)
  | i2f (g : Issue) (sd sa sb : SReg)
  | f2i (g : Issue) (sd sa sb : SReg)
  | addImm (g : Issue) (sd sa : SReg) (b : ImmB)
  | subImm (g : Issue) (sd sa : SReg) (b : ImmB)
  | andImm (g : Issue) (sd sa : SReg) (b : ImmB)
  | orImm (g : Issue) (sd sa : SReg) (b : ImmB)
  | xorImm (g : Issue) (sd sa : SReg) (b : ImmB)
  | shlImm (g : Issue) (sd sa : SReg) (b : ImmB)
  | shrImm (g : Issue) (sd sa : SReg) (b : ImmB)
  | sraImm (g : Issue) (sd sa : SReg) (b : ImmB)
  | mulImm (g : Issue) (sd sa : SReg) (b : ImmB)
  | mulhuImm (g : Issue) (sd sa : SReg) (b : ImmB)
  | minImm (g : Issue) (sd sa : SReg) (b : ImmB)
  | maxImm (g : Issue) (sd sa : SReg) (b : ImmB)
  | minuImm (g : Issue) (sd sa : SReg) (b : ImmB)
  | maxuImm (g : Issue) (sd sa : SReg) (b : ImmB)
  | faddImm (g : Issue) (sd sa : SReg) (b : ImmB)
  | fsubImm (g : Issue) (sd sa : SReg) (b : ImmB)
  | fmulImm (g : Issue) (sd sa : SReg) (b : ImmB)
  | fminImm (g : Issue) (sd sa : SReg) (b : ImmB)
  | fmaxImm (g : Issue) (sd sa : SReg) (b : ImmB)
  | i2fImm (g : Issue) (sd sa : SReg) (b : ImmB)
  | f2iImm (g : Issue) (sd sa : SReg) (b : ImmB)
  | eq (g : Issue) (pd : PReg) (sa : SReg) (b : CmpB)
  | ne (g : Issue) (pd : PReg) (sa : SReg) (b : CmpB)
  | lt (g : Issue) (pd : PReg) (sa : SReg) (b : CmpB)
  | le (g : Issue) (pd : PReg) (sa : SReg) (b : CmpB)
  | ltu (g : Issue) (pd : PReg) (sa : SReg) (b : CmpB)
  | leu (g : Issue) (pd : PReg) (sa : SReg) (b : CmpB)
  | feq (g : Issue) (pd : PReg) (sa : SReg) (b : CmpB)
  | fne (g : Issue) (pd : PReg) (sa : SReg) (b : CmpB)
  | flt (g : Issue) (pd : PReg) (sa : SReg) (b : CmpB)
  | fle (g : Issue) (pd : PReg) (sa : SReg) (b : CmpB)
  | pand (g : Issue) (pd pa pb : PReg)
  | por (g : Issue) (pd pa pb : PReg)
  | pxor (g : Issue) (pd pa pb : PReg)
  | pandn (g : Issue) (pd pa pb : PReg)
  | br (g : Issue) (sl : SReg) (off : BitVec 32)
  | jr (g : Issue) (sl sa : SReg)
  | ld8 (g : Issue) (sr sa : SReg) (off : BitVec 35)
  | ld16 (g : Issue) (sr sa : SReg) (off : BitVec 35)
  | ld32 (g : Issue) (sr sa : SReg) (off : BitVec 35)
  | ld64 (g : Issue) (sr sa : SReg) (off : BitVec 35)
  | lds8 (g : Issue) (sr sa : SReg) (off : BitVec 35)
  | lds16 (g : Issue) (sr sa : SReg) (off : BitVec 35)
  | lds32 (g : Issue) (sr sa : SReg) (off : BitVec 35)
  | st8 (g : Issue) (sr sa : SReg) (off : BitVec 35)
  | st16 (g : Issue) (sr sa : SReg) (off : BitVec 35)
  | st32 (g : Issue) (sr sa : SReg) (off : BitVec 35)
  | st64 (g : Issue) (sr sa : SReg) (off : BitVec 35)
  | ataddI32 (g : Issue) (sr sa : SReg) (off : BitVec 35)
  | ataddI64 (g : Issue) (sr sa : SReg) (off : BitVec 35)
  | ataddF32 (g : Issue) (sr sa : SReg) (off : BitVec 35)
  | ataddBf16 (g : Issue) (sr sa : SReg) (off : BitVec 35)
  | ataddWsf (g : Issue) (sr sa : SReg) (off : BitVec 35)
  | tdld (g : Issue) (td : TReg) (sa : SReg) (off : BitVec 34)
  | tdst (g : Issue) (td : TReg) (sa : SReg) (off : BitVec 34)
  | tdset (g : Issue) (td : TReg) (dw : Fin 8) (sa : SReg)
  | tdcp (g : Issue) (td ts : TReg)
  | tdinv (g : Issue) (td : TReg)
  | dmaq (g : Issue) (eng : Fin 4) (sa : SReg) (event : Fin 64) (evEn : Bool)
  | mma (g : Issue) (tw tx tout : TReg) (acc : Bool)
  | macc (g : Issue) (ts tout : TReg)
  | mzero (g : Issue) (tout : TReg)
  | mcvt (g : Issue) (ts td : TReg)
  | vadd (g : Issue) (td ta : TReg) (b : VecB)
  | vsub (g : Issue) (td ta : TReg) (b : VecB)
  | vmul (g : Issue) (td ta : TReg) (b : VecB)
  | vfma (g : Issue) (td ta : TReg) (b : VecB) (tc : TReg)
  | vmin (g : Issue) (td ta : TReg) (b : VecB)
  | vmax (g : Issue) (td ta : TReg) (b : VecB)
  | vabs (g : Issue) (td ta : TReg)
  | vneg (g : Issue) (td ta : TReg)
  | vscale (g : Issue) (td ta : TReg) (b : VecB)
  | vcmp (g : Issue) (td ta : TReg) (b : VecB) (rel : Fin 8)
  | vsel (g : Issue) (td ta : TReg) (b : VecB) (tc : TReg)
  | vcvt (g : Issue) (td ta : TReg)
  | vbcast (g : Issue) (td : TReg) (b : VecB)
  | vrsum (g : Issue) (td ta : TReg)
  | vrmax (g : Issue) (td ta : TReg)
  | vrmin (g : Issue) (td ta : TReg)
  | spl (g : Issue) (td ta : TReg) (fn : Fin 16) (pm : Option SReg)
  | spld (g : Issue) (tbl : Fin 4) (bank : Fin 2) (sa : SReg)
  | spsw (g : Issue) (tbl : Fin 4) (bank : Fin 2)
  | rstat (g : Issue) (td ta : TReg) (partl div : Bool) (shs : Option SReg) (se si : SReg) (e : BitVec 9)
  | rstatc (g : Issue) (td ta : TReg) (div : Bool) (se : SReg)
  | astep (g : Issue) (tq tout tz : TReg) (a : AttnArgs)
  | amax (g : Issue) (tq tz tm : TReg) (a : AttnArgs)
  | aexp (g : Issue) (tq tout tz tm : TReg) (a : AttnArgs)
  | afin (g : Issue) (tout td : TReg) (tl : Option TReg) (tm : Option TReg)
  | amrg (g : Issue) (ta tout : TReg) (nm1 : BitVec 6)
  | nbmode (g : Issue) (ch : ChanId) (mode : Fin 4)
  | nbseq (g : Issue) (ch : ChanId) (start cnm1 : Fin 64) (sa : SReg)
  | nbload (g : Issue) (ch : ChanId) (ta : TReg) (mask : BitVec 4) (index : Bool) (ioff : BitVec 12)
  | nbrun (g : Issue) (ch : ChanId) (start event : Fin 64)
  | kvopen (g : Issue) (sseq sa : SReg)
  | kvapp (g : Issue) (sseq : SReg) (nm1 : BitVec 8) (tk tv : TReg)
  | kvseal (g : Issue) (sseq : SReg)
  | kvfree (g : Issue) (sseq : SReg)
  | cform (g : Issue) (sg sa : SReg)
  | crun (g : Issue) (sg sa : SReg) (event : Fin 64) (evEn : Bool)
  | cleave (g : Issue) (sg : SReg)
  | semsig (g : Issue) (sem : Fin 256) (n : SyncN)
  | semsigr (g : Issue) (n : SyncN) (sa : SReg)
  | semwait (g : Issue) (sem : Fin 256) (n : SyncN)
  | evwait (g : Issue) (ev : Fin 64)
  | evset (g : Issue) (ev : Fin 64)
  | twait (g : Issue) (sa : SReg)
  /-- R88: the sequencer of a core selects work. -/
  | select (core : CoreId)
  /-- R99: a stop found earlier is reported. -/
  | stopReport (core : CoreId) (slot : Fin 4)
  /-- R100: Q_CONTROL.RESUME. -/
  | resume (q : QueueId)
  /-- R100: Q_CONTROL.CANCEL. -/
  | cancel (q : QueueId)
  /-- R381: the record that waits for ring space, or the OK record of an ended command, is written. -/
  | completionRecord (q : QueueId)
  /-- R382: the queue's hold-off time has passed. -/
  | holdoffExpiry (q : QueueId)
  /-- R113, R120: the array decides the next row's checks; a mismatch names kind, group and column. -/
  | commit (core : CoreId) (mismatch : Option (Fin 4 × Fin 8 × BitVec 8))
  /-- R116: the running matrix instruction ends. -/
  | mmaEnd (core : CoreId)
  /-- R121, R155, R172: a mismatch of a unit: which unit, the kind of R157, the user bank. -/
  | unitRepeat (core : CoreId) (unit : CheckedUnit) (kind : Fin 3) (bank : Fin 8)
  /-- R141: the oldest user-table load in progress ends and its image is checked. -/
  | spldDone (core : CoreId)
  /-- R249: a read found bad parity at a byte of a bank: its reader, the side, and whether the second read failed. -/
  | spadParityReread (core : CoreId) (bank : Fin 32) (offset : BitVec 19) (master : BitVec 9) (slot : Fin 4)
      (dmaSide : Bool) (persistent : Bool)
  /-- R247: a bank's handover ends. -/
  | handoverDone (core : CoreId) (bank : Fin 32)
  /-- R251: an engine starts the next descriptor of its queue. -/
  | dmaDescriptorStart (core : CoreId) (eng : Fin 4)
  /-- R251: an engine moves its next burst; `mismatch` is the residue check of R253. -/
  | dmaBurst (core : CoreId) (eng : Fin 4) (mismatch : Bool)
  /-- R252: an engine completes its descriptor. -/
  | dmaCompletion (core : CoreId) (eng : Fin 4)
  /-- R250: a write of DMA_SUBMIT; `wide` is a 64-bit write. -/
  | dmaSubmit (core : CoreId) (eng : Fin 4) (value : Word) (wide : Bool)
  /-- R253: DMA_CONTROL.RESTART. -/
  | dmaRestart (core : CoreId) (eng : Fin 4)
  /-- R253: DMA_CONTROL.FLUSH. -/
  | dmaFlush (core : CoreId) (eng : Fin 4)
  /-- R247: a write of SPAD_HANDOVER: the bank mask and the target, true for DMA. -/
  | spadHandover (core : CoreId) (mask : BitVec 32) (target : Bool)
  /-- R199: a write of NB_MODE.REQ. -/
  | nbModeReq (core : CoreId) (ch : ChanId) (req : Fin 4)
  /-- R199: what SWITCHING waited for has come about. -/
  | switchingDone (core : CoreId) (ch : ChanId)
  /-- R188, R205: the channel's NBRs read their next DRAM row, `toDeadline` ns before a fifth refresh would be owed;
  `errs` are lanes found in error in the first codeword an NBR reads; `mismatch` is an NBR whose residue differs. -/
  | rowBurst (core : CoreId) (ch : ChanId) (toDeadline : Nat) (errs : List (Fin 4 × Fin 144)) (mismatch : Option (Fin 4))
  /-- R202: every read and every result write of the step is done. -/
  | nbStepEnd (core : CoreId) (ch : ChanId)
  /-- R204: the oldest result write that the run has not sent is performed. -/
  | nbrResultWrite (core : CoreId) (ch : ChanId)
  /-- R203: the run ends. -/
  | nbRunEnd (core : CoreId) (ch : ChanId)
  /-- R190: the near-bank load on the channel ends. -/
  | nbloadDone (core : CoreId) (ch : ChanId)
  /-- R291: an ordinary request reaches a channel controller: its requester (R277), master, class, channel offset and access. -/
  | channelRequest (core : CoreId) (ch : ChanId) (requester : Fin 8) (master : BitVec 9) (tc : Fin 8)
      (offset : BitVec 27) (access : MemAccess)
  /-- R282: the arbiter decides at the boundary of its next slot. -/
  | slotBoundary (core : CoreId) (ch : ChanId)
  /-- R288: slot 0 of a period begins. -/
  | slotZero (core : CoreId) (ch : ChanId)
  /-- R290: a quota window begins. -/
  | quotaWindowStart (core : CoreId) (ch : ChanId)
  /-- R279: the burst of the transfer that holds the channel completes; `errs` are lanes found in error. -/
  | transferEnd (core : CoreId) (ch : ChanId) (errs : List (Fin 144))
  /-- R263: the read-merge-write that holds the channel is performed. -/
  | readMergeWrite (core : CoreId) (ch : ChanId) (errs : List (Fin 144))
  /-- R271: an adder request of a master other than an ATADD of this part. -/
  | adderRequest (op : Fin 8) (addr : Word) (operand : BitVec 128) (tag : Byte) (tagAddr : Word) (master : BitVec 9)
      (tc : Fin 8)
  /-- R272: the adder applies the oldest requests of one block as one locked sequence. -/
  | adderSequence (core : CoreId) (ch : ChanId) (errs : List (Fin 144))
  /-- R266: a refresh interval boundary. -/
  | refreshBoundary (core : CoreId) (ch : ChanId)
  /-- R266, R268: an owed refresh is issued; `inWindow`, whether the window of SLC_CONTROL.WINDOW is open. -/
  | refresh (core : CoreId) (ch : ChanId) (inWindow : Bool)
  /-- R266: now + 256 ns has reached the deadline. -/
  | forcedRefresh (core : CoreId) (ch : ChanId)
  /-- R266: a refresh completes. -/
  | refreshDone (core : CoreId) (ch : ChanId)
  /-- R273: the scrubber reads or repairs its next codeword. -/
  | scrubRead (core : CoreId) (ch : ChanId) (errs : List (Fin 144))
  /-- R262: a lane has been corrected LANE_LIMIT times within the window. -/
  | laneDead (core : CoreId) (ch : ChanId) (lane : Fin 144)
  /-- R262: a write to SLC_DEAD_LANES_LO, MID or HI, by number. -/
  | slcDeadLanesWrite (core : CoreId) (ch : ChanId) (word : Fin 3) (value : Word)
  /-- R275: UNCORR_LIMIT distinct codewords have been found uncorrectable within the window. -/
  | channelFailed (core : CoreId) (ch : ChanId)
  /-- R285: ARB_LOAD.LOAD. -/
  | arbLoad (core : CoreId) (ch : ChanId)
  /-- R295: a router of the die serves a flit that has waited 1,024 cycles. -/
  | starvationServe (die : DieId)
  /-- R301: an access to a far window, by master ID and window offset. -/
  | farWindowAccess (far : FarId) (master : BitVec 9) (offset : BitVec 42) (access : MemAccess)
  /-- R302, R303: the device completes the oldest request to a 64-byte line; `poison` is the data's poison. -/
  | farResponse (far : FarId) (line : BitVec 36) (poison : Bool)
  /-- R300: a far port runs its phases. -/
  | farPortBringup (far : FarId) (outcome : FarOutcome)
  /-- R306: the link goes down, or (`timeout`) a request waits longer than TIMEOUT. -/
  | farDeviceLost (far : FarId) (timeout : Bool)
  /-- R306: FP_CONTROL.PERST. -/
  | fpPerst (far : FarId)
  /-- R306: FP_CONTROL.RETRAIN. -/
  | fpRetrain (far : FarId)
  /-- R309, R311: a port receives the 256 bytes of a data flit. -/
  | dataFlit (port : PortId) (bytes : List Byte)
  /-- R312, R335: a port receives a control flit: whether its CRC is good, the last SEQ accepted, the SEQ asked for again,
  the eight freed counts by 2 × VC + class, and the Cadence word. -/
  | controlFlit (port : PortId) (good : Bool) (ack : BitVec 12) (nak : Option (BitVec 12)) (freed : List (BitVec 16))
      (cad : CadWord)
  /-- R314: BISCUIT_SYNC: the partner's totals, occupied entries and freed counts by 2 × VC + class, and its last
  accepted SEQ. -/
  | biscuitSync (port : PortId) (total used freed : List (BitVec 16)) (ack : BitVec 12)
  /-- R315, R317: the oldest flit of a receive buffer that is for another chip leaves it, `us` µs after it came. -/
  | flitForward (port : PortId) (vc : Fin 4) (dclass : Fin 2) (us : BitVec 16)
  /-- R317: the oldest flit of a receive buffer has waited 100 µs for one output port. -/
  | outputWaitDrop (port : PortId) (vc : Fin 4) (dclass : Fin 2)
  /-- R318: a route entry is written: the local table where `isLocal`, else the region table. -/
  | routeChange (isLocal : Bool) (index : Fin 1024) (value : BitVec 32)
  /-- R318: SETTLE has passed since a route entry changed. -/
  | settleExpiry (isLocal : Bool) (index : Fin 1024)
  /-- R319: a request's response has not arrived within E2E_TIMEOUT. -/
  | e2eTimeout (txn : BitVec 16)
  /-- R310: a READ message of a peer, by source chip, tag, class, address and bytes. -/
  | read (src : BitVec 20) (txn : BitVec 16) (tc : Fin 8) (addr : Word) (len : Fin 257)
  /-- R310: a WRITE message of a peer. -/
  | write (src : BitVec 20) (txn : BitVec 16) (tc : Fin 8) (addr : Word) (bytes : List Byte)
  /-- R310: a READ_RESP for the request of tag `txn`. -/
  | readResp (txn : BitVec 16) (status : Byte) (bytes : List Byte)
  /-- R310: a WRITE_ACK for the request of tag `txn`. -/
  | writeAck (txn : BitVec 16) (status : Byte)
  /-- R328: a GRANT: group number, flits granted, source index. -/
  | grant (group : BitVec 16) (flits : BitVec 16) (index : Word)
  /-- R310: a MGMT message from the neighbour at a port. -/
  | mgmt (port : PortId) (bytes : List Byte)
  /-- R323: a write of GF_CONTROL.ENABLE. -/
  | gfEnable (port : PortId) (enable : Bool)
  /-- R323: GF_CONTROL.RETRAIN. -/
  | gfRetrain (port : PortId)
  /-- R321: a partner signal is found. -/
  | partnerFound (port : PortId) (partner : GfPartner)
  /-- R323: one training of a port ends; `rtt` is the round trip it measured. -/
  | gfTrainingDone (port : PortId) (result : GfTrained) (rtt : BitVec 32)
  /-- R324: the qualification window ends: lanes over SYM_LIMIT, an uncorrectable codeword seen, a CRC failure seen. -/
  | qualificationWindowEnd (port : PortId) (lanes : BitVec 8) (uncorr crc : Bool)
  /-- R323: 2 ms have passed in RETRAINING with the partner signal present. -/
  | retrainTimeout (port : PortId)
  /-- R312: no good control flit for 10 µs. -/
  | controlFlitTimeout (port : PortId)
  /-- R325: more than 16 uncorrectable codewords within 1 ms. -/
  | uncorrectableBurst (port : PortId)
  /-- R326: 10 µs without the partner signal. -/
  | lossOfSignal (port : PortId)
  /-- R310: an ADD message of a peer. -/
  | addMessage (src : BitVec 20) (txn : BitVec 16) (tc : Fin 8) (addr : Word) (op : Byte) (operand : BitVec 128)
      (tag : Byte) (tagAddr : Word)
  /-- R330: a port measures its round trip, in ns. -/
  | gfRttMeasurement (port : PortId) (ns : BitVec 32)
  /-- R331: a tick, `err` ns from the edge predicted. -/
  | cadenceTick (err : Int)
  /-- R332: a predicted tick has not arrived within 1.5 µs. -/
  | tickMissing
  /-- R332: HOLDOVER has lasted HOLD_LIMIT. -/
  | holdLimitExpiry
  /-- R336: CAD_CTL.REAGREE. -/
  | reagree
  /-- R339: a FORM reaches the leader: index, N, SPARES, ANCHOR and table CRC of its sender, and its one-way latency. -/
  | form (group : BitVec 16) (index : BitVec 19) (n spares : BitVec 32) (anchor : BitVec 16) (crc : BitVec 32)
      (ns : BitVec 32)
  /-- R339: the leader's echo gives a member its one-way latency. -/
  | formEcho (group : BitVec 16) (ns : BitVec 32)
  /-- R339, R349: FORMED with H reaches a member; after a loss with the new members' chip IDs. -/
  | formed (group : BitVec 16) (h : BitVec 32) (members : List (BitVec 20))
  /-- R339: FORM_TICK has come. -/
  | formTimeout (group : BitVec 16)
  /-- R342: the engine reaches the start of the group's next phase. -/
  | phaseStart (group : BitVec 16)
  /-- R343 to R345: a DATA message: phase, source index, first element within the chunk or source, and the elements:
  in WSF mode the 128-bit value and the tag, otherwise the element's bits. -/
  | collData (group : BitVec 16) (phase index : BitVec 19) (first : BitVec 32) (elems : List (BitVec 128 × Byte))
  /-- R344: ROOT's release of a barrier. -/
  | release (group : BitVec 16)
  /-- R339, R345: REFUSE with its code. -/
  | refuse (group : BitVec 16) (code : Byte)
  /-- R347: T_k − 2 of the next phase; `unitBusy`, a unit that the phase needs is in REPLAY or a repeat. -/
  | lateCheck (group : BitVec 16) (unitBusy : Bool)
  /-- R345, R348: a LATE word at a port. -/
  | late (port : PortId) (group : BitVec 16) (value : Word) (ttl : Byte)
  /-- R345, R346: a FAIL word at a port. -/
  | collFail (port : PortId) (group : BitVec 16) (code : Byte) (ttl : Byte)
  /-- R345, R349: a LOST word at a port. -/
  | lost (port : PortId) (group : BitVec 16) (index : BitVec 19) (ttl : Byte)
  /-- R345: HEARTBEAT_MS has passed on an engine. -/
  | heartbeatSend (die : DieId)
  /-- R345: a HEARTBEAT message. -/
  | heartbeat (group : BitVec 16) (index : BitVec 19)
  /-- R349: a HEARTBEAT of the ring predecessor is missed. -/
  | heartbeatMiss (group : BitVec 16)
  /-- R340: re-formation has run for 1 s. -/
  | reformTimeout (group : BitVec 16)
  /-- R346: the group's collective has performed its final phase. -/
  | collectiveEnd (group : BitVec 16)
  /-- R332: a die's own predicted edge in HOLDOVER or FREE. -/
  | localEdge
  /-- R345: 100 ms have passed since a group word was first seen: 1 LATE, 2 FAIL, 3 LOST. -/
  | groupWordExpiry (kind : Fin 4) (group : BitVec 16) (value : Word)
  /-- R357: an endpoint receives a data flit: sequence number, virtual channel, and whether its CRC is good. -/
  | bennexFlit (ep : BxId) (seq : BitVec 10) (vc : Fin 4) (good : Bool)
  /-- R359: BX_CONTROL.RETRAIN, or one sequence number NAKed 8 times in a row. -/
  | bxRetrain (ep : BxId)
  /-- R368: BX_CONTROL.RESTART; `flits` are in flight at this end. -/
  | bxRestart (ep : BxId) (flits : BitVec 16)
  /-- R362: an endpoint sees unannounced training or another width word; `flits` are in flight at both ends. -/
  | widthDisagree (ep : BxId) (flits : BitVec 16)
  /-- R360, R361: an endpoint trains: the lanes with a bit error by module, the partner's GOOD and its capability word. -/
  | bxTraining (ep : BxId) (badLanes : List (Fin 16 × Fin 68)) (partner : BitVec 16) (cap0 cap1 : Word)
  /-- R364: a lane of a module fails while the link is UP. -/
  | bxLiveSpare (ep : BxId) (module : Fin 16) (lane : Fin 68)
  /-- R414: a router of a die finds a bad CRC on the flit from a direction. -/
  | meshRetransmit (die : DieId) (router : Fin 16) (dir : Fin 4)
  /-- R414: a mesh link fails; `again`, it failed before within 24 hours of the die's return. -/
  | meshLinkFail (die : DieId) (router : Fin 16) (dir : Fin 4) (again : Bool)
  /-- R359: no good control flit for 1 µs. -/
  | bxControlFlitTimeout (ep : BxId)
  /-- R367: BX_ROUTE.SETTLE has passed since a link returned to UP. -/
  | bxRouteSettleExpiry (link : Fin 4)
  /-- R394, R395: both sensors of the die's 20 hot spots are sampled, in units of 0.125 °C. -/
  | thermalSample (die : DieId) (readings : List (BitVec 11 × BitVec 11))
  /-- R395: a hot spot has had SRC = 3 for 10,000 samples in a row. -/
  | sensorLost (die : DieId) (spot : Fin 20)
  /-- R396, R397: the die's thermal model gives the estimate and prediction of each hot spot, and by 4 × core + layer the
  offset and the prediction of each layer region, in units of 0.125 °C. -/
  | thermalModelUpdate (die : DieId) (spots : List (BitVec 11 × BitVec 11)) (offsets : List Int)
      (layerPred : List (BitVec 11))
  /-- R399: the die's Clamp computes its throttles. -/
  | clampUpdate (die : DieId)
  /-- R401: some throttle of the die has been 63/64 for 1 ms with excess above 0. -/
  | stage2Entry (die : DieId)
  /-- R402: THERMTRIP_N is asserted. -/
  | thermtrip (die : DieId)
  /-- R403: a coolant report is written to the I3C target. -/
  | coolantReport (bytes : List Byte)
  /-- R403: no valid report has arrived for 30 ms. -/
  | telemLost
  /-- R405, R406: the power controller measures P and the glue pot's share, in W. -/
  | powerMeasure (watts glue : BitVec 16)
  /-- R406: a Cadence tick of the power controller. -/
  | allowedPowerUpdate
  /-- R409: SUPALERT0_N has been low for 1 µs. -/
  | supalert0
  /-- R409: SUPALERT1_N has been low for 1 µs. -/
  | supalert1
  /-- R409: an alert input rises. -/
  | supalertRelease (input : Fin 2)
  /-- R371: an access to the host window, by master ID and window offset. -/
  | hostWindowAccess (master : BitVec 9) (offset : BitVec 42) (access : MemAccess)
  /-- R373: a host CXL.mem read of a 64-byte line of the HDM range. -/
  | memRd (line : BitVec 32)
  /-- R373: a host CXL.mem write of a line: the bytes whose mask bit is 1. -/
  | memWr (line : BitVec 32) (mask : BitVec 64) (data : BitVec 512)
  /-- R371: a host snoop of a line. -/
  | hostSnoop (line : Word)
  /-- R373: the host commits the HDM decoder at a base, for a size in bytes, locking it or not. -/
  | hdmCommit (base : Word) (size : Nat) (lock : Bool)
  /-- R377: a doorbell write of TAIL. -/
  | doorbellTail (q : QueueId) (value : BitVec 16)
  /-- R377: a doorbell write of CQ_HEAD. -/
  | doorbellCqHead (q : QueueId) (value : BitVec 16)
  /-- R89, R105: a write of Q_SCHED. -/
  | qSchedWrite (q : QueueId) (value : BitVec 32)
  /-- R375: a write of Q_RING_CFG. -/
  | qRingCfgWrite (q : QueueId) (value : BitVec 32)
  /-- R378: 100 µs have passed since a ring access of the queue failed while the host link is down. -/
  | hostRingRetry (q : QueueId)
  /-- R475: HPERST_N falls (`low`) or rises. -/
  | hperst (low : Bool)
  /-- R389: the host link is lost. -/
  | hostLinkDown
  /-- R369, R370, R389: the host port trains: lanes, rate code, CXL mode, CXL.cache and CXL.mem enabled. -/
  | hostLinkUp (width : Fin 17) (rate : Fin 6) (cxl cacheEn memEn : Bool)
  /-- R92: a write of n to SEM_SIGNAL. -/
  | semSignal (core : CoreId) (sem : Fin 256) (n : BitVec 32)
  /-- R92: a write of SEM_VALUE. -/
  | semValueWrite (core : CoreId) (sem : Fin 256) (value : BitVec 32)
  /-- R95: a write of EV_SET. -/
  | evSetReg (core : CoreId) (mask : Word)
  /-- R105: a write of EV_CLR. -/
  | evClrReg (core : CoreId) (mask : Word)
  /-- R105: a write of CORE_CONTROL.HOLD. -/
  | coreHold (core : CoreId) (hold : Bool)
  /-- R126: MXA_CONTROL.INJECT. -/
  | mxaInject (core : CoreId)
  /-- R126: MXA_CONTROL.INJECT_TWICE. -/
  | mxaInjectTwice (core : CoreId)
  /-- R157: VSU_CONTROL.INJECT. -/
  | vsuInject (core : CoreId)
  /-- R157: VSU_CONTROL.INJECT_TWICE. -/
  | vsuInjectTwice (core : CoreId)
  /-- R27: a write of GLB_CHIP_ID. -/
  | glbChipIdWrite (value : BitVec 32)
  /-- R6, R29: an access to a local address that no block defines or that is reserved. -/
  | unmappedAccess (addr : BitVec 44) (access : MemAccess)
  /-- R4: a write to the register at a BAR0 offset; `wide` is a 64-bit write. -/
  | registerWrite (offset : BitVec 26) (value : Word) (wide : Bool)
  /-- R209: a write to a channel's sequence-store window, at a byte offset. -/
  | nbWindowWrite (core : CoreId) (ch : ChanId) (offset : Fin 2048) (bytes : List Byte)
  /-- R179: a core's KV unit asks another core's for a frame of its near or far list. -/
  | kvFrameBorrow (lender borrower : CoreId) (far : Bool)
  /-- R179: the borrower acknowledges the oldest frame that the lender lent it. -/
  | kvFrameAck (lender borrower : CoreId)
  /-- R474: PWRGOOD has been low for 1 µs. -/
  | pwrgoodFall
  /-- R474: PWRGOOD has been high for 10 ms with PKG_RESET_N high. -/
  | pwrgoodRise
  /-- R475: PKG_RESET_N has been low for 10 µs, or rises. -/
  | pkgReset (rise : Bool)
  /-- R475: VDD_AUX is removed. -/
  | vddAuxRemoval
  /-- R436: the fuse image is read and voted: minority copies rewritten, units marked bad, and units whose word's three
  copies all differ, by map offset. -/
  | clocksPhase (corrected : BitVec 32) (bad lost : List (Fin 36864))
  /-- R454: the boot ROM tries the slots; `headerLost`, the three copies of the saved-settings header all differ. -/
  | bootPhase (headerLost : Bool)
  /-- R436: the self-test: cores whose memories fail it, and cores that fail the Jig with their failing index. -/
  | selfTestPhase (memFail : List CoreId) (jigFail : List (CoreId × Fin 64))
  /-- R436: the links train and the running word is formed. -/
  | bennexPhase
  /-- R437: a channel is trained: its dead data lanes and control dowels, whether saved timing fails its check, and the NBRs
  that fail the Jig. -/
  | dramTraining (core : CoreId) (ch : ChanId) (lanes : List (Fin 144)) (control : List (Fin 36)) (narrow : Bool)
      (jigFail : List (Fin 4))
  /-- R438: a sweep step: hot or cool, the pattern, the pause 16 ms × 2^k, and the failing rows by channel. -/
  | retentionStep (hot : Bool) (pattern : Fin 4) (k : Fin 11) (failing : List (CoreId × ChanId × Nat))
  /-- R436: ports train and qualify, far ports come up. -/
  | linksPhase
  /-- R436: the map is completed and the saved settings are written. -/
  | mapPhase
  /-- R440: the start's criteria are judged; `ms`, its duration. -/
  | ready (ms : BitVec 32)
  /-- R436: 300 s have passed since the cold start began. -/
  | startTimeout
  /-- R442: a die enters partial reset for a cause that the model has no other command for: 2 or 4. -/
  | partialReset (die : DieId) (cause : Byte)
  /-- R451: a write of BRU_DIE_RESET.REQ. -/
  | bruDieResetReq (mask : BitVec 4)
  /-- R442: the die returns: its cores that fail memory self-test or the Jig, with their failing index, and whether each of its links X(d) and X((d+3) mod 4)
  has trained. -/
  | partialResetReturn (die : DieId) (jigFail : List (Fin 16 × Fin 64)) (linkUp linkDown : Bool)
  /-- R443: a partial reset of D0 has not returned within 5 s. -/
  | d0ResetTimeout
  /-- R445: a core's state is saved to JIG_SAVE_BASE. -/
  | jigSave (core : CoreId)
  /-- R444: a Jig scan of a core or a channel ends, by map offset: the failing NBRs (0 for a core) with their failing
  indices. -/
  | jigComplete (unit : BitVec 16) (fails : List (Fin 4 × Fin 64))
  /-- R446: TIMEOUT_MS has passed for the request that waits for a region. -/
  | regionFreeTimeout
  /-- R427: resynchronisation after a partial reset of a die or a retrain. -/
  | resync (die : DieId)
  /-- R424: 1 ms has passed since a die's unacknowledged conserved messages were last sent. -/
  | consResend (die : DieId)
  /-- R424: a destination (chip) has been unreachable for GIVEUP_MS. -/
  | consGiveup (die : DieId) (dst : BitVec 20)
  /-- R422: the background vote: minority copies rewritten by class, and a word whose three copies all differ. -/
  | backgroundVote (corrected : List (BitVec 32)) (lost : Option VoteLost)
  /-- R426: AUD_CONTROL.RUN. -/
  | audRun
  /-- R426: the audit ends; `flight`, what the link hardware counted at the edge: class 0 to 2, instance, flits and
  returns in flight. -/
  | auditDone (flight : List (Fin 3 × Nat × Nat))
  /-- R388: the mailbox request GET_INFO. -/
  | getInfo (h : MbHead) (payload : List Byte)
  /-- R448: RETIRE_UNIT. -/
  | retireUnit (h : MbHead) (payload : List Byte)
  /-- R449: READMIT_UNIT; `fails`, the test's failing part where the unit is tested: true fails it. -/
  | readmitUnit (h : MbHead) (payload : List Byte) (fails : Bool)
  /-- R446: RUN_JIG. -/
  | runJig (h : MbHead) (payload : List Byte)
  /-- R447: SAVE_SETTINGS. -/
  | saveSettings (h : MbHead) (payload : List Byte)
  /-- R441: WARM_RESTART. -/
  | warmRestart (h : MbHead) (payload : List Byte)
  /-- R408: SET_IDLE_FLOOR. -/
  | setIdleFloor (h : MbHead) (payload : List Byte)
  /-- R408: SET_STAGGER. -/
  | setStagger (h : MbHead) (payload : List Byte)
  /-- R457: ATTEST. -/
  | attest (h : MbHead) (payload : List Byte)
  /-- R459: FW_UPDATE BEGIN. -/
  | fwBegin (h : MbHead) (payload : List Byte)
  /-- R459: FW_UPDATE DATA. -/
  | fwData (h : MbHead) (payload : List Byte)
  /-- R459: FW_UPDATE FINISH. -/
  | finish (h : MbHead) (payload : List Byte)
  /-- R459: FW_UPDATE COMMIT_SVN. -/
  | commitSvn (h : MbHead) (payload : List Byte)
  /-- R459: FW_UPDATE REVOKE. -/
  | revoke (h : MbHead) (payload : List Byte)
  /-- R428: AUDIT. -/
  | audit (h : MbHead) (payload : List Byte)
  /-- R476: an I3C private read. -/
  | i3cRead
  /-- R471: the regulator acknowledges a write of VDD_CORE, in mV. -/
  | voltageSet (mv : BitVec 16)
  /-- R471: the regulator has not acknowledged a write within 100 µs. -/
  | avsTimeout
  /-- R476: the I3C controller assigns a dynamic address. -/
  | dynamicAddressAssignment (addr : BitVec 7)
  /-- R460, R475: the test port: boundary scan, or internal scan. -/
  | testPortAccess (internal : Bool)
  /-- R41: a host CXL.io access through BAR4 at a local address. -/
  | hostCxlIoAccess (addr : BitVec 44) (access : MemAccess)
  /-- R156, R172: the instruction that a unit executes ends: its results are written and it leaves the unit. -/
  | unitInstructionEnd (core : CoreId) (unit : StreamUnit)
  deriving DecidableEq, Repr

end Sys2Proof
end

