-- ==== Sys2Proof/WellFormed.lean ====
section
/-! DEFINITION. Which terms of `Instr` are commands: the lists an event carries have the lengths that its rule gives them. Every
other bound stands in the types. An instruction whose operands the encoding admits but a rule calls illegal (R213) is a command all
the same: it takes the illegal instruction exception. -/

namespace Sys2Proof

/-- An access covers 1 to 256 bytes. -/
def MemAccess.wf : MemAccess → Bool
  | .read len => decide (len.val ≠ 0)
  | .write bytes => !bytes.isEmpty && decide (bytes.length ≤ 256)

def Instr.wf : Instr → Bool
  | .channelRequest _ _ _ _ _ _ access => access.wf
  | .farWindowAccess _ _ _ access => access.wf
  | .dataFlit _ bytes => decide (bytes.length = 256)
  | .controlFlit _ _ _ _ freed _ => decide (freed.length = 8)
  | .biscuitSync _ total used freed _ => decide (total.length = 8) && decide (used.length = 8) && decide (freed.length = 8)
  | .read _ _ _ _ len => decide (len.val ≠ 0)
  | .write _ _ _ _ bytes => !bytes.isEmpty && decide (bytes.length ≤ 256)
  | .readResp _ _ bytes => decide (bytes.length ≤ 256)
  | .thermalSample _ readings => decide (readings.length = 20)
  | .thermalModelUpdate _ spots offsets layerPred => decide (spots.length = 20) && decide (offsets.length = 64) && decide (layerPred.length = 64)
  | .coolantReport bytes => decide (bytes.length ≤ 12)
  | .hostWindowAccess _ _ access => access.wf
  | .unmappedAccess _ access => access.wf
  | .registerWrite offset value wide => decide (offset.toNat % (if wide then 8 else 4) = 0) && (wide || decide (value.toNat < 2 ^ 32))
  | .nbWindowWrite _ _ offset bytes => !bytes.isEmpty && decide (offset.val + bytes.length ≤ 2048)
  | .retentionStep hot _ k _ => !hot || decide (k.val ≤ 6)
  | .backgroundVote corrected _ => decide (corrected.length = 5)
  | .getInfo _ payload => decide (payload.length ≤ 65520)
  | .retireUnit _ payload => decide (payload.length ≤ 65520)
  | .readmitUnit _ payload _ => decide (payload.length ≤ 65520)
  | .runJig _ payload => decide (payload.length ≤ 65520)
  | .saveSettings _ payload => decide (payload.length ≤ 65520)
  | .warmRestart _ payload => decide (payload.length ≤ 65520)
  | .setIdleFloor _ payload => decide (payload.length ≤ 65520)
  | .setStagger _ payload => decide (payload.length ≤ 65520)
  | .attest _ payload => decide (payload.length ≤ 65520)
  | .fwBegin _ payload => decide (payload.length ≤ 65516)
  | .fwData _ payload => decide (payload.length ≤ 65516)
  | .finish _ payload => decide (payload.length ≤ 65516)
  | .commitSvn _ payload => decide (payload.length ≤ 65516)
  | .revoke _ payload => decide (payload.length ≤ 65516)
  | .audit _ payload => decide (payload.length ≤ 65520)
  | .voltageSet mv => decide (650 ≤ mv.toNat) && decide (mv.toNat ≤ 850) && decide (mv.toNat % 5 = 0)
  | .hostCxlIoAccess _ access => access.wf
  | .nop .. | .endCmd .. | .fence .. | .srd .. | .add .. | .sub .. | .and .. | .or .. | .xor .. | .shl .. | .shr ..
  | .sra .. | .mul .. | .mulhu .. | .min .. | .max .. | .minu .. | .maxu .. | .fadd .. | .fsub .. | .fmul .. | .fmin ..
  | .fmax .. | .i2f .. | .f2i .. | .addImm .. | .subImm .. | .andImm .. | .orImm .. | .xorImm .. | .shlImm .. | .shrImm ..
  | .sraImm .. | .mulImm .. | .mulhuImm .. | .minImm .. | .maxImm .. | .minuImm .. | .maxuImm .. | .faddImm ..
  | .fsubImm .. | .fmulImm .. | .fminImm .. | .fmaxImm .. | .i2fImm .. | .f2iImm .. | .eq .. | .ne .. | .lt .. | .le ..
  | .ltu .. | .leu .. | .feq .. | .fne .. | .flt .. | .fle .. | .pand .. | .por .. | .pxor .. | .pandn .. | .br .. | .jr ..
  | .ld8 .. | .ld16 .. | .ld32 .. | .ld64 .. | .lds8 .. | .lds16 .. | .lds32 .. | .st8 .. | .st16 .. | .st32 .. | .st64 ..
  | .ataddI32 .. | .ataddI64 .. | .ataddF32 .. | .ataddBf16 .. | .ataddWsf .. | .tdld .. | .tdst .. | .tdset .. | .tdcp ..
  | .tdinv .. | .dmaq .. | .mma .. | .macc .. | .mzero .. | .mcvt .. | .vadd .. | .vsub .. | .vmul .. | .vfma .. | .vmin ..
  | .vmax .. | .vabs .. | .vneg .. | .vscale .. | .vcmp .. | .vsel .. | .vcvt .. | .vbcast .. | .vrsum .. | .vrmax ..
  | .vrmin .. | .spl .. | .spld .. | .spsw .. | .rstat .. | .rstatc .. | .astep .. | .amax .. | .aexp .. | .afin ..
  | .amrg .. | .nbmode .. | .nbseq .. | .nbload .. | .nbrun .. | .kvopen .. | .kvapp .. | .kvseal .. | .kvfree ..
  | .cform .. | .crun .. | .cleave .. | .semsig .. | .semsigr .. | .semwait .. | .evwait .. | .evset .. | .twait ..
  | .select .. | .stopReport .. | .resume .. | .cancel .. | .completionRecord .. | .holdoffExpiry .. | .commit ..
  | .mmaEnd .. | .unitRepeat .. | .spldDone .. | .spadParityReread .. | .handoverDone .. | .dmaDescriptorStart ..
  | .dmaBurst .. | .dmaCompletion .. | .dmaSubmit .. | .dmaRestart .. | .dmaFlush .. | .spadHandover .. | .nbModeReq ..
  | .switchingDone .. | .rowBurst .. | .nbStepEnd .. | .nbrResultWrite .. | .nbRunEnd .. | .nbloadDone ..
  | .slotBoundary .. | .slotZero .. | .quotaWindowStart .. | .transferEnd .. | .readMergeWrite .. | .adderRequest ..
  | .adderSequence .. | .refreshBoundary .. | .refresh .. | .forcedRefresh .. | .refreshDone .. | .scrubRead ..
  | .laneDead .. | .slcDeadLanesWrite .. | .channelFailed .. | .arbLoad .. | .starvationServe .. | .farResponse ..
  | .farPortBringup .. | .farDeviceLost .. | .fpPerst .. | .fpRetrain .. | .flitForward .. | .outputWaitDrop ..
  | .routeChange .. | .settleExpiry .. | .e2eTimeout .. | .writeAck .. | .grant .. | .mgmt .. | .gfEnable ..
  | .gfRetrain .. | .partnerFound .. | .gfTrainingDone .. | .qualificationWindowEnd .. | .retrainTimeout ..
  | .controlFlitTimeout .. | .uncorrectableBurst .. | .lossOfSignal .. | .addMessage .. | .gfRttMeasurement ..
  | .cadenceTick .. | .tickMissing | .holdLimitExpiry | .reagree | .form .. | .formEcho .. | .formed .. | .formTimeout ..
  | .phaseStart .. | .collData .. | .release .. | .refuse .. | .lateCheck .. | .late .. | .collFail .. | .lost ..
  | .heartbeatSend .. | .heartbeat .. | .heartbeatMiss .. | .reformTimeout .. | .collectiveEnd .. | .localEdge
  | .groupWordExpiry .. | .bennexFlit .. | .bxRetrain .. | .bxRestart .. | .widthDisagree .. | .bxTraining ..
  | .bxLiveSpare .. | .meshRetransmit .. | .meshLinkFail .. | .bxControlFlitTimeout .. | .bxRouteSettleExpiry ..
  | .sensorLost .. | .clampUpdate .. | .stage2Entry .. | .thermtrip .. | .telemLost | .powerMeasure ..
  | .allowedPowerUpdate | .supalert0 | .supalert1 | .supalertRelease .. | .memRd .. | .memWr .. | .hostSnoop ..
  | .hdmCommit .. | .doorbellTail .. | .doorbellCqHead .. | .qSchedWrite .. | .qRingCfgWrite .. | .hostRingRetry ..
  | .hperst .. | .hostLinkDown | .hostLinkUp .. | .semSignal .. | .semValueWrite .. | .evSetReg .. | .evClrReg ..
  | .coreHold .. | .mxaInject .. | .mxaInjectTwice .. | .vsuInject .. | .vsuInjectTwice .. | .glbChipIdWrite ..
  | .kvFrameBorrow .. | .kvFrameAck .. | .pwrgoodFall | .pwrgoodRise | .pkgReset .. | .vddAuxRemoval | .clocksPhase ..
  | .bootPhase .. | .selfTestPhase .. | .bennexPhase | .dramTraining .. | .linksPhase | .mapPhase | .ready ..
  | .startTimeout | .partialReset .. | .bruDieResetReq .. | .partialResetReturn .. | .d0ResetTimeout | .jigSave ..
  | .jigComplete .. | .regionFreeTimeout | .resync .. | .consResend .. | .consGiveup .. | .audRun | .auditDone ..
  | .i3cRead | .avsTimeout | .dynamicAddressAssignment .. | .testPortAccess .. | .unitInstructionEnd .. => true

end Sys2Proof
end

