-- ==== Sys2Proof/Decode.lean ====
section
/-! DEFINITION. The commands that a word spells. The table gives no row bits, so no word spells a command. -/

namespace Sys2Proof

/-- The command of a word of `nbits` bits: none, for the table gives its rows no bits. -/
def decodeTableWord (_nbits _w : Nat) : Option Instr := none

end Sys2Proof
end

