-- ==== Sys2Proof/Machine/Table.lean ====
section
/-! DEFINITION. The operations on sparse storage: reading, writing, the canonical form, and bytes read and written
in little-endian order (R3, chapter 09's head). -/

namespace Sys2Proof.Machine

/-- The value held at key `k`; `d` where nothing is listed. -/
def tget {α : Type} (d : α) : Table α → Nat → α
  | [], _ => d
  | (j, v) :: t, k => if k = j then v else tget d t k

/-- The table without key `k`. -/
def tdel {α : Type} (t : Table α) (k : Nat) : Table α := t.filter (fun e => e.1 != k)

/-- The table with `k` listed as `v`, at its place by key. -/
def tput {α : Type} : Table α → Nat → α → Table α
  | [], k, v => [(k, v)]
  | (j, w) :: t, k, v =>
    if k < j then (k, v) :: (j, w) :: t
    else if k = j then (k, v) :: t
    else (j, w) :: tput t k v

/-- The table with `k` written to `v`: writing the default removes the entry, so that equal contents are equal data. -/
def tset {α : Type} [DecidableEq α] (d : α) (t : Table α) (k : Nat) (v : α) : Table α :=
  if v = d then tdel t k else tput t k v

/-- Keys rise strictly from above `lo`, and no entry is the default. -/
def twfFrom {α : Type} [DecidableEq α] (d : α) : Option Nat → Table α → Bool
  | _, [] => true
  | lo, (j, v) :: t =>
    (match lo with | none => true | some l => decide (l < j)) && decide (v ≠ d) && twfFrom d (some j) t

/-- The canonical form of sparse storage. -/
def twf {α : Type} [DecidableEq α] (d : α) (t : Table α) : Bool := twfFrom d none t

/-- A set of numbers, strictly rising. -/
abbrev NSet := List Nat

def nsIns : NSet → Nat → NSet
  | [], k => [k]
  | j :: t, k => if k < j then k :: j :: t else if k = j then j :: t else j :: nsIns t k

def nsDel (s : NSet) (k : Nat) : NSet := s.filter (fun j => j != k)

/-- `n` bytes at `a`, least significant first, as a number. -/
def readLE (m : Table Byte) (a : Nat) : Nat → Nat
  | 0 => 0
  | n + 1 => (tget 0#8 m a).toNat + 256 * readLE m (a + 1) n

/-- The low `n` bytes of `v` written from `a`, least significant first. -/
def writeLE (m : Table Byte) (a : Nat) : Nat → Nat → Table Byte
  | 0, _ => m
  | n + 1, v => writeLE (tset 0#8 m a (BitVec.ofNat 8 v)) (a + 1) n (v / 256)

/-- The little-endian number of a list of bytes. -/
def leOf : List Byte → Nat
  | [] => 0
  | b :: t => b.toNat + 256 * leOf t

/-- The low `n` bytes of `v`, least significant first. -/
def leBytes : Nat → Nat → List Byte
  | 0, _ => []
  | n + 1, v => BitVec.ofNat 8 v :: leBytes n (v / 256)

/-- The bytes from `a`, one after the other. -/
def readBytes (m : Table Byte) (a : Nat) : Nat → List Byte
  | 0 => []
  | n + 1 => tget 0#8 m a :: readBytes m (a + 1) n

/-- A list of bytes written from `a` upwards. -/
def writeBytes (m : Table Byte) (a : Nat) : List Byte → Table Byte
  | [] => m
  | b :: t => writeBytes (tset 0#8 m a b) (a + 1) t

/-- One bit step of CRC-32 (IEEE 802.3, reflected polynomial 0xEDB8_8320). -/
def crcBit (c : Nat) : Nat := if c % 2 = 1 then Nat.xor (c / 2) 0xEDB88320 else c / 2

/-- CRC-32 (IEEE 802.3) of a list of bytes (R21, R81). -/
def crc32 (l : List Byte) : Nat :=
  Nat.xor 0xFFFFFFFF (l.foldl (fun c b =>
    crcBit (crcBit (crcBit (crcBit (crcBit (crcBit (crcBit (crcBit (Nat.xor c b.toNat))))))))) 0xFFFFFFFF)

/-- `v` capped at the largest `w`-bit number. -/
def sat (w v : Nat) : Nat := if v < 2 ^ w then v else 2 ^ w - 1

end Sys2Proof.Machine
end

