-- ==== Sys2Proof/Machine/Num.lean ====
section
/-! DEFINITION. The arithmetic contract (R54 to R72): element formats, exact values, rounding into a format, the Wide
Sum Format, microscaled blocks and the arithmetic flags. -/

namespace Sys2Proof.Machine

/-! The arithmetic flags of R70, as an 8-bit mask. -/
def flWindow : BitVec 8 := 1#8
def flNan : BitVec 8 := 2#8
def flOver : BitVec 8 := 4#8
def flClamp : BitVec 8 := 8#8
def flInvalid : BitVec 8 := 16#8

/-- The format codes of R57 that are not reserved. -/
inductive Fmt where
  | fp32 | bf16 | fp16 | e4m3 | e5m2 | int8 | mxE4m3 | mxE5m2 | mxE2m3 | mxE3m2 | mxE2m1 | wsf | int32 | int64
  deriving DecidableEq, Repr, Inhabited

/-- R57: the format a code names; 0xE and 0xF are reserved. -/
def Fmt.ofCode : Nat → Option Fmt
  | 0 => some .fp32 | 1 => some .bf16 | 2 => some .fp16 | 3 => some .e4m3 | 4 => some .e5m2 | 5 => some .int8
  | 6 => some .mxE4m3 | 7 => some .mxE5m2 | 8 => some .mxE2m3 | 9 => some .mxE3m2 | 10 => some .mxE2m1
  | 11 => some .wsf | 12 => some .int32 | 13 => some .int64 | _ => none

def Fmt.code : Fmt → Nat
  | .fp32 => 0 | .bf16 => 1 | .fp16 => 2 | .e4m3 => 3 | .e5m2 => 4 | .int8 => 5 | .mxE4m3 => 6 | .mxE5m2 => 7
  | .mxE2m3 => 8 | .mxE3m2 => 9 | .mxE2m1 => 10 | .wsf => 11 | .int32 => 12 | .int64 => 13

/-- Element width in bits (R54, R61). -/
def Fmt.width : Fmt → Nat
  | .fp32 => 32 | .bf16 => 16 | .fp16 => 16 | .e4m3 => 8 | .e5m2 => 8 | .int8 => 8 | .mxE4m3 => 8 | .mxE5m2 => 8
  | .mxE2m3 => 6 | .mxE3m2 => 6 | .mxE2m1 => 4 | .wsf => 128 | .int32 => 32 | .int64 => 64

/-- The microscaled formats of R56. -/
def Fmt.isMx : Fmt → Bool
  | .mxE4m3 | .mxE5m2 | .mxE2m3 | .mxE3m2 | .mxE2m1 => true
  | _ => false

def Fmt.isInt : Fmt → Bool
  | .int8 | .int32 | .int64 => true
  | _ => false

/-- Every floating-point code, the microscaled ones included. -/
def Fmt.isFloat (f : Fmt) : Bool := !f.isInt && f != .wsf

/-- How a floating-point format spends its topmost codes (R54). -/
inductive Top where
  | ieee      -- exponent all ones: infinity and NaN
  | e4m3      -- only S.1111.111 is NaN
  | none      -- every code is a number
  deriving DecidableEq, Repr

/-- The parameters of a floating-point format (R54). -/
structure Fp where
  ebits : Nat
  fbits : Nat
  bias : Nat
  top : Top
  deriving DecidableEq, Repr

def fpFp32 : Fp := ⟨8, 23, 127, .ieee⟩
def fpBf16 : Fp := ⟨8, 7, 127, .ieee⟩
def fpFp16 : Fp := ⟨5, 10, 15, .ieee⟩
def fpE4m3 : Fp := ⟨4, 3, 7, .e4m3⟩
def fpE5m2 : Fp := ⟨5, 2, 15, .ieee⟩
def fpE3m2 : Fp := ⟨3, 2, 3, .none⟩
def fpE2m3 : Fp := ⟨2, 3, 1, .none⟩
def fpE2m1 : Fp := ⟨2, 1, 1, .none⟩

/-- The floating-point element format behind a format code, if it is one. -/
def Fmt.fp? : Fmt → Option Fp
  | .fp32 => some fpFp32 | .bf16 => some fpBf16 | .fp16 => some fpFp16
  | .e4m3 | .mxE4m3 => some fpE4m3 | .e5m2 | .mxE5m2 => some fpE5m2
  | .mxE3m2 => some fpE3m2 | .mxE2m3 => some fpE2m3 | .mxE2m1 => some fpE2m1
  | .int8 | .wsf | .int32 | .int64 => none

/-- The largest finite magnitude code of a format. -/
def Fp.maxCode (f : Fp) : Nat :=
  match f.top with
  | .ieee => (2 ^ f.ebits - 1) * 2 ^ f.fbits - 1
  | .e4m3 => 2 ^ (f.ebits + f.fbits) - 2
  | .none => 2 ^ (f.ebits + f.fbits) - 1

/-- The sign bit's weight. -/
def Fp.signBit (f : Fp) : Nat := 2 ^ (f.ebits + f.fbits)

/-- An exact value with the specials: a number is `±n · 2^e / d` with `d` at least 1; `neg` with `n = 0` is −0. -/
inductive Val where
  | nan
  | inf (neg : Bool)
  | num (neg : Bool) (n : Nat) (e : Int) (d : Nat)
  deriving DecidableEq, Repr, Inhabited

def Val.zero : Val := .num false 0 0 1
def Val.ofInt (i : Int) : Val := .num (decide (i < 0)) i.natAbs 0 1

def Val.isNan : Val → Bool
  | .nan => true
  | _ => false

def Val.isZero : Val → Bool
  | .num _ n _ _ => n == 0
  | _ => false

/-- `n · 2^k` for a power that is not negative, and `n` otherwise (the caller divides instead). -/
def shlI (n : Nat) (k : Int) : Nat := n * 2 ^ k.toNat

/-- Numerator and denominator of a magnitude `n · 2^e / d`. -/
def ratNum (n : Nat) (e : Int) : Nat := shlI n e
def ratDen (e : Int) (d : Nat) : Nat := shlI d (-e)

/-- The nearest integer to `n / d`, a tie going to the even integer. -/
def rneDiv (n d : Nat) : Nat :=
  let q := n / d
  let r := n % d
  if 2 * r < d then q else if d < 2 * r then q + 1 else q + q % 2

/-- `⌊log2 (n / d)⌋` for positive `n` and `d`. -/
def floorLog2 (n d : Nat) : Int :=
  let e : Int := (Nat.log2 n : Int) - (Nat.log2 d : Int)
  -- the floor is e or e - 1
  if shlI d e ≤ shlI n (-e) then e else e - 1

/-- The magnitude code that `n / d` rounds to, as though the exponent range were unbounded (R59, R60). -/
def Fp.roundMag (f : Fp) (n d : Nat) : Nat :=
  if n = 0 then 0 else
  let e := floorLog2 n d
  let emin : Int := 1 - (f.bias : Int)
  let q : Int := (if e < emin then emin else e) - (f.fbits : Int)
  let m := rneDiv (shlI n (-q)) (shlI d q)
  if e < emin then m else ((e + f.bias).toNat) * 2 ^ f.fbits + m - 2 ^ f.fbits

/-- R54: the value of a code of a floating-point format. -/
def Fp.value (f : Fp) (c : Nat) : Val :=
  let neg := bit c (f.ebits + f.fbits)
  let ex := bits c f.fbits f.ebits
  let fr := bits c 0 f.fbits
  let finite : Val :=
    if ex = 0 then .num neg fr (1 - (f.bias : Int) - (f.fbits : Int)) 1
    else .num neg (2 ^ f.fbits + fr) ((ex : Int) - (f.bias : Int) - (f.fbits : Int)) 1
  match f.top with
  | .none => finite
  | .e4m3 => if bits c 0 (f.ebits + f.fbits) = 2 ^ (f.ebits + f.fbits) - 1 then .nan else finite
  | .ieee => if ex = 2 ^ f.ebits - 1 then (if fr = 0 then .inf neg else .nan) else finite

/-- The value of an element code in a format other than WSF; a microscaled code without its scale. -/
def Fmt.value (f : Fmt) (c : Nat) : Val :=
  match f.fp? with
  | some p => p.value c
  | none => Val.ofInt (toSigned f.width c)

/-- The value of a microscaled element under scale code `s` (R56). -/
def scaled (s : Nat) (v : Val) : Val :=
  if s = 255 then .nan else
  match v with
  | .num neg n e d => .num neg n (e + (s : Int) - 127) d
  | w => w

/-! ### Exact operations -/

/-- Signed numerator over a common `2^e` and `d1 * d2`. -/
def Val.signedAt (neg : Bool) (n : Nat) (e e0 : Int) (d2 : Nat) : Int :=
  let m : Int := (shlI n (e - e0) * d2 : Nat)
  if neg then -m else m

/-- Exact sum with the IEEE 754 rules for zeros, infinities and invalid operations (R59). -/
def Val.add (a b : Val) : Val :=
  match a, b with
  | .nan, _ | _, .nan => .nan
  | .inf p, .inf q => if p = q then .inf p else .nan
  | .inf p, _ => .inf p
  | _, .inf q => .inf q
  | .num p n e d, .num q m k c =>
    let e0 := min e k
    let s := Val.signedAt p n e e0 c + Val.signedAt q m k e0 d
    if s = 0 then .num (p && q && decide (n = 0) && decide (m = 0)) 0 0 1
    else .num (decide (s < 0)) s.natAbs e0 (d * c)

def Val.neg : Val → Val
  | .nan => .nan
  | .inf p => .inf (!p)
  | .num p n e d => .num (!p) n e d

def Val.abs : Val → Val
  | .nan => .nan
  | .inf _ => .inf false
  | .num _ n e d => .num false n e d

def Val.sub (a b : Val) : Val := a.add b.neg

/-- Exact product; infinity times zero is invalid (R59). -/
def Val.mul (a b : Val) : Val :=
  match a, b with
  | .nan, _ | _, .nan => .nan
  | .inf p, .inf q => .inf (p != q)
  | .inf p, .num q n _ _ => if n = 0 then .nan else .inf (p != q)
  | .num q n _ _, .inf p => if n = 0 then .nan else .inf (p != q)
  | .num p n e d, .num q m k c => .num (p != q) (n * m) (e + k) (d * c)

/-- Exact quotient; 0/0 and infinity over infinity are invalid, a finite number over 0 is infinite. -/
def Val.div (a b : Val) : Val :=
  match a, b with
  | .nan, _ | _, .nan => .nan
  | .inf _, .inf _ => .nan
  | .inf p, .num q _ _ _ => .inf (p != q)
  | .num p _ _ _, .inf q => .num (p != q) 0 0 1
  | .num p n e d, .num q m k c =>
    if m = 0 then (if n = 0 then .nan else .inf (p != q))
    else .num (p != q) (n * c) (e - k) (d * m)

/-- Exact scaling by a power of two. -/
def Val.scale2 (a : Val) (k : Int) : Val :=
  match a with
  | .num p n e d => .num p n (e + k) d
  | w => w

/-- The signed comparison of two numbers that are not NaN; −0 equals +0. -/
def Val.lt (a b : Val) : Bool :=
  match a, b with
  | .nan, _ | _, .nan => false
  | .inf p, .inf q => p && !q
  | .inf p, .num .. => p
  | .num .., .inf q => !q
  | .num p n e d, .num q m k c =>
    let e0 := min e k
    decide (Val.signedAt p n e e0 c < Val.signedAt q m k e0 d)

def Val.eq (a b : Val) : Bool := !a.isNan && !b.isNan && !a.lt b && !b.lt a
def Val.le (a b : Val) : Bool := a.lt b || a.eq b

/-- The ranking that MIN and MAX use: −0 below +0. -/
def Val.rankLt (a b : Val) : Bool :=
  if a.isZero && b.isZero then
    match a, b with
    | .num p _ _ _, .num q _ _ _ => p && !q
    | _, _ => false
  else a.lt b

/-! ### Writing a result in a format -/

/-- The largest code a signed integer format takes from a number (R60): the most negative one is left for NaN. -/
def intMax (w : Nat) : Nat := 2 ^ (w - 1) - 1

/-- A signed magnitude as a `w`-bit two's-complement code. -/
def intCode (w : Nat) (neg : Bool) (m : Nat) : Nat := if neg then (2 ^ w - m) % 2 ^ w else m % 2 ^ w

/-- R60 for a floating-point target: the code written and the flags set. -/
def Fp.write (f : Fp) (satur : Bool) (v : Val) : Nat × BitVec 8 :=
  let sgn (neg : Bool) : Nat := if neg then f.signBit else 0
  let nanC : Nat :=
    match f.top with
    | .ieee => (2 ^ f.ebits - 1) * 2 ^ f.fbits + 2 ^ (f.fbits - 1)
    | _ => 2 ^ (f.ebits + f.fbits) - 1
  let infC : Nat := (2 ^ f.ebits - 1) * 2 ^ f.fbits
  match v with
  | .nan => (nanC, flNan)
  | .inf p =>
    match f.top with
    | .ieee => if satur then (sgn p + f.maxCode, flOver) else (sgn p + infC, 0#8)
    | _ => (nanC, flNan)
  | .num p n e d =>
    let m := f.roundMag (ratNum n e) (ratDen e d)
    if m ≤ f.maxCode then (sgn p + m, 0#8)
    else match f.top with
      | .ieee => if satur then (sgn p + f.maxCode, flOver) else (sgn p + infC, flOver)
      | _ => (sgn p + f.maxCode, flOver)

/-- R60 for an integer target. -/
def writeInt (w : Nat) (v : Val) : Nat × BitVec 8 :=
  match v with
  | .nan => (2 ^ (w - 1), flNan)
  | .inf p => (intCode w p (intMax w), flOver)
  | .num p n e d =>
    let m := rneDiv (ratNum n e) (ratDen e d)
    if m ≤ intMax w then (intCode w p m, 0#8) else (intCode w p (intMax w), flOver)

/-- R60: a value written in a format that is neither microscaled nor WSF. -/
def Fmt.write (f : Fmt) (satur : Bool) (v : Val) : Nat × BitVec 8 :=
  match f.fp? with
  | some p => p.write (satur && f == .e5m2) v
  | none => writeInt f.width v

/-- FP32 of an exact value: the code and the flags. -/
def toFp32 (v : Val) : Nat × BitVec 8 := fpFp32.write false v

/-- The exact value of an FP32 code. -/
def ofFp32 (c : Nat) : Val := fpFp32.value (c % 2 ^ 32)

/-- A value rounded once to FP32, as a value (R59). -/
def roundFp32 (v : Val) : Val := ofFp32 (toFp32 v).1

/-- INVALID when an operand is NaN or a NaN comes of operands that are not (R70). -/
def flagOp (ops : List Val) (r : Val) : BitVec 8 :=
  if r.isNan || ops.any Val.isNan then flInvalid else 0#8

/-! ### The Wide Sum Format (R61 to R69) -/

/-- A WSF element: its integer and its tag (R61, R64). -/
structure Wsf where
  n : Wide
  tag : BitVec 8
  deriving DecidableEq, Repr, Inhabited

def Wsf.zero : Wsf := ⟨0#128, 0#8⟩
def tagNan : BitVec 8 := 1#8
def tagPosInf : BitVec 8 := 2#8
def tagNegInf : BitVec 8 := 4#8
def tagOver : BitVec 8 := 8#8

/-- R65: addition modulo 2^128 with the OR of the tags. -/
def Wsf.add (a b : Wsf) : Wsf := ⟨a.n + b.n, a.tag ||| b.tag⟩

/-- R63: a finite value placed on the grid of anchor `a`, a tie to the even integer. -/
def placeOnGrid (neg : Bool) (n : Nat) (e : Int) (d : Nat) (a : Int) : Int :=
  let m := rneDiv (ratNum n (e - a)) (ratDen (e - a) d)
  if neg then -(m : Int) else m

/-- R63, R64, R66: a term as a WSF element under a term limit `2^lim`. -/
def Wsf.ofTerm (lim : Nat) (a : Int) (t : Val) : Wsf :=
  match t with
  | .nan => ⟨0#128, tagNan⟩
  | .inf false => ⟨0#128, tagPosInf⟩
  | .inf true => ⟨0#128, tagNegInf⟩
  | .num p n e d =>
    let i := placeOnGrid p n e d a
    if i.natAbs < 2 ^ lim then ⟨BitVec.ofInt 128 i, 0#8⟩ else ⟨0#128, tagOver⟩

/-- R69: a WSF element converted, as an exact value and the flags the conversion itself sets. -/
def Wsf.convert (w : Wsf) (a : Int) : Val × BitVec 8 :=
  if w.tag.getLsbD 0 || (w.tag.getLsbD 1 && w.tag.getLsbD 2) then (.nan, flNan)
  else if w.tag.getLsbD 1 then (.inf false, 0#8)
  else if w.tag.getLsbD 2 then (.inf true, 0#8)
  else if w.tag.getLsbD 3 || (w.n.getLsbD 127 != w.n.getLsbD 126) then (.nan, flWindow ||| flNan)
  else
    let i := w.n.toInt
    if i = 0 then (Val.zero, 0#8) else (.num (decide (i < 0)) i.natAbs a 1, 0#8)

/-! ### Microscaled blocks (R72) -/

/-- The exponent of the largest element power of each microscaled format (R72). -/
def Fmt.emax : Fmt → Nat
  | .mxE4m3 => 8 | .mxE5m2 => 15 | .mxE2m3 => 2 | .mxE3m2 => 4 | .mxE2m1 => 2 | _ => 0

/-- The larger magnitude of two numbers; specials are handled by the caller. -/
def maxMag (a b : Val) : Val := if a.abs.lt b.abs then b.abs else a.abs

/-- One block, or the output's own part of one: scale code, element codes and flags (R72). -/
def mxBlock (f : Fmt) (vs : List Val) : Nat × List Nat × BitVec 8 :=
  match f.fp? with
  | none => (0, vs.map (fun _ => 0), 0#8)
  | some p =>
    if vs.any (fun v => match v with | .num .. => false | _ => true) then (255, vs.map (fun _ => 0), flNan)
    else
      match vs.foldl maxMag Val.zero with
      | .num _ 0 _ _ => (0, vs.map (fun v => match v with | .num true .. => p.signBit | _ => 0), 0#8)
      | .num _ n e d =>
        let e0 := floorLog2 (ratNum n e) (ratDen e d) - (f.emax : Int)
        let e1 := max (-127) (min 127 e0)
        let r := vs.map (fun v =>
          match v.scale2 (-e1) with
          | .num q m k c =>
            let g := p.roundMag (ratNum m k) (ratDen k c)
            if g ≤ p.maxCode then ((if q then p.signBit else 0) + g, 0#8)
            else ((if q then p.signBit else 0) + p.maxCode, flOver)
          | _ => (0, 0#8))
        ((e1 + 127).toNat, r.map Prod.fst,
          (if e0 = e1 then 0#8 else flClamp) ||| r.foldl (fun a x => a ||| x.2) 0#8)
      | _ => (255, vs.map (fun _ => 0), flNan)

/-! ### The matrix array's exact sums (R107, R111, R112) -/

/-- The sum of a list of exact products, as the 32-element group sum, with its tag: a NaN, an infinity times zero,
and the infinities are recorded and add nothing. -/
def sumTerms (ts : List Val) : Val × BitVec 8 :=
  ts.foldl (fun acc t =>
    match t with
    | .nan => (acc.1, acc.2 ||| tagNan)
    | .inf false => (acc.1, acc.2 ||| tagPosInf)
    | .inf true => (acc.1, acc.2 ||| tagNegInf)
    | w => (acc.1.add w, acc.2)) (Val.zero, 0#8)

end Sys2Proof.Machine
end

