-- ==== Sys2Proof/Machine/Desc.lean ====
section
/-! DEFINITION. Tensor descriptors: the image's fields (R221), where an element, a tag and a scale lie (R222 to R224),
and validity (R225). -/

namespace Sys2Proof.Machine

/-- The fields of a tensor descriptor (R221). -/
structure Desc where
  base : Nat
  tagBase : Nat
  scaleBase : Nat
  rows : Nat
  cols : Nat
  stride : Nat
  sstride : Nat
  fmt : Fmt
  anchor : Int
  sat : Bool
  blockAxis : Nat
  split : Nat
  axisOrigin : Nat
  deriving DecidableEq, Repr

/-! The local map's ranges that descriptors look at (R28, R33, R34). -/
def spadBase : Nat := 0x08000000000
def accBase : Nat := 0x08040000000
def localOf (a : Nat) : Nat := a % 2 ^ 44
def chipOf (a : Nat) : Nat := a / 2 ^ 44 % 2 ^ 20

/-- Field `[lo+len-1 : lo]` of 64-bit word `w` of an image. -/
def imgBits (im : Image) (w lo len : Nat) : Nat := bits im.toNat (64 * w + lo) len

/-- R221: the fields of an image; none where FMT is reserved. -/
def Desc.ofImage (im : Image) : Option Desc :=
  match Fmt.ofCode (imgBits im 5 0 4) with
  | none => none
  | some f => some
    { base := imgBits im 0 0 64, tagBase := imgBits im 1 0 64, scaleBase := imgBits im 2 0 64
      rows := imgBits im 3 0 17, cols := imgBits im 3 17 17
      stride := imgBits im 4 0 32, sstride := imgBits im 4 32 32
      fmt := f, anchor := toSigned 10 (imgBits im 5 4 10), sat := imgBits im 5 14 1 == 1
      blockAxis := imgBits im 5 15 1, split := imgBits im 5 16 3, axisOrigin := imgBits im 5 20 20 }

/-- Bits of a row of `n` elements, in whole bytes. -/
def Fmt.rowBytes (f : Fmt) (n : Nat) : Nat := (n * f.width + 7) / 8

/-- R223: pieces of 64 bytes that one row takes in each of its banks. -/
def Desc.pb (d : Desc) : Nat :=
  let rb := d.stride * d.fmt.width / 8
  let b := 2 ^ d.split
  (rb + 64 * b - 1) / (64 * b)

/-- R223: the bank and the offset in the bank that BASE names, from its offset in the scratchpads. -/
def Desc.bank0 (d : Desc) : Nat := (localOf d.base - spadBase) / 2 ^ 19 % 32
def Desc.bankOff (d : Desc) : Nat := (localOf d.base - spadBase) % 2 ^ 19

/-- R222, R223: the global address of byte `j` of row `r`. -/
def Desc.byteAddr (d : Desc) (r j : Nat) : Nat :=
  if d.split = 0 then d.base + r * (d.stride * d.fmt.width / 8) + j
  else
    let b := 2 ^ d.split
    let q := j / 64
    d.base + (q % b) * 2 ^ 19 + (r * d.pb + q / b) * 64 + j % 64

/-- R224: the global address of the scale byte of element (r, i). -/
def Desc.scaleAddr (d : Desc) (r i : Nat) : Nat :=
  if d.blockAxis = 0 then d.scaleBase + r * d.sstride + (d.axisOrigin + i) / 32
  else d.scaleBase + ((d.axisOrigin + r) / 32) * d.sstride + i

/-- R222: the memory index of an element. -/
def Desc.memIndex (d : Desc) (r i : Nat) : Nat := r * d.stride + i

/-- R222: the address of the tag of a WSF element outside an accumulator store. -/
def Desc.tagAddr (d : Desc) (r i : Nat) : Nat := d.tagBase + d.memIndex r i

def localSpad (l : Nat) : Bool := decide (spadBase ≤ l) && decide (l < spadBase + 2 ^ 30)
def localAcc (l : Nat) : Bool := decide (accBase ≤ l) && decide (l < accBase + 2 ^ 27)

/-- R225: an image is a valid descriptor. -/
def descValid (im : Image) : Bool :=
  match Desc.ofImage im with
  | none => false
  | some d =>
    let w := d.fmt.width
    imgBits im 3 34 30 == 0 && imgBits im 5 19 1 == 0 && imgBits im 5 40 24 == 0 &&
    imgBits im 6 0 64 == 0 && imgBits im 7 0 64 == 0 &&
    decide (1 ≤ d.rows) && decide (d.rows ≤ 65536) && decide (1 ≤ d.cols) && decide (d.cols ≤ 65536) &&
    decide (d.cols ≤ d.stride) && d.stride * w % 8 == 0 &&
    (!(d.fmt == .mxE2m3 || d.fmt == .mxE3m2) || d.stride % 4 == 0) &&
    (d.split != 0 || w < 8 || d.base % (w / 8) == 0) &&
    (d.fmt == .wsf || imgBits im 5 4 10 == 0) &&
    (d.fmt == .e5m2 || d.fmt == .mxE5m2 || !d.sat) &&
    (if d.fmt.isMx then d.sstride != 0
     else d.blockAxis == 0 && d.axisOrigin == 0 && d.scaleBase == 0 && d.sstride == 0) &&
    (d.split == 0 ||
      (d.split ≤ 5 && localSpad (localOf d.base) && d.bankOff % 64 == 0 &&
        decide (d.bank0 + 2 ^ d.split ≤ 32) && decide (d.bankOff + d.rows * d.pb * 64 ≤ 2 ^ 19)))

/-- The bytes of one row that elements 0 to `n - 1` lie in, as runs of (first address, length). -/
def Desc.rowRuns (d : Desc) (r n : Nat) : List (Nat × Nat) :=
  let len := d.fmt.rowBytes n
  if d.split = 0 then [(d.byteAddr r 0, len)]
  else (List.range ((len + 63) / 64)).map (fun q => (d.byteAddr r (64 * q), min 64 (len - 64 * q)))

/-- Every run of bytes that the tensor's elements lie in. -/
def Desc.dataRuns (d : Desc) : List (Nat × Nat) :=
  (List.range d.rows).flatMap (fun r => d.rowRuns r d.cols)

/-- The runs of the scale plane (R224). -/
def Desc.scaleRuns (d : Desc) : List (Nat × Nat) :=
  if !d.fmt.isMx then []
  else if d.blockAxis = 0 then
    (List.range d.rows).map (fun r =>
      (d.scaleAddr r 0, (d.axisOrigin + d.cols - 1) / 32 - d.axisOrigin / 32 + 1))
  else
    (List.range ((d.axisOrigin + d.rows - 1) / 32 - d.axisOrigin / 32 + 1)).map (fun b =>
      (d.scaleBase + (d.axisOrigin / 32 + b) * d.sstride, d.cols))

/-- The runs of the tag plane of a WSF tensor outside an accumulator store. -/
def Desc.tagRuns (d : Desc) : List (Nat × Nat) :=
  if d.fmt = .wsf ∧ !localAcc (localOf d.base) then (List.range d.rows).map (fun r => (d.tagAddr r 0, d.cols))
  else []

def Desc.planeRuns (d : Desc) : List (Nat × Nat) := d.scaleRuns ++ d.tagRuns

/-- Every run of bytes that the tensor and its planes lie in. -/
def Desc.allRuns (d : Desc) : List (Nat × Nat) := d.dataRuns ++ d.planeRuns

end Sys2Proof.Machine
end

