-- ==== Sys2Proof/Config.lean ====
section
/-! DEFINITION. What one part fixes (its steppings, fuses and firmware) and the free values: constants with no body,
which stand for every value the spec leaves open. Nothing can be proved of a free value but what holds of every value. -/

namespace Sys2Proof.Config

/-- The stepping code of die d: 0xA1 or 0xB0 (R21). -/
opaque stepping : Nat → Nat
/-- Word w of die d's fused capability word (R363). -/
opaque fusedCap : Nat → Nat → Nat
/-- The neighbours of hot spot i that TH_HOTSPOT fixes (R394). -/
opaque hotspotNbrA : Nat → Nat
opaque hotspotNbrB : Nat → Nat
/-- MB_ABI.MINOR and MB_FW_VERSION, firmware's values (R392). -/
opaque mbAbiMinor : Nat
opaque fwVersion : Nat

/-- A cycle count, or another measure of time, that an event reports: the model holds no clock (R116, R128, R219). -/
opaque cycles : Nat → Nat
/-- Chooses among the FP32 results that the bounds of R135 leave open: revision, or 0 for all, function code, the FP32 input. -/
opaque spline : Nat → Nat → Nat → Nat
/-- The J10 result of a built-in table (R145): function code, the FP32 input. The tables are not in the spec. -/
opaque splineCompat : Nat → Nat → Nat
/-- Chooses among the results of RSTD, RMS and RRMS within 1 ulp (R151): which field, the sums S1, S2, Q, N, ε, E and the
divisor. -/
opaque rowRoot : List Nat → Nat

/-- The bytes of a far device's memory that this part has not written: how often the device was reset, the address. -/
opaque farByte : Nat → Nat → Nat
/-- The bytes of another chip's memory: the model's own counter, the address. -/
opaque peerByte : Nat → Nat → Nat

/-- Whether a received word beyond the bound of the burst code lies within the bound of another codeword (R260), which the errors'
values decide: the model's own counter; whether it is then read as poisoned, the other codeword's data as a number, and the
lanes in which the received word differs from it. -/
opaque otherCodeword : Nat → Option (Bool × Nat × List Nat)

/-- The boot flash as the board supplied it: image slot and offset (R453). -/
opaque flashByte : Nat → Nat → Nat
/-- SHAKE256 of a list of bytes, to a number of bytes (R452). -/
opaque shake256 : Nat → List (BitVec 8) → List (BitVec 8)
/-- An ML-DSA-65 signature over a list of bytes verifies with a public key: bytes, signature, key (R454). -/
opaque signatureOk : List (BitVec 8) → List (BitVec 8) → List (BitVec 8) → Bool
/-- The fused security configuration (R452): the digests of the vendor keys, TEST_OPEN, SVN_FUSED and KEY_REVOKED as made. -/
opaque keyDigest : Nat → List (BitVec 8)
opaque testOpen : Nat
opaque svnFused : Nat
opaque keyRevoked : Nat
/-- Word k of the digest of the identity key, and the digest of the voted fuse image (R455, R457). -/
opaque idDigest : Nat → Nat
opaque fuseDigest : List (BitVec 8)
/-- The identity public key, the endorsement, and the signature of a report: whether a scan through the test port has
zeroed the private key (R460), the model's own counter, the report (R458). -/
opaque idPublicKey : List (BitVec 8)
opaque endorsement : List (BitVec 8)
opaque reportSignature : Bool → Nat → List (BitVec 8) → List (BitVec 8)
/-- The anchor of the product of probabilities and values in a one-pass step (R163), and staging bytes: free values. -/
opaque pvAnchor : Nat → Int
/-- Which of the regions that the Jig tests together it tests last, and the failing index of an NBR that fails at start-up
(R436, R451): the model's own counter. -/
opaque jigLast : Nat → Nat
opaque jigIndex : Nat → Nat
/-- The sum of the mesh links' biscuit TOTALs, which the spec does not give (R425, class 2). -/
opaque meshTotal : Nat

end Sys2Proof.Config
end

