-- ==== Sys2Proof/Machine/RegMap.lean ====
section
/-! DEFINITION. The register map of the part: every register table of the spec's chapters (rules R24, R53, R105,
R126, R157, R185, R209, R255, R276, R297, R298, R306, R330, R351, R352, R368, R390, R391, R392, R411, R412, R434,
R451, R461) at the block offsets of R481, with each field's place, access type (R4) and reset value. -/

namespace Sys2Proof.Machine

/-- The register kinds, one for each register name of the spec; an array of registers is one kind. -/
inductive RegKind where
  | mqStatus | mqGeneration | mqControl | mqLastChange | mqVoteCorrections | glbChipId
  | glbHostWindowBase | glbAddrErrStatus | glbAddrErrAddr | glbAddrErrCount | glbUnmappedCount | coreStatus
  | coreControl | evSet | evClr | semOverflowCount | coreCtrlIgnored | qSched
  | qState | qStopDetail | qStopPc | qControl | semValue | semSignal
  | mxaStatus | mxaReplays | mxaFaults | mxaMismatchLog | mxaMismatchPc | mxaInstructions
  | mxaBusyCycles | mxaStreamCycles | mxaControl | mxaMacCount | vsuStatus | splTableState
  | splRevision | vsuRepeats | vsuFaults | vsuMismatchLog | vsuMismatchPc | vecInstructions
  | splInstructions | rstRows | vsuBusyCycles | vsuControl | attStatus | kvControl
  | kvSeqTableBase | kvNearHead | kvNearFree | kvFarHead | kvFarFree | kvHeld
  | kvPending | kvNopageCount | kvBorrowCount | kvLastNopage | attSteps | attRepeats
  | attFaults | nbMode | nbStatus | nbErrAddr | nbRows | nbSplits
  | nbCorrected | nbRepeats | nbIgnored | nbDoneSummary | spadOwner | spadHandover
  | spadParityLog | spadParityCount | spadDmaWaitMax | spadIgnored | dmaStatus | dmaSubmit
  | dmaControl | dmaBytes | dmaFailedAddr | slcStatus | slcLayerTemp | slcDeadLanesLo
  | slcDeadLanesMid | slcDeadLanesHi | slcSpareMap | slcRefreshCtl | slcErrLog | slcErrAddr
  | slcCorrected | slcUncorrectable | slcPoisonWrites | slcAtomReject | slcRefreshes | slcForced
  | slcScrubPos | slcScrubLap | slcScrubLaps | slcControl | slcScrubCtl | slcThresh
  | arbStage | arbLive | arbLoad | arbStatus | arbRank | arbCtl
  | arbQuota | arbThrottle | tokReturned | arbTokens | tokMinted | tokConsumed
  | arbReqGrants | arbReqWaits | arbReqMaxWait | arbReqRestarts | netTcCfg | netTcState
  | netTcClamp | netRtCfg | netStarveCount | fpStatus | fpCapacity | fpControl
  | fpPoisonCount | fpFailedCount | fpRetrainCount | gfStatus | gfControl | gfPartner
  | gfRtt | gfQualCtl | gfQualResult | gfFecCorr | gfFecUncorr | gfCrcErr
  | gfReplays | gfRetrains | gfBiscTotal | gfBiscAvail | gfBufUsed | gfRouteRegion
  | gfRouteLocal | gfGlobalCtl | gfIncast | gfDropCount | cadStatus | cadCount
  | cadPhase | cadCtl | cadSet | cadLateSent | cadLateRecv | cadSlipTicks
  | cadMismatchPorts | collCtl | collRuns | collFails | collReforms | collLastFail
  | collEntry | collEntryTick | bxStatus | bxControl | bxModules | bxCapLocal
  | bxCapPartner | bxCrcErr | bxReplays | bxRetrains | bxRestarts | bxDiscarded
  | bxBisc | bxSpare | bxCapRunning | bxMixed | bxRoute | hifLink
  | hifStatus | hifDbIgnored | hifCqWaits | hifLinkDowns | qRingBase | qCqBase
  | qRingCfg | qPtr | qCqHead | qEpoch | qIrq | qDiscards
  | mbAbi | mbFwVersion | mbStatus | mbDoorbell | mbControl | mbIgnored
  | thStatus | thHotspot | thLayer | thClamp | thTargets | thNetBase
  | thDisagreeCount | thModelSubCount | thStage2Count | pwrStatus | pwrMeasured | pwrFloor
  | pwrCap | pwrRamp | pwrStagger | pwrCoolant | pwrSagCount | pwrRtCount
  | pwrStopCount | pwrExcursions | fltStatus | fltNextSeq | fltAck | fltControl
  | fltLost | fltOverwrites | consDropped | consCtl | consBuffered | voteCorr
  | audControl | audStatus | audKvTotal | audExpected | audFound | audFirstFail
  | bruStatus | bruStartMs | bruDieReset | bruWarmCount | bruPartialCount | bruReadyMin
  | jigStatus | jigSaveBase | secStatus | secFwDigest | secIdDigest | secAttestCount
  | secVerifyFails
  deriving DecidableEq, Repr, Inhabited

/-- The access types of R4. -/
inductive Acc where
  | ro | rw | w1c | w1s | wo | rws
  deriving DecidableEq, Repr

/-- One field of a register: its lowest bit, its width, its access type and its reset value. -/
structure Fld where
  kind : RegKind
  lo : Nat
  len : Nat
  acc : Acc
  rst : Nat
  deriving DecidableEq, Repr

/-- BAR0 offset of the first register of a kind (R481). -/
def RegKind.base : RegKind → Nat
  | .mqStatus => 0x40000
  | .mqGeneration => 0x40004
  | .mqControl => 0x40008
  | .mqLastChange => 0x4000C
  | .mqVoteCorrections => 0x40010
  | .glbChipId => 0x0
  | .glbHostWindowBase => 0x8
  | .glbAddrErrStatus => 0x10
  | .glbAddrErrAddr => 0x18
  | .glbAddrErrCount => 0x20
  | .glbUnmappedCount => 0x24
  | .coreStatus => 0x1000000
  | .coreControl => 0x1000008
  | .evSet => 0x1000010
  | .evClr => 0x1000018
  | .semOverflowCount => 0x1000020
  | .coreCtrlIgnored => 0x1000024
  | .qSched => 0x1001000
  | .qState => 0x1001008
  | .qStopDetail => 0x1001010
  | .qStopPc => 0x1001018
  | .qControl => 0x1001020
  | .semValue => 0x1004000
  | .semSignal => 0x1004008
  | .mxaStatus => 0x1008000
  | .mxaReplays => 0x1008008
  | .mxaFaults => 0x100800C
  | .mxaMismatchLog => 0x1008010
  | .mxaMismatchPc => 0x1008018
  | .mxaInstructions => 0x1008020
  | .mxaBusyCycles => 0x1008028
  | .mxaStreamCycles => 0x1008030
  | .mxaControl => 0x1008038
  | .mxaMacCount => 0x1008040
  | .vsuStatus => 0x1010000
  | .splTableState => 0x1010008
  | .splRevision => 0x101000C
  | .vsuRepeats => 0x1010010
  | .vsuFaults => 0x1010014
  | .vsuMismatchLog => 0x1010018
  | .vsuMismatchPc => 0x1010020
  | .vecInstructions => 0x1010028
  | .splInstructions => 0x1010030
  | .rstRows => 0x1010038
  | .vsuBusyCycles => 0x1010040
  | .vsuControl => 0x1010048
  | .attStatus => 0x1018000
  | .kvControl => 0x1018008
  | .kvSeqTableBase => 0x1018010
  | .kvNearHead => 0x1018018
  | .kvNearFree => 0x1018020
  | .kvFarHead => 0x1018028
  | .kvFarFree => 0x1018030
  | .kvHeld => 0x1018038
  | .kvPending => 0x1018040
  | .kvNopageCount => 0x1018044
  | .kvBorrowCount => 0x1018048
  | .kvLastNopage => 0x101804C
  | .attSteps => 0x1018050
  | .attRepeats => 0x1018058
  | .attFaults => 0x101805C
  | .nbMode => 0x1020000
  | .nbStatus => 0x1020008
  | .nbErrAddr => 0x1020010
  | .nbRows => 0x1020018
  | .nbSplits => 0x1020020
  | .nbCorrected => 0x1020024
  | .nbRepeats => 0x1020028
  | .nbIgnored => 0x102002C
  | .nbDoneSummary => 0x1020800
  | .spadOwner => 0x1030000
  | .spadHandover => 0x1030008
  | .spadParityLog => 0x1030010
  | .spadParityCount => 0x1030018
  | .spadDmaWaitMax => 0x103001C
  | .spadIgnored => 0x1030020
  | .dmaStatus => 0x1030100
  | .dmaSubmit => 0x1030108
  | .dmaControl => 0x1030110
  | .dmaBytes => 0x1030118
  | .dmaFailedAddr => 0x1030120
  | .slcStatus => 0x1038000
  | .slcLayerTemp => 0x1038004
  | .slcDeadLanesLo => 0x1038008
  | .slcDeadLanesMid => 0x1038010
  | .slcDeadLanesHi => 0x1038018
  | .slcSpareMap => 0x1038020
  | .slcRefreshCtl => 0x1038028
  | .slcErrLog => 0x1038038
  | .slcErrAddr => 0x1038040
  | .slcCorrected => 0x1038048
  | .slcUncorrectable => 0x103804C
  | .slcPoisonWrites => 0x1038050
  | .slcAtomReject => 0x1038054
  | .slcRefreshes => 0x1038058
  | .slcForced => 0x103805C
  | .slcScrubPos => 0x1038060
  | .slcScrubLap => 0x1038064
  | .slcScrubLaps => 0x1038068
  | .slcControl => 0x103A000
  | .slcScrubCtl => 0x103A008
  | .slcThresh => 0x103A010
  | .arbStage => 0x103C000
  | .arbLive => 0x103C020
  | .arbLoad => 0x103C040
  | .arbStatus => 0x103C048
  | .arbRank => 0x103C050
  | .arbCtl => 0x103C058
  | .arbQuota => 0x103C060
  | .arbThrottle => 0x103C068
  | .tokReturned => 0x103C06C
  | .arbTokens => 0x103C070
  | .tokMinted => 0x103C078
  | .tokConsumed => 0x103C07C
  | .arbReqGrants => 0x103C080
  | .arbReqWaits => 0x103C084
  | .arbReqMaxWait => 0x103C088
  | .arbReqRestarts => 0x103C08C
  | .netTcCfg => 0xE0000
  | .netTcState => 0xE0004
  | .netTcClamp => 0xE0008
  | .netRtCfg => 0xE0100
  | .netStarveCount => 0xE0108
  | .fpStatus => 0xD0000
  | .fpCapacity => 0xD0008
  | .fpControl => 0xD0010
  | .fpPoisonCount => 0xD0018
  | .fpFailedCount => 0xD001C
  | .fpRetrainCount => 0xD0020
  | .gfStatus => 0xC0000
  | .gfControl => 0xC0008
  | .gfPartner => 0xC0010
  | .gfRtt => 0xC0018
  | .gfQualCtl => 0xC0020
  | .gfQualResult => 0xC0024
  | .gfFecCorr => 0xC0028
  | .gfFecUncorr => 0xC0030
  | .gfCrcErr => 0xC0038
  | .gfReplays => 0xC0040
  | .gfRetrains => 0xC0048
  | .gfBiscTotal => 0xC0100
  | .gfBiscAvail => 0xC0140
  | .gfBufUsed => 0xC0180
  | .gfRouteRegion => 0xC8000
  | .gfRouteLocal => 0xC9000
  | .gfGlobalCtl => 0xCA000
  | .gfIncast => 0xCA008
  | .gfDropCount => 0xCA010
  | .cadStatus => 0x60000
  | .cadCount => 0x60008
  | .cadPhase => 0x60010
  | .cadCtl => 0x60018
  | .cadSet => 0x60020
  | .cadLateSent => 0x60028
  | .cadLateRecv => 0x6002C
  | .cadSlipTicks => 0x60030
  | .cadMismatchPorts => 0x60034
  | .collCtl => 0x70000
  | .collRuns => 0x70008
  | .collFails => 0x7000C
  | .collReforms => 0x70010
  | .collLastFail => 0x70018
  | .collEntry => 0x70100
  | .collEntryTick => 0x70108
  | .bxStatus => 0x80000
  | .bxControl => 0x80008
  | .bxModules => 0x80010
  | .bxCapLocal => 0x80020
  | .bxCapPartner => 0x80030
  | .bxCrcErr => 0x80040
  | .bxReplays => 0x80044
  | .bxRetrains => 0x80048
  | .bxRestarts => 0x8004C
  | .bxDiscarded => 0x80050
  | .bxBisc => 0x80080
  | .bxSpare => 0x80100
  | .bxCapRunning => 0x88000
  | .bxMixed => 0x88010
  | .bxRoute => 0x88018
  | .hifLink => 0xB0000
  | .hifStatus => 0xB0008
  | .hifDbIgnored => 0xB0010
  | .hifCqWaits => 0xB0014
  | .hifLinkDowns => 0xB0018
  | .qRingBase => 0x1006000
  | .qCqBase => 0x1006008
  | .qRingCfg => 0x1006010
  | .qPtr => 0x1006018
  | .qCqHead => 0x1006020
  | .qEpoch => 0x1006028
  | .qIrq => 0x1006030
  | .qDiscards => 0x1006038
  | .mbAbi => 0x100000
  | .mbFwVersion => 0x100004
  | .mbStatus => 0x100008
  | .mbDoorbell => 0x100010
  | .mbControl => 0x100018
  | .mbIgnored => 0x100020
  | .thStatus => 0x90000
  | .thHotspot => 0x90100
  | .thLayer => 0x90200
  | .thClamp => 0x90300
  | .thTargets => 0x90400
  | .thNetBase => 0x90408
  | .thDisagreeCount => 0x90410
  | .thModelSubCount => 0x90414
  | .thStage2Count => 0x90418
  | .pwrStatus => 0x98000
  | .pwrMeasured => 0x98008
  | .pwrFloor => 0x98010
  | .pwrCap => 0x98014
  | .pwrRamp => 0x98018
  | .pwrStagger => 0x98020
  | .pwrCoolant => 0x98028
  | .pwrSagCount => 0x98030
  | .pwrRtCount => 0x98034
  | .pwrStopCount => 0x98038
  | .pwrExcursions => 0x9803C
  | .fltStatus => 0xF0000
  | .fltNextSeq => 0xF0008
  | .fltAck => 0xF000C
  | .fltControl => 0xF0010
  | .fltLost => 0xF0018
  | .fltOverwrites => 0xF001C
  | .consDropped => 0xF0020
  | .consCtl => 0xF0028
  | .consBuffered => 0xF0030
  | .voteCorr => 0xF0040
  | .audControl => 0xF0800
  | .audStatus => 0xF0808
  | .audKvTotal => 0xF0810
  | .audExpected => 0xF0900
  | .audFound => 0xF0908
  | .audFirstFail => 0xF09A0
  | .bruStatus => 0xE8000
  | .bruStartMs => 0xE8008
  | .bruDieReset => 0xE8010
  | .bruWarmCount => 0xE8018
  | .bruPartialCount => 0xE801C
  | .bruReadyMin => 0xE8020
  | .jigStatus => 0xE8028
  | .jigSaveBase => 0xE8100
  | .secStatus => 0xD8000
  | .secFwDigest => 0xD8010
  | .secIdDigest => 0xD8050
  | .secAttestCount => 0xD8070
  | .secVerifyFails => 0xD8074

/-- Strides and counts of a kind's indices, outermost first (R481 and the blocks' own chapters). -/
def RegKind.dims : RegKind → List (Nat × Nat)
  | .mqStatus => []
  | .mqGeneration => []
  | .mqControl => []
  | .mqLastChange => []
  | .mqVoteCorrections => []
  | .glbChipId => []
  | .glbHostWindowBase => []
  | .glbAddrErrStatus => []
  | .glbAddrErrAddr => []
  | .glbAddrErrCount => []
  | .glbUnmappedCount => []
  | .coreStatus => [(0x40000, 64)]
  | .coreControl => [(0x40000, 64)]
  | .evSet => [(0x40000, 64)]
  | .evClr => [(0x40000, 64)]
  | .semOverflowCount => [(0x40000, 64)]
  | .coreCtrlIgnored => [(0x40000, 64)]
  | .qSched => [(0x40000, 64), (0x40, 64)]
  | .qState => [(0x40000, 64), (0x40, 64)]
  | .qStopDetail => [(0x40000, 64), (0x40, 64)]
  | .qStopPc => [(0x40000, 64), (0x40, 64)]
  | .qControl => [(0x40000, 64), (0x40, 64)]
  | .semValue => [(0x40000, 64), (0x10, 256)]
  | .semSignal => [(0x40000, 64), (0x10, 256)]
  | .mxaStatus => [(0x40000, 64)]
  | .mxaReplays => [(0x40000, 64)]
  | .mxaFaults => [(0x40000, 64)]
  | .mxaMismatchLog => [(0x40000, 64)]
  | .mxaMismatchPc => [(0x40000, 64)]
  | .mxaInstructions => [(0x40000, 64)]
  | .mxaBusyCycles => [(0x40000, 64)]
  | .mxaStreamCycles => [(0x40000, 64)]
  | .mxaControl => [(0x40000, 64)]
  | .mxaMacCount => [(0x40000, 64)]
  | .vsuStatus => [(0x40000, 64)]
  | .splTableState => [(0x40000, 64)]
  | .splRevision => [(0x40000, 64)]
  | .vsuRepeats => [(0x40000, 64)]
  | .vsuFaults => [(0x40000, 64)]
  | .vsuMismatchLog => [(0x40000, 64)]
  | .vsuMismatchPc => [(0x40000, 64)]
  | .vecInstructions => [(0x40000, 64)]
  | .splInstructions => [(0x40000, 64)]
  | .rstRows => [(0x40000, 64)]
  | .vsuBusyCycles => [(0x40000, 64)]
  | .vsuControl => [(0x40000, 64)]
  | .attStatus => [(0x40000, 64)]
  | .kvControl => [(0x40000, 64)]
  | .kvSeqTableBase => [(0x40000, 64)]
  | .kvNearHead => [(0x40000, 64)]
  | .kvNearFree => [(0x40000, 64)]
  | .kvFarHead => [(0x40000, 64)]
  | .kvFarFree => [(0x40000, 64)]
  | .kvHeld => [(0x40000, 64)]
  | .kvPending => [(0x40000, 64)]
  | .kvNopageCount => [(0x40000, 64)]
  | .kvBorrowCount => [(0x40000, 64)]
  | .kvLastNopage => [(0x40000, 64)]
  | .attSteps => [(0x40000, 64)]
  | .attRepeats => [(0x40000, 64)]
  | .attFaults => [(0x40000, 64)]
  | .nbMode => [(0x40000, 64), (0x40, 32)]
  | .nbStatus => [(0x40000, 64), (0x40, 32)]
  | .nbErrAddr => [(0x40000, 64), (0x40, 32)]
  | .nbRows => [(0x40000, 64), (0x40, 32)]
  | .nbSplits => [(0x40000, 64), (0x40, 32)]
  | .nbCorrected => [(0x40000, 64), (0x40, 32)]
  | .nbRepeats => [(0x40000, 64), (0x40, 32)]
  | .nbIgnored => [(0x40000, 64), (0x40, 32)]
  | .nbDoneSummary => [(0x40000, 64)]
  | .spadOwner => [(0x40000, 64)]
  | .spadHandover => [(0x40000, 64)]
  | .spadParityLog => [(0x40000, 64)]
  | .spadParityCount => [(0x40000, 64)]
  | .spadDmaWaitMax => [(0x40000, 64)]
  | .spadIgnored => [(0x40000, 64)]
  | .dmaStatus => [(0x40000, 64), (0x40, 4)]
  | .dmaSubmit => [(0x40000, 64), (0x40, 4)]
  | .dmaControl => [(0x40000, 64), (0x40, 4)]
  | .dmaBytes => [(0x40000, 64), (0x40, 4)]
  | .dmaFailedAddr => [(0x40000, 64), (0x40, 4)]
  | .slcStatus => [(0x40000, 64), (0x100, 32)]
  | .slcLayerTemp => [(0x40000, 64), (0x100, 32)]
  | .slcDeadLanesLo => [(0x40000, 64), (0x100, 32)]
  | .slcDeadLanesMid => [(0x40000, 64), (0x100, 32)]
  | .slcDeadLanesHi => [(0x40000, 64), (0x100, 32)]
  | .slcSpareMap => [(0x40000, 64), (0x100, 32)]
  | .slcRefreshCtl => [(0x40000, 64), (0x100, 32)]
  | .slcErrLog => [(0x40000, 64), (0x100, 32)]
  | .slcErrAddr => [(0x40000, 64), (0x100, 32)]
  | .slcCorrected => [(0x40000, 64), (0x100, 32)]
  | .slcUncorrectable => [(0x40000, 64), (0x100, 32)]
  | .slcPoisonWrites => [(0x40000, 64), (0x100, 32)]
  | .slcAtomReject => [(0x40000, 64), (0x100, 32)]
  | .slcRefreshes => [(0x40000, 64), (0x100, 32)]
  | .slcForced => [(0x40000, 64), (0x100, 32)]
  | .slcScrubPos => [(0x40000, 64), (0x100, 32)]
  | .slcScrubLap => [(0x40000, 64), (0x100, 32)]
  | .slcScrubLaps => [(0x40000, 64), (0x100, 32)]
  | .slcControl => [(0x40000, 64)]
  | .slcScrubCtl => [(0x40000, 64)]
  | .slcThresh => [(0x40000, 64)]
  | .arbStage => [(0x40000, 64), (0x100, 32), (0x8, 4)]
  | .arbLive => [(0x40000, 64), (0x100, 32), (0x8, 4)]
  | .arbLoad => [(0x40000, 64), (0x100, 32)]
  | .arbStatus => [(0x40000, 64), (0x100, 32)]
  | .arbRank => [(0x40000, 64), (0x100, 32)]
  | .arbCtl => [(0x40000, 64), (0x100, 32)]
  | .arbQuota => [(0x40000, 64), (0x100, 32)]
  | .arbThrottle => [(0x40000, 64), (0x100, 32)]
  | .tokReturned => [(0x40000, 64), (0x100, 32)]
  | .arbTokens => [(0x40000, 64), (0x100, 32)]
  | .tokMinted => [(0x40000, 64), (0x100, 32)]
  | .tokConsumed => [(0x40000, 64), (0x100, 32)]
  | .arbReqGrants => [(0x40000, 64), (0x100, 32), (0x10, 8)]
  | .arbReqWaits => [(0x40000, 64), (0x100, 32), (0x10, 8)]
  | .arbReqMaxWait => [(0x40000, 64), (0x100, 32), (0x10, 8)]
  | .arbReqRestarts => [(0x40000, 64), (0x100, 32), (0x10, 8)]
  | .netTcCfg => [(0x400, 4), (0x10, 8)]
  | .netTcState => [(0x400, 4), (0x10, 8)]
  | .netTcClamp => [(0x400, 4), (0x10, 8)]
  | .netRtCfg => [(0x400, 4)]
  | .netStarveCount => [(0x400, 4)]
  | .fpStatus => [(0x400, 2)]
  | .fpCapacity => [(0x400, 2)]
  | .fpControl => [(0x400, 2)]
  | .fpPoisonCount => [(0x400, 2)]
  | .fpFailedCount => [(0x400, 2)]
  | .fpRetrainCount => [(0x400, 2)]
  | .gfStatus => [(0x1000, 8)]
  | .gfControl => [(0x1000, 8)]
  | .gfPartner => [(0x1000, 8)]
  | .gfRtt => [(0x1000, 8)]
  | .gfQualCtl => [(0x1000, 8)]
  | .gfQualResult => [(0x1000, 8)]
  | .gfFecCorr => [(0x1000, 8)]
  | .gfFecUncorr => [(0x1000, 8)]
  | .gfCrcErr => [(0x1000, 8)]
  | .gfReplays => [(0x1000, 8)]
  | .gfRetrains => [(0x1000, 8)]
  | .gfBiscTotal => [(0x1000, 8), (0x8, 4)]
  | .gfBiscAvail => [(0x1000, 8), (0x8, 4)]
  | .gfBufUsed => [(0x1000, 8), (0x8, 4)]
  | .gfRouteRegion => [(0x4, 1024)]
  | .gfRouteLocal => [(0x4, 1024)]
  | .gfGlobalCtl => []
  | .gfIncast => []
  | .gfDropCount => []
  | .cadStatus => []
  | .cadCount => []
  | .cadPhase => []
  | .cadCtl => []
  | .cadSet => []
  | .cadLateSent => []
  | .cadLateRecv => []
  | .cadSlipTicks => []
  | .cadMismatchPorts => []
  | .collCtl => [(0x1000, 4)]
  | .collRuns => [(0x1000, 4)]
  | .collFails => [(0x1000, 4)]
  | .collReforms => [(0x1000, 4)]
  | .collLastFail => [(0x1000, 4)]
  | .collEntry => [(0x1000, 4), (0x10, 64)]
  | .collEntryTick => [(0x1000, 4), (0x10, 64)]
  | .bxStatus => [(0x1000, 4), (0x800, 2)]
  | .bxControl => [(0x1000, 4), (0x800, 2)]
  | .bxModules => [(0x1000, 4), (0x800, 2)]
  | .bxCapLocal => [(0x1000, 4), (0x800, 2), (0x8, 2)]
  | .bxCapPartner => [(0x1000, 4), (0x800, 2), (0x8, 2)]
  | .bxCrcErr => [(0x1000, 4), (0x800, 2)]
  | .bxReplays => [(0x1000, 4), (0x800, 2)]
  | .bxRetrains => [(0x1000, 4), (0x800, 2)]
  | .bxRestarts => [(0x1000, 4), (0x800, 2)]
  | .bxDiscarded => [(0x1000, 4), (0x800, 2)]
  | .bxBisc => [(0x1000, 4), (0x800, 2), (0x8, 4)]
  | .bxSpare => [(0x1000, 4), (0x800, 2), (0x4, 16)]
  | .bxCapRunning => [(0x8, 2)]
  | .bxMixed => []
  | .bxRoute => []
  | .hifLink => []
  | .hifStatus => []
  | .hifDbIgnored => []
  | .hifCqWaits => []
  | .hifLinkDowns => []
  | .qRingBase => [(0x40000, 64), (0x40, 64)]
  | .qCqBase => [(0x40000, 64), (0x40, 64)]
  | .qRingCfg => [(0x40000, 64), (0x40, 64)]
  | .qPtr => [(0x40000, 64), (0x40, 64)]
  | .qCqHead => [(0x40000, 64), (0x40, 64)]
  | .qEpoch => [(0x40000, 64), (0x40, 64)]
  | .qIrq => [(0x40000, 64), (0x40, 64)]
  | .qDiscards => [(0x40000, 64), (0x40, 64)]
  | .mbAbi => []
  | .mbFwVersion => []
  | .mbStatus => []
  | .mbDoorbell => []
  | .mbControl => []
  | .mbIgnored => []
  | .thStatus => [(0x1000, 4)]
  | .thHotspot => [(0x1000, 4), (0x8, 20)]
  | .thLayer => [(0x1000, 4), (0x8, 16)]
  | .thClamp => [(0x1000, 4), (0x4, 16)]
  | .thTargets => [(0x1000, 4)]
  | .thNetBase => [(0x1000, 4)]
  | .thDisagreeCount => [(0x1000, 4)]
  | .thModelSubCount => [(0x1000, 4)]
  | .thStage2Count => [(0x1000, 4)]
  | .pwrStatus => []
  | .pwrMeasured => []
  | .pwrFloor => []
  | .pwrCap => []
  | .pwrRamp => []
  | .pwrStagger => []
  | .pwrCoolant => []
  | .pwrSagCount => []
  | .pwrRtCount => []
  | .pwrStopCount => []
  | .pwrExcursions => []
  | .fltStatus => []
  | .fltNextSeq => []
  | .fltAck => []
  | .fltControl => []
  | .fltLost => []
  | .fltOverwrites => []
  | .consDropped => []
  | .consCtl => []
  | .consBuffered => []
  | .voteCorr => [(0x4, 5)]
  | .audControl => []
  | .audStatus => []
  | .audKvTotal => []
  | .audExpected => [(0x10, 9)]
  | .audFound => [(0x10, 9)]
  | .audFirstFail => []
  | .bruStatus => []
  | .bruStartMs => []
  | .bruDieReset => []
  | .bruWarmCount => []
  | .bruPartialCount => []
  | .bruReadyMin => []
  | .jigStatus => []
  | .jigSaveBase => [(0x8, 64)]
  | .secStatus => []
  | .secFwDigest => [(0x8, 8)]
  | .secIdDigest => [(0x8, 4)]
  | .secAttestCount => []
  | .secVerifyFails => []

/-- Size of a register in bytes. -/
def RegKind.bytes : RegKind → Nat
  | .glbHostWindowBase | .glbAddrErrAddr | .evSet | .evClr | .qStopDetail => 8
  | .qStopPc | .mxaMismatchPc | .mxaInstructions | .mxaBusyCycles | .mxaStreamCycles => 8
  | .mxaMacCount | .vsuMismatchPc | .vecInstructions | .splInstructions | .rstRows => 8
  | .vsuBusyCycles | .kvSeqTableBase | .kvNearHead | .kvFarHead | .kvHeld => 8
  | .attSteps | .nbErrAddr | .nbRows | .spadOwner | .spadHandover => 8
  | .spadParityLog | .dmaSubmit | .dmaBytes | .dmaFailedAddr | .slcDeadLanesLo => 8
  | .slcDeadLanesMid | .slcDeadLanesHi | .slcErrAddr | .arbStage | .arbLive | .arbQuota => 8
  | .arbTokens | .fpCapacity | .gfFecCorr | .gfFecUncorr | .gfCrcErr => 8
  | .gfReplays | .gfRetrains | .gfGlobalCtl | .cadCount | .cadSet => 8
  | .collEntry | .collEntryTick | .bxModules | .bxCapLocal | .bxCapPartner => 8
  | .bxBisc | .bxCapRunning | .qRingBase | .qCqBase | .qPtr => 8
  | .qDiscards | .thHotspot | .thLayer | .pwrMeasured | .pwrStagger => 8
  | .pwrCoolant | .consBuffered | .audKvTotal | .audExpected | .audFound => 8
  | .jigSaveBase | .secFwDigest | .secIdDigest => 8
  | _ => 4

/-! The fields, register by register, as the tables give them. -/
namespace F
def mqStatus_change : Fld := ⟨.mqStatus, 0, 1, .w1c, 0⟩
def mqStatus_building : Fld := ⟨.mqStatus, 1, 1, .ro, 1⟩
def mqGeneration_generation : Fld := ⟨.mqGeneration, 0, 32, .ro, 1⟩
def mqControl_vector : Fld := ⟨.mqControl, 0, 11, .rw, 0⟩
def mqControl_intEn : Fld := ⟨.mqControl, 16, 1, .rw, 0⟩
def mqLastChange_offset : Fld := ⟨.mqLastChange, 0, 16, .ro, 0⟩
def mqLastChange_count : Fld := ⟨.mqLastChange, 16, 8, .ro, 0⟩
def mqVoteCorrections_count : Fld := ⟨.mqVoteCorrections, 0, 32, .rws, 0⟩
def glbChipId_id : Fld := ⟨.glbChipId, 0, 20, .rws, 0xfffff⟩
def glbHostWindowBase_base : Fld := ⟨.glbHostWindowBase, 42, 22, .rw, 0⟩
def glbAddrErrStatus_valid : Fld := ⟨.glbAddrErrStatus, 0, 1, .w1c, 0⟩
def glbAddrErrStatus_overflow : Fld := ⟨.glbAddrErrStatus, 1, 1, .w1c, 0⟩
def glbAddrErrStatus_code : Fld := ⟨.glbAddrErrStatus, 4, 3, .ro, 0⟩
def glbAddrErrStatus_masterId : Fld := ⟨.glbAddrErrStatus, 8, 9, .ro, 0⟩
def glbAddrErrStatus_write : Fld := ⟨.glbAddrErrStatus, 17, 1, .ro, 0⟩
def glbAddrErrAddr_address : Fld := ⟨.glbAddrErrAddr, 0, 64, .ro, 0⟩
def glbAddrErrCount_count : Fld := ⟨.glbAddrErrCount, 0, 32, .rw, 0⟩
def glbUnmappedCount_count : Fld := ⟨.glbUnmappedCount, 0, 32, .rw, 0⟩
def coreStatus_seq : Fld := ⟨.coreStatus, 0, 2, .ro, 0⟩
def coreStatus_slot : Fld := ⟨.coreStatus, 2, 2, .ro, 0⟩
def coreStatus_freeSlots : Fld := ⟨.coreStatus, 4, 3, .ro, 4⟩
def coreStatus_semOvf : Fld := ⟨.coreStatus, 7, 1, .w1c, 0⟩
def coreStatus_fault : Fld := ⟨.coreStatus, 8, 1, .w1c, 0⟩
def coreControl_hold : Fld := ⟨.coreControl, 0, 1, .rw, 0⟩
def evSet_flags : Fld := ⟨.evSet, 0, 64, .w1s, 0⟩
def evClr_flags : Fld := ⟨.evClr, 0, 64, .w1c, 0⟩
def semOverflowCount_count : Fld := ⟨.semOverflowCount, 0, 32, .rw, 0⟩
def coreCtrlIgnored_count : Fld := ⟨.coreCtrlIgnored, 0, 32, .rw, 0⟩
def qSched_enable : Fld := ⟨.qSched, 0, 1, .rw, 0⟩
def qSched_priority : Fld := ⟨.qSched, 1, 2, .rw, 3⟩
def qSched_tc : Fld := ⟨.qSched, 3, 3, .rw, 0⟩
def qSched_splCompat : Fld := ⟨.qSched, 6, 1, .rw, 0⟩
def qState_state : Fld := ⟨.qState, 0, 3, .ro, 0⟩
def qState_slot : Fld := ⟨.qState, 4, 2, .ro, 0⟩
def qState_stopStatus : Fld := ⟨.qState, 8, 8, .ro, 0⟩
def qStopDetail_unitClass : Fld := ⟨.qStopDetail, 0, 8, .ro, 0⟩
def qStopDetail_unitState : Fld := ⟨.qStopDetail, 8, 8, .ro, 0⟩
def qStopDetail_unitIndex : Fld := ⟨.qStopDetail, 16, 16, .ro, 0⟩
def qStopDetail_major : Fld := ⟨.qStopDetail, 32, 8, .ro, 0⟩
def qStopDetail_minor : Fld := ⟨.qStopDetail, 40, 8, .ro, 0⟩
def qStopPc_pc : Fld := ⟨.qStopPc, 0, 64, .ro, 0⟩
def qControl_resume : Fld := ⟨.qControl, 0, 1, .wo, 0⟩
def qControl_cancel : Fld := ⟨.qControl, 1, 1, .wo, 0⟩
def semValue_value : Fld := ⟨.semValue, 0, 32, .rw, 0⟩
def semSignal_n : Fld := ⟨.semSignal, 0, 32, .wo, 0⟩
def mxaStatus_state : Fld := ⟨.mxaStatus, 0, 2, .ro, 0⟩
def mxaStatus_queueDepth : Fld := ⟨.mxaStatus, 2, 5, .ro, 0⟩
def mxaStatus_mismatch : Fld := ⟨.mxaStatus, 7, 1, .w1c, 0⟩
def mxaReplays_count : Fld := ⟨.mxaReplays, 0, 32, .rws, 0⟩
def mxaFaults_count : Fld := ⟨.mxaFaults, 0, 32, .rws, 0⟩
def mxaMismatchLog_row : Fld := ⟨.mxaMismatchLog, 0, 12, .ro, 0⟩
def mxaMismatchLog_group : Fld := ⟨.mxaMismatchLog, 12, 3, .ro, 0⟩
def mxaMismatchLog_kind : Fld := ⟨.mxaMismatchLog, 16, 3, .ro, 0⟩
def mxaMismatchLog_inReplay : Fld := ⟨.mxaMismatchLog, 19, 1, .ro, 0⟩
def mxaMismatchLog_column : Fld := ⟨.mxaMismatchLog, 20, 8, .ro, 0⟩
def mxaMismatchPc_pc : Fld := ⟨.mxaMismatchPc, 0, 64, .ro, 0⟩
def mxaInstructions_count : Fld := ⟨.mxaInstructions, 0, 64, .rw, 0⟩
def mxaBusyCycles_count : Fld := ⟨.mxaBusyCycles, 0, 64, .rw, 0⟩
def mxaStreamCycles_count : Fld := ⟨.mxaStreamCycles, 0, 64, .rw, 0⟩
def mxaControl_inject : Fld := ⟨.mxaControl, 0, 1, .wo, 0⟩
def mxaControl_injectTwice : Fld := ⟨.mxaControl, 1, 1, .wo, 0⟩
def mxaMacCount_count : Fld := ⟨.mxaMacCount, 0, 64, .rw, 0⟩
def vsuStatus_vecState : Fld := ⟨.vsuStatus, 0, 2, .ro, 0⟩
def vsuStatus_rstState : Fld := ⟨.vsuStatus, 2, 2, .ro, 0⟩
def vsuStatus_vecQueueDepth : Fld := ⟨.vsuStatus, 4, 5, .ro, 0⟩
def vsuStatus_rstQueueDepth : Fld := ⟨.vsuStatus, 9, 5, .ro, 0⟩
def vsuStatus_mismatch : Fld := ⟨.vsuStatus, 14, 1, .w1c, 0⟩
def splTableState_bankState : Fld := ⟨.splTableState, 0, 24, .ro, 0x451451⟩
def splRevision_native : Fld := ⟨.splRevision, 0, 8, .ro, 0⟩
def splRevision_running : Fld := ⟨.splRevision, 8, 8, .ro, 0⟩
def splRevision_compat : Fld := ⟨.splRevision, 16, 8, .ro, 1⟩
def vsuRepeats_count : Fld := ⟨.vsuRepeats, 0, 32, .rws, 0⟩
def vsuFaults_count : Fld := ⟨.vsuFaults, 0, 32, .rws, 0⟩
def vsuMismatchLog_unit : Fld := ⟨.vsuMismatchLog, 0, 2, .ro, 0⟩
def vsuMismatchLog_kind : Fld := ⟨.vsuMismatchLog, 2, 2, .ro, 0⟩
def vsuMismatchLog_inRepeat : Fld := ⟨.vsuMismatchLog, 4, 1, .ro, 0⟩
def vsuMismatchLog_bank : Fld := ⟨.vsuMismatchLog, 5, 3, .ro, 0⟩
def vsuMismatchPc_pc : Fld := ⟨.vsuMismatchPc, 0, 64, .ro, 0⟩
def vecInstructions_count : Fld := ⟨.vecInstructions, 0, 64, .rw, 0⟩
def splInstructions_count : Fld := ⟨.splInstructions, 0, 64, .rw, 0⟩
def rstRows_count : Fld := ⟨.rstRows, 0, 64, .rw, 0⟩
def vsuBusyCycles_count : Fld := ⟨.vsuBusyCycles, 0, 64, .rw, 0⟩
def vsuControl_inject : Fld := ⟨.vsuControl, 0, 1, .wo, 0⟩
def vsuControl_injectTwice : Fld := ⟨.vsuControl, 1, 1, .wo, 0⟩
def attStatus_state : Fld := ⟨.attStatus, 0, 2, .ro, 0⟩
def attStatus_queueDepth : Fld := ⟨.attStatus, 2, 5, .ro, 0⟩
def attStatus_kvQueueDepth : Fld := ⟨.attStatus, 7, 5, .ro, 0⟩
def attStatus_mismatch : Fld := ⟨.attStatus, 12, 1, .w1c, 0⟩
def attStatus_nopage : Fld := ⟨.attStatus, 13, 1, .w1c, 0⟩
def attStatus_listErr : Fld := ⟨.attStatus, 14, 1, .w1c, 0⟩
def kvControl_enable : Fld := ⟨.kvControl, 0, 1, .rw, 0⟩
def kvControl_spillEn : Fld := ⟨.kvControl, 1, 1, .rw, 0⟩
def kvControl_frameCode : Fld := ⟨.kvControl, 2, 4, .rw, 4⟩
def kvSeqTableBase_address : Fld := ⟨.kvSeqTableBase, 0, 64, .rw, 0⟩
def kvNearHead_address : Fld := ⟨.kvNearHead, 0, 64, .rw, 0⟩
def kvNearFree_count : Fld := ⟨.kvNearFree, 0, 32, .rw, 0⟩
def kvFarHead_address : Fld := ⟨.kvFarHead, 0, 64, .rw, 0⟩
def kvFarFree_count : Fld := ⟨.kvFarFree, 0, 32, .rw, 0⟩
def kvHeld_near : Fld := ⟨.kvHeld, 0, 32, .ro, 0⟩
def kvHeld_far : Fld := ⟨.kvHeld, 32, 32, .ro, 0⟩
def kvPending_count : Fld := ⟨.kvPending, 0, 32, .ro, 0⟩
def kvNopageCount_count : Fld := ⟨.kvNopageCount, 0, 32, .rw, 0⟩
def kvBorrowCount_count : Fld := ⟨.kvBorrowCount, 0, 32, .rw, 0⟩
def kvLastNopage_seq : Fld := ⟨.kvLastNopage, 0, 16, .ro, 0⟩
def attSteps_count : Fld := ⟨.attSteps, 0, 64, .rw, 0⟩
def attRepeats_count : Fld := ⟨.attRepeats, 0, 32, .rws, 0⟩
def attFaults_count : Fld := ⟨.attFaults, 0, 32, .rws, 0⟩
def nbMode_state : Fld := ⟨.nbMode, 0, 2, .ro, 0⟩
def nbMode_target : Fld := ⟨.nbMode, 2, 2, .ro, 0⟩
def nbMode_req : Fld := ⟨.nbMode, 4, 2, .wo, 0⟩
def nbStatus_running : Fld := ⟨.nbStatus, 0, 1, .ro, 0⟩
def nbStatus_done : Fld := ⟨.nbStatus, 1, 1, .w1c, 0⟩
def nbStatus_nextPending : Fld := ⟨.nbStatus, 2, 1, .ro, 0⟩
def nbStatus_code : Fld := ⟨.nbStatus, 4, 4, .ro, 0⟩
def nbStatus_step : Fld := ⟨.nbStatus, 8, 6, .ro, 0⟩
def nbErrAddr_address : Fld := ⟨.nbErrAddr, 0, 64, .ro, 0⟩
def nbRows_count : Fld := ⟨.nbRows, 0, 64, .rw, 0⟩
def nbSplits_count : Fld := ⟨.nbSplits, 0, 32, .rw, 0⟩
def nbCorrected_count : Fld := ⟨.nbCorrected, 0, 32, .rws, 0⟩
def nbRepeats_count : Fld := ⟨.nbRepeats, 0, 32, .rws, 0⟩
def nbIgnored_count : Fld := ⟨.nbIgnored, 0, 32, .rw, 0⟩
def nbDoneSummary_done : Fld := ⟨.nbDoneSummary, 0, 32, .w1c, 0⟩
def spadOwner_dma : Fld := ⟨.spadOwner, 0, 32, .ro, 0⟩
def spadOwner_handover : Fld := ⟨.spadOwner, 32, 32, .ro, 0⟩
def spadHandover_mask : Fld := ⟨.spadHandover, 0, 32, .wo, 0⟩
def spadHandover_target : Fld := ⟨.spadHandover, 32, 1, .wo, 0⟩
def spadParityLog_valid : Fld := ⟨.spadParityLog, 0, 1, .w1c, 0⟩
def spadParityLog_persistent : Fld := ⟨.spadParityLog, 1, 1, .ro, 0⟩
def spadParityLog_dmaSide : Fld := ⟨.spadParityLog, 2, 1, .ro, 0⟩
def spadParityLog_bank : Fld := ⟨.spadParityLog, 3, 5, .ro, 0⟩
def spadParityLog_offset : Fld := ⟨.spadParityLog, 8, 19, .ro, 0⟩
def spadParityLog_masterId : Fld := ⟨.spadParityLog, 27, 9, .ro, 0⟩
def spadParityCount_count : Fld := ⟨.spadParityCount, 0, 32, .rws, 0⟩
def spadDmaWaitMax_count : Fld := ⟨.spadDmaWaitMax, 0, 32, .rw, 0⟩
def spadIgnored_count : Fld := ⟨.spadIgnored, 0, 32, .rw, 0⟩
def dmaStatus_state : Fld := ⟨.dmaStatus, 0, 2, .ro, 0⟩
def dmaStatus_queueDepth : Fld := ⟨.dmaStatus, 2, 5, .ro, 0⟩
def dmaStatus_err : Fld := ⟨.dmaStatus, 7, 1, .w1c, 0⟩
def dmaStatus_lastCode : Fld := ⟨.dmaStatus, 8, 8, .ro, 0⟩
def dmaSubmit_tc : Fld := ⟨.dmaSubmit, 0, 3, .wo, 0⟩
def dmaSubmit_address : Fld := ⟨.dmaSubmit, 6, 58, .wo, 0⟩
def dmaControl_restart : Fld := ⟨.dmaControl, 0, 1, .wo, 0⟩
def dmaControl_flush : Fld := ⟨.dmaControl, 1, 1, .wo, 0⟩
def dmaBytes_value : Fld := ⟨.dmaBytes, 0, 64, .rw, 0⟩
def dmaFailedAddr_value : Fld := ⟨.dmaFailedAddr, 0, 64, .ro, 0⟩
def slcStatus_rate : Fld := ⟨.slcStatus, 0, 2, .ro, 0⟩
def slcStatus_owed : Fld := ⟨.slcStatus, 2, 3, .ro, 0⟩
def slcStatus_forced : Fld := ⟨.slcStatus, 5, 1, .ro, 0⟩
def slcStatus_erasures : Fld := ⟨.slcStatus, 8, 8, .ro, 0⟩
def slcStatus_err : Fld := ⟨.slcStatus, 16, 1, .w1c, 0⟩
def slcStatus_limit : Fld := ⟨.slcStatus, 17, 1, .w1c, 0⟩
def slcLayerTemp_temp : Fld := ⟨.slcLayerTemp, 0, 11, .ro, 0⟩
def slcDeadLanesLo_lanes : Fld := ⟨.slcDeadLanesLo, 0, 64, .w1s, 0⟩
def slcDeadLanesMid_lanes : Fld := ⟨.slcDeadLanesMid, 0, 64, .w1s, 0⟩
def slcDeadLanesHi_lanes : Fld := ⟨.slcDeadLanesHi, 0, 64, .w1s, 0⟩
def slcSpareMap_for0 : Fld := ⟨.slcSpareMap, 0, 6, .rw, 0⟩
def slcSpareMap_en0 : Fld := ⟨.slcSpareMap, 6, 1, .rw, 0⟩
def slcSpareMap_for1 : Fld := ⟨.slcSpareMap, 8, 6, .rw, 0⟩
def slcSpareMap_en1 : Fld := ⟨.slcSpareMap, 14, 1, .rw, 0⟩
def slcRefreshCtl_rateFloor : Fld := ⟨.slcRefreshCtl, 0, 2, .rw, 0⟩
def slcErrLog_valid : Fld := ⟨.slcErrLog, 0, 1, .w1c, 0⟩
def slcErrLog_overflow : Fld := ⟨.slcErrLog, 1, 1, .w1c, 0⟩
def slcErrLog_kind : Fld := ⟨.slcErrLog, 2, 2, .ro, 0⟩
def slcErrLog_symbols : Fld := ⟨.slcErrLog, 4, 4, .ro, 0⟩
def slcErrLog_lane : Fld := ⟨.slcErrLog, 8, 8, .ro, 0⟩
def slcErrLog_masterId : Fld := ⟨.slcErrLog, 16, 9, .ro, 0⟩
def slcErrLog_scrub : Fld := ⟨.slcErrLog, 25, 1, .ro, 0⟩
def slcErrAddr_offset : Fld := ⟨.slcErrAddr, 0, 27, .ro, 0⟩
def slcCorrected_count : Fld := ⟨.slcCorrected, 0, 32, .rws, 0⟩
def slcUncorrectable_count : Fld := ⟨.slcUncorrectable, 0, 32, .rws, 0⟩
def slcPoisonWrites_count : Fld := ⟨.slcPoisonWrites, 0, 32, .rws, 0⟩
def slcAtomReject_count : Fld := ⟨.slcAtomReject, 0, 32, .rw, 0⟩
def slcRefreshes_count : Fld := ⟨.slcRefreshes, 0, 32, .rw, 0⟩
def slcForced_count : Fld := ⟨.slcForced, 0, 32, .rw, 0⟩
def slcScrubPos_codeword : Fld := ⟨.slcScrubPos, 0, 19, .ro, 0⟩
def slcScrubLap_lapUs : Fld := ⟨.slcScrubLap, 0, 32, .ro, 0⟩
def slcScrubLaps_count : Fld := ⟨.slcScrubLaps, 0, 32, .rw, 0⟩
def slcControl_align : Fld := ⟨.slcControl, 0, 1, .rw, 0⟩
def slcControl_window : Fld := ⟨.slcControl, 8, 8, .rw, 0x19⟩
def slcScrubCtl_en : Fld := ⟨.slcScrubCtl, 0, 1, .rw, 1⟩
def slcScrubCtl_gap : Fld := ⟨.slcScrubCtl, 8, 16, .rw, 0x3e8⟩
def slcThresh_laneLimit : Fld := ⟨.slcThresh, 0, 8, .rw, 0x10⟩
def slcThresh_uncorrLimit : Fld := ⟨.slcThresh, 8, 8, .rw, 4⟩
def slcThresh_windowMs : Fld := ⟨.slcThresh, 16, 16, .rw, 0x3e8⟩
def arbStage_entries : Fld := ⟨.arbStage, 0, 64, .rw, 0xffffffffffffffff⟩
def arbLive_entries : Fld := ⟨.arbLive, 0, 64, .ro, 0xffffffffffffffff⟩
def arbLoad_load : Fld := ⟨.arbLoad, 0, 1, .wo, 0⟩
def arbStatus_loadResult : Fld := ⟨.arbStatus, 0, 2, .ro, 0⟩
def arbStatus_loadPending : Fld := ⟨.arbStatus, 2, 1, .ro, 0⟩
def arbStatus_reservedSlots : Fld := ⟨.arbStatus, 3, 6, .ro, 0⟩
def arbStatus_blocked : Fld := ⟨.arbStatus, 9, 6, .ro, 0⟩
def arbStatus_withdrawn : Fld := ⟨.arbStatus, 15, 6, .ro, 0⟩
def arbStatus_breach : Fld := ⟨.arbStatus, 21, 1, .w1c, 0⟩
def arbStatus_breachActive : Fld := ⟨.arbStatus, 22, 1, .ro, 0⟩
def arbStatus_pending : Fld := ⟨.arbStatus, 23, 5, .ro, 0⟩
def arbRank_order : Fld := ⟨.arbRank, 0, 15, .rw, 0x32a0⟩
def arbCtl_restartLimit : Fld := ⟨.arbCtl, 0, 4, .rw, 4⟩
def arbCtl_pendCap : Fld := ⟨.arbCtl, 4, 5, .rw, 8⟩
def arbCtl_softMask : Fld := ⟨.arbCtl, 9, 1, .rw, 1⟩
def arbCtl_window : Fld := ⟨.arbCtl, 16, 16, .rw, 0x10⟩
def arbQuota_quota : Fld := ⟨.arbQuota, 0, 40, .rw, 0⟩
def arbThrottle_b : Fld := ⟨.arbThrottle, 0, 6, .ro, 0⟩
def tokReturned_count : Fld := ⟨.tokReturned, 0, 32, .ro, 0⟩
def arbTokens_current : Fld := ⟨.arbTokens, 0, 40, .ro, 0⟩
def tokMinted_count : Fld := ⟨.tokMinted, 0, 32, .ro, 0⟩
def tokConsumed_count : Fld := ⟨.tokConsumed, 0, 32, .ro, 0⟩
def arbReqGrants_count : Fld := ⟨.arbReqGrants, 0, 32, .rw, 0⟩
def arbReqWaits_count : Fld := ⟨.arbReqWaits, 0, 32, .rw, 0⟩
def arbReqMaxWait_count : Fld := ⟨.arbReqMaxWait, 0, 32, .rw, 0⟩
def arbReqRestarts_count : Fld := ⟨.arbReqRestarts, 0, 32, .rw, 0⟩
def netTcCfg_base : Fld := ⟨.netTcCfg, 0, 2, .rw, 2⟩
def netTcCfg_budget : Fld := ⟨.netTcCfg, 2, 12, .rw, 0⟩
def netTcCfg_hyst : Fld := ⟨.netTcCfg, 14, 8, .rw, 8⟩
def netTcState_outstanding : Fld := ⟨.netTcState, 0, 13, .ro, 0⟩
def netTcState_over : Fld := ⟨.netTcState, 13, 1, .ro, 0⟩
def netTcState_effective : Fld := ⟨.netTcState, 14, 2, .ro, 2⟩
def netTcState_urgency : Fld := ⟨.netTcState, 16, 2, .ro, 0⟩
def netTcState_wasOver : Fld := ⟨.netTcState, 18, 1, .w1c, 0⟩
def netTcClamp_budget : Fld := ⟨.netTcClamp, 0, 12, .ro, 0⟩
def netRtCfg_low : Fld := ⟨.netRtCfg, 0, 8, .rw, 0x10⟩
def netRtCfg_mid : Fld := ⟨.netRtCfg, 8, 8, .rw, 0x40⟩
def netRtCfg_high : Fld := ⟨.netRtCfg, 16, 8, .rw, 0x80⟩
def netRtCfg_previewTc : Fld := ⟨.netRtCfg, 24, 3, .rw, 7⟩
def netStarveCount_count : Fld := ⟨.netStarveCount, 0, 32, .rw, 0⟩
def fpStatus_phase : Fld := ⟨.fpStatus, 0, 3, .ro, 0⟩
def fpStatus_width : Fld := ⟨.fpStatus, 3, 4, .ro, 0⟩
def fpStatus_rate : Fld := ⟨.fpStatus, 7, 2, .ro, 0⟩
def fpStatus_linkDown : Fld := ⟨.fpStatus, 9, 1, .w1c, 0⟩
def fpStatus_timeout : Fld := ⟨.fpStatus, 10, 1, .w1c, 0⟩
def fpCapacity_bytes : Fld := ⟨.fpCapacity, 0, 43, .ro, 0⟩
def fpControl_perst : Fld := ⟨.fpControl, 0, 1, .wo, 0⟩
def fpControl_retrain : Fld := ⟨.fpControl, 1, 1, .wo, 0⟩
def fpControl_timeout : Fld := ⟨.fpControl, 16, 16, .rw, 0x64⟩
def fpPoisonCount_count : Fld := ⟨.fpPoisonCount, 0, 32, .rws, 0⟩
def fpFailedCount_count : Fld := ⟨.fpFailedCount, 0, 32, .rw, 0⟩
def fpRetrainCount_count : Fld := ⟨.fpRetrainCount, 0, 32, .rws, 0⟩
def gfStatus_state : Fld := ⟨.gfStatus, 0, 3, .ro, 0⟩
def gfStatus_width : Fld := ⟨.gfStatus, 3, 4, .ro, 0⟩
def gfStatus_halfHigh : Fld := ⟨.gfStatus, 7, 1, .ro, 0⟩
def gfStatus_version : Fld := ⟨.gfStatus, 8, 2, .ro, 0⟩
def gfStatus_los : Fld := ⟨.gfStatus, 10, 1, .w1c, 0⟩
def gfStatus_retrained : Fld := ⟨.gfStatus, 11, 1, .w1c, 0⟩
def gfStatus_noCommon : Fld := ⟨.gfStatus, 12, 1, .ro, 0⟩
def gfStatus_totalMismatch : Fld := ⟨.gfStatus, 13, 1, .w1c, 0⟩
def gfControl_enable : Fld := ⟨.gfControl, 0, 1, .rw, 0⟩
def gfControl_versionMask : Fld := ⟨.gfControl, 1, 2, .rw, 3⟩
def gfControl_halfOk : Fld := ⟨.gfControl, 3, 1, .rw, 1⟩
def gfControl_retrain : Fld := ⟨.gfControl, 4, 1, .wo, 0⟩
def gfPartner_chipId : Fld := ⟨.gfPartner, 0, 20, .ro, 0⟩
def gfPartner_port : Fld := ⟨.gfPartner, 20, 3, .ro, 0⟩
def gfPartner_device : Fld := ⟨.gfPartner, 24, 8, .ro, 0⟩
def gfRtt_ns : Fld := ⟨.gfRtt, 0, 32, .ro, 0⟩
def gfQualCtl_windowMs : Fld := ⟨.gfQualCtl, 0, 16, .rw, 0x7d0⟩
def gfQualCtl_symLimit : Fld := ⟨.gfQualCtl, 16, 16, .rw, 0x1194⟩
def gfQualResult_laneFail : Fld := ⟨.gfQualResult, 0, 8, .ro, 0⟩
def gfQualResult_uncorr : Fld := ⟨.gfQualResult, 8, 1, .ro, 0⟩
def gfQualResult_crc : Fld := ⟨.gfQualResult, 9, 1, .ro, 0⟩
def gfFecCorr_count : Fld := ⟨.gfFecCorr, 0, 64, .rws, 0⟩
def gfFecUncorr_count : Fld := ⟨.gfFecUncorr, 0, 64, .rws, 0⟩
def gfCrcErr_count : Fld := ⟨.gfCrcErr, 0, 64, .rws, 0⟩
def gfReplays_count : Fld := ⟨.gfReplays, 0, 64, .rw, 0⟩
def gfRetrains_count : Fld := ⟨.gfRetrains, 0, 64, .rws, 0⟩
def gfBiscTotal_class0 : Fld := ⟨.gfBiscTotal, 0, 16, .rw, 0⟩
def gfBiscTotal_class1 : Fld := ⟨.gfBiscTotal, 16, 16, .rw, 0⟩
def gfBiscAvail_class0 : Fld := ⟨.gfBiscAvail, 0, 16, .ro, 0⟩
def gfBiscAvail_class1 : Fld := ⟨.gfBiscAvail, 16, 16, .ro, 0⟩
def gfBufUsed_class0 : Fld := ⟨.gfBufUsed, 0, 16, .ro, 0⟩
def gfBufUsed_class1 : Fld := ⟨.gfBufUsed, 16, 16, .ro, 0⟩
def gfRouteRegion_primary : Fld := ⟨.gfRouteRegion, 0, 3, .rw, 0⟩
def gfRouteRegion_pValid : Fld := ⟨.gfRouteRegion, 3, 1, .rw, 0⟩
def gfRouteRegion_alternate : Fld := ⟨.gfRouteRegion, 4, 3, .rw, 0⟩
def gfRouteRegion_aValid : Fld := ⟨.gfRouteRegion, 7, 1, .rw, 0⟩
def gfRouteRegion_pDateline : Fld := ⟨.gfRouteRegion, 8, 1, .rw, 0⟩
def gfRouteRegion_aDateline : Fld := ⟨.gfRouteRegion, 9, 1, .rw, 0⟩
def gfRouteLocal_primary : Fld := ⟨.gfRouteLocal, 0, 3, .rw, 0⟩
def gfRouteLocal_pValid : Fld := ⟨.gfRouteLocal, 3, 1, .rw, 0⟩
def gfRouteLocal_alternate : Fld := ⟨.gfRouteLocal, 4, 3, .rw, 0⟩
def gfRouteLocal_aValid : Fld := ⟨.gfRouteLocal, 7, 1, .rw, 0⟩
def gfRouteLocal_pDateline : Fld := ⟨.gfRouteLocal, 8, 1, .rw, 0⟩
def gfRouteLocal_aDateline : Fld := ⟨.gfRouteLocal, 9, 1, .rw, 0⟩
def gfGlobalCtl_hopLimit : Fld := ⟨.gfGlobalCtl, 0, 8, .rw, 0x80⟩
def gfGlobalCtl_e2eTimeout : Fld := ⟨.gfGlobalCtl, 8, 16, .rw, 0x7530⟩
def gfGlobalCtl_settle : Fld := ⟨.gfGlobalCtl, 32, 16, .rw, 0x32c8⟩
def gfGlobalCtl_maxAge : Fld := ⟨.gfGlobalCtl, 48, 16, .rw, 0x3200⟩
def gfIncast_grantFlits : Fld := ⟨.gfIncast, 0, 8, .rw, 0x10⟩
def gfIncast_window : Fld := ⟨.gfIncast, 8, 24, .rw, 0x10000⟩
def gfDropCount_count : Fld := ⟨.gfDropCount, 0, 32, .rw, 0⟩
def cadStatus_state : Fld := ⟨.cadStatus, 0, 2, .ro, 0⟩
def cadStatus_agreed : Fld := ⟨.cadStatus, 2, 1, .ro, 0⟩
def cadStatus_mismatch : Fld := ⟨.cadStatus, 3, 1, .w1c, 0⟩
def cadStatus_holdExpired : Fld := ⟨.cadStatus, 4, 1, .w1c, 0⟩
def cadStatus_tickLoss : Fld := ⟨.cadStatus, 5, 1, .w1c, 0⟩
def cadCount_count : Fld := ⟨.cadCount, 0, 64, .ro, 0⟩
def cadPhase_ns : Fld := ⟨.cadPhase, 0, 10, .ro, 0⟩
def cadPhase_err : Fld := ⟨.cadPhase, 16, 16, .ro, 0⟩
def cadCtl_root : Fld := ⟨.cadCtl, 0, 1, .rws, 0⟩
def cadCtl_reagree : Fld := ⟨.cadCtl, 1, 1, .wo, 0⟩
def cadCtl_holdLimit : Fld := ⟨.cadCtl, 16, 16, .rws, 0x1388⟩
def cadSet_count : Fld := ⟨.cadSet, 0, 64, .rws, 0⟩
def cadLateSent_count : Fld := ⟨.cadLateSent, 0, 32, .rw, 0⟩
def cadLateRecv_count : Fld := ⟨.cadLateRecv, 0, 32, .rw, 0⟩
def cadSlipTicks_count : Fld := ⟨.cadSlipTicks, 0, 32, .rw, 0⟩
def cadMismatchPorts_ports : Fld := ⟨.cadMismatchPorts, 0, 8, .w1c, 0⟩
def collCtl_heartbeatMs : Fld := ⟨.collCtl, 0, 8, .rw, 1⟩
def collCtl_missLimit : Fld := ⟨.collCtl, 8, 8, .rw, 5⟩
def collRuns_count : Fld := ⟨.collRuns, 0, 32, .rw, 0⟩
def collFails_count : Fld := ⟨.collFails, 0, 32, .rw, 0⟩
def collReforms_count : Fld := ⟨.collReforms, 0, 32, .rw, 0⟩
def collLastFail_group : Fld := ⟨.collLastFail, 0, 16, .ro, 0⟩
def collLastFail_code : Fld := ⟨.collLastFail, 16, 8, .ro, 0⟩
def collEntry_group : Fld := ⟨.collEntry, 0, 16, .ro, 0⟩
def collEntry_state : Fld := ⟨.collEntry, 16, 3, .ro, 0⟩
def collEntry_leader : Fld := ⟨.collEntry, 19, 1, .ro, 0⟩
def collEntry_index : Fld := ⟨.collEntry, 20, 19, .ro, 0⟩
def collEntry_n : Fld := ⟨.collEntry, 39, 19, .ro, 0⟩
def collEntryTick_next : Fld := ⟨.collEntryTick, 0, 64, .ro, 0⟩
def bxStatus_state : Fld := ⟨.bxStatus, 0, 3, .ro, 0⟩
def bxStatus_width : Fld := ⟨.bxStatus, 3, 5, .ro, 0⟩
def bxStatus_widthDisagree : Fld := ⟨.bxStatus, 8, 1, .w1c, 0⟩
def bxStatus_retrained : Fld := ⟨.bxStatus, 9, 1, .w1c, 0⟩
def bxStatus_capRefused : Fld := ⟨.bxStatus, 10, 1, .w1c, 0⟩
def bxStatus_savedUsed : Fld := ⟨.bxStatus, 11, 1, .ro, 0⟩
def bxControl_retrain : Fld := ⟨.bxControl, 0, 1, .wo, 0⟩
def bxControl_restart : Fld := ⟨.bxControl, 1, 1, .wo, 0⟩
def bxControl_minModules : Fld := ⟨.bxControl, 2, 5, .rws, 8⟩
def bxControl_reuseSaved : Fld := ⟨.bxControl, 7, 1, .rws, 1⟩
def bxModules_good : Fld := ⟨.bxModules, 0, 16, .ro, 0⟩
def bxModules_partner : Fld := ⟨.bxModules, 16, 16, .ro, 0⟩
def bxModules_trained : Fld := ⟨.bxModules, 32, 16, .ro, 0⟩
def bxCapLocal_word : Fld := ⟨.bxCapLocal, 0, 64, .ro, 0⟩
def bxCapPartner_word : Fld := ⟨.bxCapPartner, 0, 64, .ro, 0⟩
def bxCrcErr_count : Fld := ⟨.bxCrcErr, 0, 32, .rws, 0⟩
def bxReplays_count : Fld := ⟨.bxReplays, 0, 32, .rw, 0⟩
def bxRetrains_count : Fld := ⟨.bxRetrains, 0, 32, .rws, 0⟩
def bxRestarts_count : Fld := ⟨.bxRestarts, 0, 32, .rws, 0⟩
def bxDiscarded_count : Fld := ⟨.bxDiscarded, 0, 32, .rws, 0⟩
def bxBisc_total : Fld := ⟨.bxBisc, 0, 16, .rw, 0⟩
def bxBisc_avail : Fld := ⟨.bxBisc, 16, 16, .ro, 0⟩
def bxBisc_used : Fld := ⟨.bxBisc, 32, 16, .ro, 0⟩
def bxSpare_lane0 : Fld := ⟨.bxSpare, 0, 7, .ro, 0⟩
def bxSpare_lane1 : Fld := ⟨.bxSpare, 8, 7, .ro, 0⟩
def bxSpare_lane2 : Fld := ⟨.bxSpare, 16, 7, .ro, 0⟩
def bxSpare_lane3 : Fld := ⟨.bxSpare, 24, 7, .ro, 0⟩
def bxSpare_moved0 : Fld := ⟨.bxSpare, 7, 1, .ro, 0⟩
def bxSpare_moved1 : Fld := ⟨.bxSpare, 15, 1, .ro, 0⟩
def bxSpare_moved2 : Fld := ⟨.bxSpare, 23, 1, .ro, 0⟩
def bxSpare_moved3 : Fld := ⟨.bxSpare, 31, 1, .ro, 0⟩
def bxCapRunning_word : Fld := ⟨.bxCapRunning, 0, 64, .ro, 0⟩
def bxMixed_mixed : Fld := ⟨.bxMixed, 0, 1, .ro, 0⟩
def bxMixed_resultDiff : Fld := ⟨.bxMixed, 1, 1, .ro, 0⟩
def bxMixed_newer : Fld := ⟨.bxMixed, 2, 4, .ro, 0⟩
def bxRoute_linkUp : Fld := ⟨.bxRoute, 0, 4, .ro, 0⟩
def bxRoute_settle : Fld := ⟨.bxRoute, 16, 16, .rw, 0x3e8⟩
def hifLink_width : Fld := ⟨.hifLink, 0, 5, .ro, 0⟩
def hifLink_rate : Fld := ⟨.hifLink, 5, 3, .ro, 0⟩
def hifLink_cxl : Fld := ⟨.hifLink, 8, 1, .ro, 0⟩
def hifLink_cacheEn : Fld := ⟨.hifLink, 9, 1, .ro, 0⟩
def hifLink_memEn : Fld := ⟨.hifLink, 10, 1, .ro, 0⟩
def hifLink_up : Fld := ⟨.hifLink, 11, 1, .ro, 0⟩
def hifStatus_linkDown : Fld := ⟨.hifStatus, 0, 1, .w1c, 0⟩
def hifStatus_hdmCommitted : Fld := ⟨.hifStatus, 1, 1, .ro, 0⟩
def hifStatus_cqWait : Fld := ⟨.hifStatus, 2, 1, .w1c, 0⟩
def hifStatus_dbIgnored : Fld := ⟨.hifStatus, 3, 1, .w1c, 0⟩
def hifStatus_hostWait : Fld := ⟨.hifStatus, 4, 1, .w1c, 0⟩
def hifDbIgnored_count : Fld := ⟨.hifDbIgnored, 0, 32, .rw, 0⟩
def hifCqWaits_count : Fld := ⟨.hifCqWaits, 0, 32, .rw, 0⟩
def hifLinkDowns_count : Fld := ⟨.hifLinkDowns, 0, 32, .rws, 0⟩
def qRingBase_base : Fld := ⟨.qRingBase, 6, 58, .rw, 0⟩
def qCqBase_base : Fld := ⟨.qCqBase, 5, 59, .rw, 0⟩
def qRingCfg_log2Size : Fld := ⟨.qRingCfg, 0, 5, .rw, 6⟩
def qRingCfg_cqLog2Size : Fld := ⟨.qRingCfg, 8, 5, .rw, 6⟩
def qPtr_head : Fld := ⟨.qPtr, 0, 16, .ro, 0⟩
def qPtr_tail : Fld := ⟨.qPtr, 16, 16, .ro, 0⟩
def qPtr_cqTail : Fld := ⟨.qPtr, 32, 16, .ro, 0⟩
def qPtr_phase : Fld := ⟨.qPtr, 48, 1, .ro, 1⟩
def qCqHead_cqHead : Fld := ⟨.qCqHead, 0, 16, .rw, 0⟩
def qEpoch_epoch : Fld := ⟨.qEpoch, 0, 32, .ro, 0⟩
def qIrq_vector : Fld := ⟨.qIrq, 0, 11, .rw, 0⟩
def qIrq_en : Fld := ⟨.qIrq, 11, 1, .rw, 0⟩
def qIrq_holdoffUs : Fld := ⟨.qIrq, 16, 16, .rw, 0⟩
def qDiscards_discarded : Fld := ⟨.qDiscards, 0, 32, .rw, 0⟩
def qDiscards_stale : Fld := ⟨.qDiscards, 32, 32, .rw, 0⟩
def mbAbi_minor : Fld := ⟨.mbAbi, 0, 16, .ro, 0⟩
def mbAbi_major : Fld := ⟨.mbAbi, 16, 16, .ro, 3⟩
def mbFwVersion_version : Fld := ⟨.mbFwVersion, 0, 32, .ro, 0⟩
def mbStatus_ready : Fld := ⟨.mbStatus, 0, 1, .ro, 0⟩
def mbStatus_busy : Fld := ⟨.mbStatus, 1, 1, .ro, 0⟩
def mbStatus_done : Fld := ⟨.mbStatus, 2, 1, .w1c, 0⟩
def mbDoorbell_go : Fld := ⟨.mbDoorbell, 0, 1, .wo, 0⟩
def mbControl_vector : Fld := ⟨.mbControl, 0, 11, .rw, 0⟩
def mbControl_intEn : Fld := ⟨.mbControl, 16, 1, .rw, 0⟩
def mbIgnored_count : Fld := ⟨.mbIgnored, 0, 32, .rw, 0⟩
def thStatus_clampActive : Fld := ⟨.thStatus, 0, 1, .ro, 0⟩
def thStatus_stage : Fld := ⟨.thStatus, 1, 2, .ro, 0⟩
def thStatus_sensorLost : Fld := ⟨.thStatus, 3, 1, .w1c, 0⟩
def thStatus_trip : Fld := ⟨.thStatus, 4, 1, .ro, 0⟩
def thHotspot_fused : Fld := ⟨.thHotspot, 0, 11, .ro, 0⟩
def thHotspot_pred : Fld := ⟨.thHotspot, 11, 11, .ro, 0⟩
def thHotspot_src : Fld := ⟨.thHotspot, 22, 2, .ro, 0⟩
def thHotspot_aImpl : Fld := ⟨.thHotspot, 24, 1, .ro, 0⟩
def thHotspot_bImpl : Fld := ⟨.thHotspot, 25, 1, .ro, 0⟩
def thHotspot_nbrA : Fld := ⟨.thHotspot, 26, 5, .ro, 0⟩
def thHotspot_nbrB : Fld := ⟨.thHotspot, 31, 5, .ro, 0⟩
def thLayer_est : Fld := ⟨.thLayer, 0, 44, .ro, 0⟩
def thClamp_theta : Fld := ⟨.thClamp, 0, 6, .ro, 0⟩
def thClamp_cause : Fld := ⟨.thClamp, 6, 2, .ro, 0⟩
def thClamp_duty : Fld := ⟨.thClamp, 8, 7, .ro, 0x40⟩
def thTargets_logic : Fld := ⟨.thTargets, 0, 8, .rw, 0x64⟩
def thTargets_layer : Fld := ⟨.thTargets, 8, 8, .rw, 0x5f⟩
def thTargets_gain : Fld := ⟨.thTargets, 16, 6, .rw, 6⟩
def thNetBase_base : Fld := ⟨.thNetBase, 0, 12, .rw, 0x800⟩
def thDisagreeCount_count : Fld := ⟨.thDisagreeCount, 0, 32, .rws, 0⟩
def thModelSubCount_count : Fld := ⟨.thModelSubCount, 0, 32, .rws, 0⟩
def thStage2Count_count : Fld := ⟨.thStage2Count, 0, 32, .rw, 0⟩
def pwrStatus_state : Fld := ⟨.pwrStatus, 0, 3, .ro, 0⟩
def pwrStatus_rising : Fld := ⟨.pwrStatus, 3, 1, .ro, 0⟩
def pwrStatus_telemLost : Fld := ⟨.pwrStatus, 4, 1, .w1c, 0⟩
def pwrStatus_excursion : Fld := ⟨.pwrStatus, 5, 1, .w1c, 0⟩
def pwrMeasured_pW : Fld := ⟨.pwrMeasured, 0, 16, .ro, 0⟩
def pwrMeasured_pAW : Fld := ⟨.pwrMeasured, 16, 16, .ro, 0⟩
def pwrMeasured_glueW : Fld := ⟨.pwrMeasured, 32, 16, .ro, 0⟩
def pwrMeasured_dP : Fld := ⟨.pwrMeasured, 48, 7, .ro, 0x40⟩
def pwrFloor_w : Fld := ⟨.pwrFloor, 0, 12, .ro, 0x1cc⟩
def pwrCap_w : Fld := ⟨.pwrCap, 0, 12, .rw, 0x898⟩
def pwrRamp_up : Fld := ⟨.pwrRamp, 0, 16, .rw, 5⟩
def pwrRamp_down : Fld := ⟨.pwrRamp, 16, 16, .rw, 5⟩
def pwrStagger_period : Fld := ⟨.pwrStagger, 0, 21, .ro, 1⟩
def pwrStagger_offset : Fld := ⟨.pwrStagger, 21, 21, .ro, 0⟩
def pwrCoolant_inlet : Fld := ⟨.pwrCoolant, 0, 16, .ro, 0⟩
def pwrCoolant_outlet : Fld := ⟨.pwrCoolant, 16, 16, .ro, 0⟩
def pwrCoolant_flow : Fld := ⟨.pwrCoolant, 32, 16, .ro, 0⟩
def pwrCoolant_ageMs : Fld := ⟨.pwrCoolant, 48, 16, .ro, 0⟩
def pwrSagCount_count : Fld := ⟨.pwrSagCount, 0, 32, .rws, 0⟩
def pwrRtCount_count : Fld := ⟨.pwrRtCount, 0, 32, .rws, 0⟩
def pwrStopCount_count : Fld := ⟨.pwrStopCount, 0, 32, .rws, 0⟩
def pwrExcursions_count : Fld := ⟨.pwrExcursions, 0, 32, .rws, 0⟩
def fltStatus_new : Fld := ⟨.fltStatus, 0, 1, .w1c, 0⟩
def fltStatus_auditFail : Fld := ⟨.fltStatus, 1, 1, .w1c, 0⟩
def fltStatus_voteFail : Fld := ⟨.fltStatus, 2, 1, .w1c, 0⟩
def fltNextSeq_seq : Fld := ⟨.fltNextSeq, 0, 32, .ro, 0⟩
def fltAck_seq : Fld := ⟨.fltAck, 0, 32, .rw, 0⟩
def fltControl_vector : Fld := ⟨.fltControl, 0, 11, .rw, 0⟩
def fltControl_intEn : Fld := ⟨.fltControl, 16, 1, .rw, 0⟩
def fltLost_count : Fld := ⟨.fltLost, 0, 32, .rws, 0⟩
def fltOverwrites_count : Fld := ⟨.fltOverwrites, 0, 32, .rws, 0⟩
def consDropped_count : Fld := ⟨.consDropped, 0, 32, .rws, 0⟩
def consCtl_giveupMs : Fld := ⟨.consCtl, 0, 16, .rw, 0x3e8⟩
def consCtl_incarnation : Fld := ⟨.consCtl, 16, 16, .ro, 0⟩
def consBuffered_count : Fld := ⟨.consBuffered, 0, 36, .ro, 0⟩
def voteCorr_count : Fld := ⟨.voteCorr, 0, 32, .rws, 0⟩
def audControl_run : Fld := ⟨.audControl, 0, 1, .wo, 0⟩
def audStatus_pass : Fld := ⟨.audStatus, 0, 9, .ro, 0⟩
def audStatus_inconclusive : Fld := ⟨.audStatus, 9, 9, .ro, 0⟩
def audStatus_running : Fld := ⟨.audStatus, 18, 1, .ro, 0⟩
def audStatus_done : Fld := ⟨.audStatus, 19, 1, .w1c, 0⟩
def audKvTotal_near : Fld := ⟨.audKvTotal, 0, 32, .rws, 0⟩
def audKvTotal_far : Fld := ⟨.audKvTotal, 32, 32, .rws, 0⟩
def audExpected_sum : Fld := ⟨.audExpected, 0, 64, .ro, 0⟩
def audFound_sum : Fld := ⟨.audFound, 0, 64, .ro, 0⟩
def audFirstFail_class : Fld := ⟨.audFirstFail, 0, 4, .ro, 0⟩
def audFirstFail_instance : Fld := ⟨.audFirstFail, 16, 16, .ro, 0⟩
def bruStatus_phase : Fld := ⟨.bruStatus, 0, 4, .ro, 0⟩
def bruStatus_start : Fld := ⟨.bruStatus, 4, 2, .ro, 0⟩
def bruStatus_savedUsed : Fld := ⟨.bruStatus, 6, 1, .ro, 0⟩
def bruStatus_haltReason : Fld := ⟨.bruStatus, 8, 4, .ro, 0⟩
def bruStatus_readyEvent : Fld := ⟨.bruStatus, 12, 1, .w1c, 0⟩
def bruStartMs_ms : Fld := ⟨.bruStartMs, 0, 32, .ro, 0⟩
def bruDieReset_req : Fld := ⟨.bruDieReset, 0, 4, .wo, 0⟩
def bruDieReset_active : Fld := ⟨.bruDieReset, 4, 4, .ro, 0⟩
def bruDieReset_lastCause : Fld := ⟨.bruDieReset, 8, 8, .ro, 0⟩
def bruWarmCount_count : Fld := ⟨.bruWarmCount, 0, 32, .rws, 0⟩
def bruPartialCount_count : Fld := ⟨.bruPartialCount, 0, 32, .rws, 0⟩
def bruReadyMin_cores : Fld := ⟨.bruReadyMin, 0, 7, .rws, 1⟩
def jigStatus_unit : Fld := ⟨.jigStatus, 0, 16, .ro, 0⟩
def jigStatus_result : Fld := ⟨.jigStatus, 16, 2, .ro, 0⟩
def jigStatus_index : Fld := ⟨.jigStatus, 18, 6, .ro, 0⟩
def jigSaveBase_address : Fld := ⟨.jigSaveBase, 0, 64, .rws, 0⟩
def secStatus_verified : Fld := ⟨.secStatus, 0, 1, .ro, 0⟩
def secStatus_slot : Fld := ⟨.secStatus, 1, 1, .ro, 0⟩
def secStatus_keyIndex : Fld := ⟨.secStatus, 2, 1, .ro, 0⟩
def secStatus_testOpen : Fld := ⟨.secStatus, 3, 1, .ro, 0⟩
def secStatus_locked : Fld := ⟨.secStatus, 4, 1, .ro, 0⟩
def secStatus_fallback : Fld := ⟨.secStatus, 5, 1, .ro, 0⟩
def secStatus_svnRunning : Fld := ⟨.secStatus, 8, 8, .ro, 0⟩
def secStatus_svnFused : Fld := ⟨.secStatus, 16, 8, .ro, 0⟩
def secStatus_keyRevoked : Fld := ⟨.secStatus, 24, 2, .ro, 0⟩
def secFwDigest_bytes : Fld := ⟨.secFwDigest, 0, 64, .ro, 0⟩
def secIdDigest_bytes : Fld := ⟨.secIdDigest, 0, 64, .ro, 0⟩
def secAttestCount_count : Fld := ⟨.secAttestCount, 0, 32, .rw, 0⟩
def secVerifyFails_count : Fld := ⟨.secVerifyFails, 0, 32, .rws, 0⟩
end F

/-- The fields of a register; every bit that none of them holds is reserved (R5). -/
def RegKind.fields : RegKind → List Fld
  | .mqStatus => [F.mqStatus_change, F.mqStatus_building]
  | .mqGeneration => [F.mqGeneration_generation]
  | .mqControl => [F.mqControl_vector, F.mqControl_intEn]
  | .mqLastChange => [F.mqLastChange_offset, F.mqLastChange_count]
  | .mqVoteCorrections => [F.mqVoteCorrections_count]
  | .glbChipId => [F.glbChipId_id]
  | .glbHostWindowBase => [F.glbHostWindowBase_base]
  | .glbAddrErrStatus => [F.glbAddrErrStatus_valid, F.glbAddrErrStatus_overflow, F.glbAddrErrStatus_code, F.glbAddrErrStatus_masterId, F.glbAddrErrStatus_write]
  | .glbAddrErrAddr => [F.glbAddrErrAddr_address]
  | .glbAddrErrCount => [F.glbAddrErrCount_count]
  | .glbUnmappedCount => [F.glbUnmappedCount_count]
  | .coreStatus => [F.coreStatus_seq, F.coreStatus_slot, F.coreStatus_freeSlots, F.coreStatus_semOvf, F.coreStatus_fault]
  | .coreControl => [F.coreControl_hold]
  | .evSet => [F.evSet_flags]
  | .evClr => [F.evClr_flags]
  | .semOverflowCount => [F.semOverflowCount_count]
  | .coreCtrlIgnored => [F.coreCtrlIgnored_count]
  | .qSched => [F.qSched_enable, F.qSched_priority, F.qSched_tc, F.qSched_splCompat]
  | .qState => [F.qState_state, F.qState_slot, F.qState_stopStatus]
  | .qStopDetail => [F.qStopDetail_unitClass, F.qStopDetail_unitState, F.qStopDetail_unitIndex, F.qStopDetail_major, F.qStopDetail_minor]
  | .qStopPc => [F.qStopPc_pc]
  | .qControl => [F.qControl_resume, F.qControl_cancel]
  | .semValue => [F.semValue_value]
  | .semSignal => [F.semSignal_n]
  | .mxaStatus => [F.mxaStatus_state, F.mxaStatus_queueDepth, F.mxaStatus_mismatch]
  | .mxaReplays => [F.mxaReplays_count]
  | .mxaFaults => [F.mxaFaults_count]
  | .mxaMismatchLog => [F.mxaMismatchLog_row, F.mxaMismatchLog_group, F.mxaMismatchLog_kind, F.mxaMismatchLog_inReplay, F.mxaMismatchLog_column]
  | .mxaMismatchPc => [F.mxaMismatchPc_pc]
  | .mxaInstructions => [F.mxaInstructions_count]
  | .mxaBusyCycles => [F.mxaBusyCycles_count]
  | .mxaStreamCycles => [F.mxaStreamCycles_count]
  | .mxaControl => [F.mxaControl_inject, F.mxaControl_injectTwice]
  | .mxaMacCount => [F.mxaMacCount_count]
  | .vsuStatus => [F.vsuStatus_vecState, F.vsuStatus_rstState, F.vsuStatus_vecQueueDepth, F.vsuStatus_rstQueueDepth, F.vsuStatus_mismatch]
  | .splTableState => [F.splTableState_bankState]
  | .splRevision => [F.splRevision_native, F.splRevision_running, F.splRevision_compat]
  | .vsuRepeats => [F.vsuRepeats_count]
  | .vsuFaults => [F.vsuFaults_count]
  | .vsuMismatchLog => [F.vsuMismatchLog_unit, F.vsuMismatchLog_kind, F.vsuMismatchLog_inRepeat, F.vsuMismatchLog_bank]
  | .vsuMismatchPc => [F.vsuMismatchPc_pc]
  | .vecInstructions => [F.vecInstructions_count]
  | .splInstructions => [F.splInstructions_count]
  | .rstRows => [F.rstRows_count]
  | .vsuBusyCycles => [F.vsuBusyCycles_count]
  | .vsuControl => [F.vsuControl_inject, F.vsuControl_injectTwice]
  | .attStatus => [F.attStatus_state, F.attStatus_queueDepth, F.attStatus_kvQueueDepth, F.attStatus_mismatch, F.attStatus_nopage, F.attStatus_listErr]
  | .kvControl => [F.kvControl_enable, F.kvControl_spillEn, F.kvControl_frameCode]
  | .kvSeqTableBase => [F.kvSeqTableBase_address]
  | .kvNearHead => [F.kvNearHead_address]
  | .kvNearFree => [F.kvNearFree_count]
  | .kvFarHead => [F.kvFarHead_address]
  | .kvFarFree => [F.kvFarFree_count]
  | .kvHeld => [F.kvHeld_near, F.kvHeld_far]
  | .kvPending => [F.kvPending_count]
  | .kvNopageCount => [F.kvNopageCount_count]
  | .kvBorrowCount => [F.kvBorrowCount_count]
  | .kvLastNopage => [F.kvLastNopage_seq]
  | .attSteps => [F.attSteps_count]
  | .attRepeats => [F.attRepeats_count]
  | .attFaults => [F.attFaults_count]
  | .nbMode => [F.nbMode_state, F.nbMode_target, F.nbMode_req]
  | .nbStatus => [F.nbStatus_running, F.nbStatus_done, F.nbStatus_nextPending, F.nbStatus_code, F.nbStatus_step]
  | .nbErrAddr => [F.nbErrAddr_address]
  | .nbRows => [F.nbRows_count]
  | .nbSplits => [F.nbSplits_count]
  | .nbCorrected => [F.nbCorrected_count]
  | .nbRepeats => [F.nbRepeats_count]
  | .nbIgnored => [F.nbIgnored_count]
  | .nbDoneSummary => [F.nbDoneSummary_done]
  | .spadOwner => [F.spadOwner_dma, F.spadOwner_handover]
  | .spadHandover => [F.spadHandover_mask, F.spadHandover_target]
  | .spadParityLog => [F.spadParityLog_valid, F.spadParityLog_persistent, F.spadParityLog_dmaSide, F.spadParityLog_bank, F.spadParityLog_offset, F.spadParityLog_masterId]
  | .spadParityCount => [F.spadParityCount_count]
  | .spadDmaWaitMax => [F.spadDmaWaitMax_count]
  | .spadIgnored => [F.spadIgnored_count]
  | .dmaStatus => [F.dmaStatus_state, F.dmaStatus_queueDepth, F.dmaStatus_err, F.dmaStatus_lastCode]
  | .dmaSubmit => [F.dmaSubmit_tc, F.dmaSubmit_address]
  | .dmaControl => [F.dmaControl_restart, F.dmaControl_flush]
  | .dmaBytes => [F.dmaBytes_value]
  | .dmaFailedAddr => [F.dmaFailedAddr_value]
  | .slcStatus => [F.slcStatus_rate, F.slcStatus_owed, F.slcStatus_forced, F.slcStatus_erasures, F.slcStatus_err, F.slcStatus_limit]
  | .slcLayerTemp => [F.slcLayerTemp_temp]
  | .slcDeadLanesLo => [F.slcDeadLanesLo_lanes]
  | .slcDeadLanesMid => [F.slcDeadLanesMid_lanes]
  | .slcDeadLanesHi => [F.slcDeadLanesHi_lanes]
  | .slcSpareMap => [F.slcSpareMap_for0, F.slcSpareMap_en0, F.slcSpareMap_for1, F.slcSpareMap_en1]
  | .slcRefreshCtl => [F.slcRefreshCtl_rateFloor]
  | .slcErrLog => [F.slcErrLog_valid, F.slcErrLog_overflow, F.slcErrLog_kind, F.slcErrLog_symbols, F.slcErrLog_lane, F.slcErrLog_masterId, F.slcErrLog_scrub]
  | .slcErrAddr => [F.slcErrAddr_offset]
  | .slcCorrected => [F.slcCorrected_count]
  | .slcUncorrectable => [F.slcUncorrectable_count]
  | .slcPoisonWrites => [F.slcPoisonWrites_count]
  | .slcAtomReject => [F.slcAtomReject_count]
  | .slcRefreshes => [F.slcRefreshes_count]
  | .slcForced => [F.slcForced_count]
  | .slcScrubPos => [F.slcScrubPos_codeword]
  | .slcScrubLap => [F.slcScrubLap_lapUs]
  | .slcScrubLaps => [F.slcScrubLaps_count]
  | .slcControl => [F.slcControl_align, F.slcControl_window]
  | .slcScrubCtl => [F.slcScrubCtl_en, F.slcScrubCtl_gap]
  | .slcThresh => [F.slcThresh_laneLimit, F.slcThresh_uncorrLimit, F.slcThresh_windowMs]
  | .arbStage => [F.arbStage_entries]
  | .arbLive => [F.arbLive_entries]
  | .arbLoad => [F.arbLoad_load]
  | .arbStatus => [F.arbStatus_loadResult, F.arbStatus_loadPending, F.arbStatus_reservedSlots, F.arbStatus_blocked, F.arbStatus_withdrawn, F.arbStatus_breach, F.arbStatus_breachActive, F.arbStatus_pending]
  | .arbRank => [F.arbRank_order]
  | .arbCtl => [F.arbCtl_restartLimit, F.arbCtl_pendCap, F.arbCtl_softMask, F.arbCtl_window]
  | .arbQuota => [F.arbQuota_quota]
  | .arbThrottle => [F.arbThrottle_b]
  | .tokReturned => [F.tokReturned_count]
  | .arbTokens => [F.arbTokens_current]
  | .tokMinted => [F.tokMinted_count]
  | .tokConsumed => [F.tokConsumed_count]
  | .arbReqGrants => [F.arbReqGrants_count]
  | .arbReqWaits => [F.arbReqWaits_count]
  | .arbReqMaxWait => [F.arbReqMaxWait_count]
  | .arbReqRestarts => [F.arbReqRestarts_count]
  | .netTcCfg => [F.netTcCfg_base, F.netTcCfg_budget, F.netTcCfg_hyst]
  | .netTcState => [F.netTcState_outstanding, F.netTcState_over, F.netTcState_effective, F.netTcState_urgency, F.netTcState_wasOver]
  | .netTcClamp => [F.netTcClamp_budget]
  | .netRtCfg => [F.netRtCfg_low, F.netRtCfg_mid, F.netRtCfg_high, F.netRtCfg_previewTc]
  | .netStarveCount => [F.netStarveCount_count]
  | .fpStatus => [F.fpStatus_phase, F.fpStatus_width, F.fpStatus_rate, F.fpStatus_linkDown, F.fpStatus_timeout]
  | .fpCapacity => [F.fpCapacity_bytes]
  | .fpControl => [F.fpControl_perst, F.fpControl_retrain, F.fpControl_timeout]
  | .fpPoisonCount => [F.fpPoisonCount_count]
  | .fpFailedCount => [F.fpFailedCount_count]
  | .fpRetrainCount => [F.fpRetrainCount_count]
  | .gfStatus => [F.gfStatus_state, F.gfStatus_width, F.gfStatus_halfHigh, F.gfStatus_version, F.gfStatus_los, F.gfStatus_retrained, F.gfStatus_noCommon, F.gfStatus_totalMismatch]
  | .gfControl => [F.gfControl_enable, F.gfControl_versionMask, F.gfControl_halfOk, F.gfControl_retrain]
  | .gfPartner => [F.gfPartner_chipId, F.gfPartner_port, F.gfPartner_device]
  | .gfRtt => [F.gfRtt_ns]
  | .gfQualCtl => [F.gfQualCtl_windowMs, F.gfQualCtl_symLimit]
  | .gfQualResult => [F.gfQualResult_laneFail, F.gfQualResult_uncorr, F.gfQualResult_crc]
  | .gfFecCorr => [F.gfFecCorr_count]
  | .gfFecUncorr => [F.gfFecUncorr_count]
  | .gfCrcErr => [F.gfCrcErr_count]
  | .gfReplays => [F.gfReplays_count]
  | .gfRetrains => [F.gfRetrains_count]
  | .gfBiscTotal => [F.gfBiscTotal_class0, F.gfBiscTotal_class1]
  | .gfBiscAvail => [F.gfBiscAvail_class0, F.gfBiscAvail_class1]
  | .gfBufUsed => [F.gfBufUsed_class0, F.gfBufUsed_class1]
  | .gfRouteRegion => [F.gfRouteRegion_primary, F.gfRouteRegion_pValid, F.gfRouteRegion_alternate, F.gfRouteRegion_aValid, F.gfRouteRegion_pDateline, F.gfRouteRegion_aDateline]
  | .gfRouteLocal => [F.gfRouteLocal_primary, F.gfRouteLocal_pValid, F.gfRouteLocal_alternate, F.gfRouteLocal_aValid, F.gfRouteLocal_pDateline, F.gfRouteLocal_aDateline]
  | .gfGlobalCtl => [F.gfGlobalCtl_hopLimit, F.gfGlobalCtl_e2eTimeout, F.gfGlobalCtl_settle, F.gfGlobalCtl_maxAge]
  | .gfIncast => [F.gfIncast_grantFlits, F.gfIncast_window]
  | .gfDropCount => [F.gfDropCount_count]
  | .cadStatus => [F.cadStatus_state, F.cadStatus_agreed, F.cadStatus_mismatch, F.cadStatus_holdExpired, F.cadStatus_tickLoss]
  | .cadCount => [F.cadCount_count]
  | .cadPhase => [F.cadPhase_ns, F.cadPhase_err]
  | .cadCtl => [F.cadCtl_root, F.cadCtl_reagree, F.cadCtl_holdLimit]
  | .cadSet => [F.cadSet_count]
  | .cadLateSent => [F.cadLateSent_count]
  | .cadLateRecv => [F.cadLateRecv_count]
  | .cadSlipTicks => [F.cadSlipTicks_count]
  | .cadMismatchPorts => [F.cadMismatchPorts_ports]
  | .collCtl => [F.collCtl_heartbeatMs, F.collCtl_missLimit]
  | .collRuns => [F.collRuns_count]
  | .collFails => [F.collFails_count]
  | .collReforms => [F.collReforms_count]
  | .collLastFail => [F.collLastFail_group, F.collLastFail_code]
  | .collEntry => [F.collEntry_group, F.collEntry_state, F.collEntry_leader, F.collEntry_index, F.collEntry_n]
  | .collEntryTick => [F.collEntryTick_next]
  | .bxStatus => [F.bxStatus_state, F.bxStatus_width, F.bxStatus_widthDisagree, F.bxStatus_retrained, F.bxStatus_capRefused, F.bxStatus_savedUsed]
  | .bxControl => [F.bxControl_retrain, F.bxControl_restart, F.bxControl_minModules, F.bxControl_reuseSaved]
  | .bxModules => [F.bxModules_good, F.bxModules_partner, F.bxModules_trained]
  | .bxCapLocal => [F.bxCapLocal_word]
  | .bxCapPartner => [F.bxCapPartner_word]
  | .bxCrcErr => [F.bxCrcErr_count]
  | .bxReplays => [F.bxReplays_count]
  | .bxRetrains => [F.bxRetrains_count]
  | .bxRestarts => [F.bxRestarts_count]
  | .bxDiscarded => [F.bxDiscarded_count]
  | .bxBisc => [F.bxBisc_total, F.bxBisc_avail, F.bxBisc_used]
  | .bxSpare => [F.bxSpare_lane0, F.bxSpare_lane1, F.bxSpare_lane2, F.bxSpare_lane3, F.bxSpare_moved0, F.bxSpare_moved1, F.bxSpare_moved2, F.bxSpare_moved3]
  | .bxCapRunning => [F.bxCapRunning_word]
  | .bxMixed => [F.bxMixed_mixed, F.bxMixed_resultDiff, F.bxMixed_newer]
  | .bxRoute => [F.bxRoute_linkUp, F.bxRoute_settle]
  | .hifLink => [F.hifLink_width, F.hifLink_rate, F.hifLink_cxl, F.hifLink_cacheEn, F.hifLink_memEn, F.hifLink_up]
  | .hifStatus => [F.hifStatus_linkDown, F.hifStatus_hdmCommitted, F.hifStatus_cqWait, F.hifStatus_dbIgnored, F.hifStatus_hostWait]
  | .hifDbIgnored => [F.hifDbIgnored_count]
  | .hifCqWaits => [F.hifCqWaits_count]
  | .hifLinkDowns => [F.hifLinkDowns_count]
  | .qRingBase => [F.qRingBase_base]
  | .qCqBase => [F.qCqBase_base]
  | .qRingCfg => [F.qRingCfg_log2Size, F.qRingCfg_cqLog2Size]
  | .qPtr => [F.qPtr_head, F.qPtr_tail, F.qPtr_cqTail, F.qPtr_phase]
  | .qCqHead => [F.qCqHead_cqHead]
  | .qEpoch => [F.qEpoch_epoch]
  | .qIrq => [F.qIrq_vector, F.qIrq_en, F.qIrq_holdoffUs]
  | .qDiscards => [F.qDiscards_discarded, F.qDiscards_stale]
  | .mbAbi => [F.mbAbi_minor, F.mbAbi_major]
  | .mbFwVersion => [F.mbFwVersion_version]
  | .mbStatus => [F.mbStatus_ready, F.mbStatus_busy, F.mbStatus_done]
  | .mbDoorbell => [F.mbDoorbell_go]
  | .mbControl => [F.mbControl_vector, F.mbControl_intEn]
  | .mbIgnored => [F.mbIgnored_count]
  | .thStatus => [F.thStatus_clampActive, F.thStatus_stage, F.thStatus_sensorLost, F.thStatus_trip]
  | .thHotspot => [F.thHotspot_fused, F.thHotspot_pred, F.thHotspot_src, F.thHotspot_aImpl, F.thHotspot_bImpl, F.thHotspot_nbrA, F.thHotspot_nbrB]
  | .thLayer => [F.thLayer_est]
  | .thClamp => [F.thClamp_theta, F.thClamp_cause, F.thClamp_duty]
  | .thTargets => [F.thTargets_logic, F.thTargets_layer, F.thTargets_gain]
  | .thNetBase => [F.thNetBase_base]
  | .thDisagreeCount => [F.thDisagreeCount_count]
  | .thModelSubCount => [F.thModelSubCount_count]
  | .thStage2Count => [F.thStage2Count_count]
  | .pwrStatus => [F.pwrStatus_state, F.pwrStatus_rising, F.pwrStatus_telemLost, F.pwrStatus_excursion]
  | .pwrMeasured => [F.pwrMeasured_pW, F.pwrMeasured_pAW, F.pwrMeasured_glueW, F.pwrMeasured_dP]
  | .pwrFloor => [F.pwrFloor_w]
  | .pwrCap => [F.pwrCap_w]
  | .pwrRamp => [F.pwrRamp_up, F.pwrRamp_down]
  | .pwrStagger => [F.pwrStagger_period, F.pwrStagger_offset]
  | .pwrCoolant => [F.pwrCoolant_inlet, F.pwrCoolant_outlet, F.pwrCoolant_flow, F.pwrCoolant_ageMs]
  | .pwrSagCount => [F.pwrSagCount_count]
  | .pwrRtCount => [F.pwrRtCount_count]
  | .pwrStopCount => [F.pwrStopCount_count]
  | .pwrExcursions => [F.pwrExcursions_count]
  | .fltStatus => [F.fltStatus_new, F.fltStatus_auditFail, F.fltStatus_voteFail]
  | .fltNextSeq => [F.fltNextSeq_seq]
  | .fltAck => [F.fltAck_seq]
  | .fltControl => [F.fltControl_vector, F.fltControl_intEn]
  | .fltLost => [F.fltLost_count]
  | .fltOverwrites => [F.fltOverwrites_count]
  | .consDropped => [F.consDropped_count]
  | .consCtl => [F.consCtl_giveupMs, F.consCtl_incarnation]
  | .consBuffered => [F.consBuffered_count]
  | .voteCorr => [F.voteCorr_count]
  | .audControl => [F.audControl_run]
  | .audStatus => [F.audStatus_pass, F.audStatus_inconclusive, F.audStatus_running, F.audStatus_done]
  | .audKvTotal => [F.audKvTotal_near, F.audKvTotal_far]
  | .audExpected => [F.audExpected_sum]
  | .audFound => [F.audFound_sum]
  | .audFirstFail => [F.audFirstFail_class, F.audFirstFail_instance]
  | .bruStatus => [F.bruStatus_phase, F.bruStatus_start, F.bruStatus_savedUsed, F.bruStatus_haltReason, F.bruStatus_readyEvent]
  | .bruStartMs => [F.bruStartMs_ms]
  | .bruDieReset => [F.bruDieReset_req, F.bruDieReset_active, F.bruDieReset_lastCause]
  | .bruWarmCount => [F.bruWarmCount_count]
  | .bruPartialCount => [F.bruPartialCount_count]
  | .bruReadyMin => [F.bruReadyMin_cores]
  | .jigStatus => [F.jigStatus_unit, F.jigStatus_result, F.jigStatus_index]
  | .jigSaveBase => [F.jigSaveBase_address]
  | .secStatus => [F.secStatus_verified, F.secStatus_slot, F.secStatus_keyIndex, F.secStatus_testOpen, F.secStatus_locked, F.secStatus_fallback, F.secStatus_svnRunning, F.secStatus_svnFused, F.secStatus_keyRevoked]
  | .secFwDigest => [F.secFwDigest_bytes]
  | .secIdDigest => [F.secIdDigest_bytes]
  | .secAttestCount => [F.secAttestCount_count]
  | .secVerifyFails => [F.secVerifyFails_count]

/-- Every register kind, in the order of the blocks. -/
def RegKind.all : List RegKind :=
  [.mqStatus, .mqGeneration, .mqControl, .mqLastChange, .mqVoteCorrections, .glbChipId, .glbHostWindowBase, .glbAddrErrStatus, .glbAddrErrAddr, .glbAddrErrCount, .glbUnmappedCount, .coreStatus, .coreControl, .evSet, .evClr, .semOverflowCount, .coreCtrlIgnored, .qSched, .qState, .qStopDetail, .qStopPc, .qControl, .semValue, .semSignal, .mxaStatus, .mxaReplays, .mxaFaults, .mxaMismatchLog, .mxaMismatchPc, .mxaInstructions, .mxaBusyCycles, .mxaStreamCycles, .mxaControl, .mxaMacCount, .vsuStatus, .splTableState, .splRevision, .vsuRepeats, .vsuFaults, .vsuMismatchLog] ++
  [.vsuMismatchPc, .vecInstructions, .splInstructions, .rstRows, .vsuBusyCycles, .vsuControl, .attStatus, .kvControl, .kvSeqTableBase, .kvNearHead, .kvNearFree, .kvFarHead, .kvFarFree, .kvHeld, .kvPending, .kvNopageCount, .kvBorrowCount, .kvLastNopage, .attSteps, .attRepeats, .attFaults, .nbMode, .nbStatus, .nbErrAddr, .nbRows, .nbSplits, .nbCorrected, .nbRepeats, .nbIgnored, .nbDoneSummary, .spadOwner, .spadHandover, .spadParityLog, .spadParityCount, .spadDmaWaitMax, .spadIgnored, .dmaStatus, .dmaSubmit, .dmaControl, .dmaBytes] ++
  [.dmaFailedAddr, .slcStatus, .slcLayerTemp, .slcDeadLanesLo, .slcDeadLanesMid, .slcDeadLanesHi, .slcSpareMap, .slcRefreshCtl, .slcErrLog, .slcErrAddr, .slcCorrected, .slcUncorrectable, .slcPoisonWrites, .slcAtomReject, .slcRefreshes, .slcForced, .slcScrubPos, .slcScrubLap, .slcScrubLaps, .slcControl, .slcScrubCtl, .slcThresh, .arbStage, .arbLive, .arbLoad, .arbStatus, .arbRank, .arbCtl, .arbQuota, .arbThrottle, .tokReturned, .arbTokens, .tokMinted, .tokConsumed, .arbReqGrants, .arbReqWaits, .arbReqMaxWait, .arbReqRestarts, .netTcCfg, .netTcState] ++
  [.netTcClamp, .netRtCfg, .netStarveCount, .fpStatus, .fpCapacity, .fpControl, .fpPoisonCount, .fpFailedCount, .fpRetrainCount, .gfStatus, .gfControl, .gfPartner, .gfRtt, .gfQualCtl, .gfQualResult, .gfFecCorr, .gfFecUncorr, .gfCrcErr, .gfReplays, .gfRetrains, .gfBiscTotal, .gfBiscAvail, .gfBufUsed, .gfRouteRegion, .gfRouteLocal, .gfGlobalCtl, .gfIncast, .gfDropCount, .cadStatus, .cadCount, .cadPhase, .cadCtl, .cadSet, .cadLateSent, .cadLateRecv, .cadSlipTicks, .cadMismatchPorts, .collCtl, .collRuns, .collFails] ++
  [.collReforms, .collLastFail, .collEntry, .collEntryTick, .bxStatus, .bxControl, .bxModules, .bxCapLocal, .bxCapPartner, .bxCrcErr, .bxReplays, .bxRetrains, .bxRestarts, .bxDiscarded, .bxBisc, .bxSpare, .bxCapRunning, .bxMixed, .bxRoute, .hifLink, .hifStatus, .hifDbIgnored, .hifCqWaits, .hifLinkDowns, .qRingBase, .qCqBase, .qRingCfg, .qPtr, .qCqHead, .qEpoch, .qIrq, .qDiscards, .mbAbi, .mbFwVersion, .mbStatus, .mbDoorbell, .mbControl, .mbIgnored, .thStatus, .thHotspot] ++
  [.thLayer, .thClamp, .thTargets, .thNetBase, .thDisagreeCount, .thModelSubCount, .thStage2Count, .pwrStatus, .pwrMeasured, .pwrFloor, .pwrCap, .pwrRamp, .pwrStagger, .pwrCoolant, .pwrSagCount, .pwrRtCount, .pwrStopCount, .pwrExcursions, .fltStatus, .fltNextSeq, .fltAck, .fltControl, .fltLost, .fltOverwrites, .consDropped, .consCtl, .consBuffered, .voteCorr, .audControl, .audStatus, .audKvTotal, .audExpected, .audFound, .audFirstFail, .bruStatus, .bruStartMs, .bruDieReset, .bruWarmCount, .bruPartialCount, .bruReadyMin] ++
  [.jigStatus, .jigSaveBase, .secStatus, .secFwDigest, .secIdDigest, .secAttestCount, .secVerifyFails]

end Sys2Proof.Machine
end

