-- ==== Sys2Proof/Machine/State.lean ====
section
/-! DEFINITION. The state of the part as plain data: every register (one sparse table by BAR0 offset, whose unlisted
registers read their reset values), the memories, and for each block what it holds beside its registers. -/

namespace Sys2Proof.Machine

/-- The reasons a run of the model stops with a fault: there is none. No command of this part ends the machine; every
failure the spec describes is a next state. -/
inductive Fault where
  deriving DecidableEq, Repr

/-- The reasons a command is refused. -/
inductive Refusal where
  /-- Raised by an arm of `exec` whose meaning is not written yet. Safe: the run stops. -/
  | notModelled (mnemonic : String)
  /-- Raised by an access to the CXL component registers, 0x000A_0000 to 0x000A_FFFF of BAR0: CXL 2.0 lays them out and
  the spec does not (R481, R7). Safe: the run stops. -/
  | cxlComponentRegister
  deriving DecidableEq, Repr

/-! ### The core: context slots, issue queues and running instructions -/

/-- The issue queues of a core (R79, R127, R158, R183, R190, R250). -/
inductive UnitId where
  | matrix | vector | rowstat | attention | dma (e : Fin 4) | nearbank | kv | collective
  deriving DecidableEq, Repr

/-- An instruction that has left the sequencer: the slot and the place in issue order it came from, the address of its
word, and the instruction itself. -/
structure UEntry where
  slot : Fin 4
  seq : Nat
  pc : Nat
  instr : Instr
  deriving DecidableEq, Repr

/-- What Q_STATE, Q_STOP_DETAIL and Q_STOP_PC will hold for a stop (R99, R240). -/
structure Detail where
  status : Nat
  cls : Nat := 0
  ust : Nat := 0
  idx : Nat := 0
  major : Nat := 0
  minor : Nat := 0
  pc : Nat := 0
  deriving DecidableEq, Repr

/-- A stop found but perhaps not yet reported (R99). `seq` is its place in issue order; `entry` is the unit-class
instruction, or the failed access, that is kept with the context; none for a stop at issue. -/
structure StopRec where
  detail : Detail
  seq : Nat
  entry : Option UEntry
  deriving DecidableEq, Repr

/-- What a parked command waits for (R90). -/
inductive Wait where
  | sem (i n : Nat)
  | ev (i : Nat)
  | tick (count : Nat)
  deriving DecidableEq, Repr

/-- Where a context slot's command stands: issuing; parked on a wait; its stop found and not yet reported; stopped
and reported; made ready by RESUME; END issued and its record not yet written; only its final record left to write. -/
inductive Phase where
  | issuing | parked | stopping | stopped | resumed | ended | recording
  deriving DecidableEq, Repr

/-- A completion record that is to be written (R379): its status, flags, DETAIL, INFO bits and PC, whether its descriptor
had IRQ, and whether it waits for ring space (counted once). -/
structure CqRec where
  status : Nat
  final : Bool
  epoch : Nat
  aflags : Nat := 0
  detail : Nat := 0
  pc : Nat := 0
  waited : Bool := false
  deriving DecidableEq, Repr

/-- A context slot that holds a command (R78, R99). -/
structure Slot where
  phase : Phase := .issuing
  /-- the queue that supplied the command -/
  queue : Nat := 0
  pc : Nat := 0
  sregs : Table Word := []
  /-- bit i is p_i; bit 0 is never read -/
  preds : BitVec 8 := 0#8
  /-- t0 to t63 by number; an unlisted descriptor is invalid -/
  tds : Table Image := []
  aflags : BitVec 8 := 0#8
  epoch : Nat := 0
  level : Nat := 0
  hdr : Nat := 0
  codeLo : Nat := 0
  codeHi : Nat := 0
  prio : Nat := 3
  tc : Nat := 0
  compat : Bool := false
  /-- the command's descriptor: TAG and flags for its completion records -/
  tag : Nat := 0
  flags : Nat := 0
  /-- instructions issued so far -/
  seq : Nat := 0
  /-- the order in which slots parked or stopped -/
  order : Nat := 0
  wait : Option Wait := none
  granted : Bool := false
  stop : Option StopRec := none
  held : List UEntry := []
  /-- the earliest posted ATADD that failed: its place in issue order, its address, its status and its MINOR (R217) -/
  atomFail : Option (Nat × Nat × Nat × Nat) := none
  /-- the record that the command waits to write -/
  cq : Option CqRec := none
  /-- loads, stores and remote signals whose accesses wait at their targets, and posted additions not yet performed -/
  waits : List UEntry := []
  deriving DecidableEq, Repr

/-- An instruction a unit is executing. `row` is the next row or step to write, `again` whether its one replay or
repeat is used, `inj` how many of its passes an injected error still corrupts, `bind` the bound spline bank or 8 for
none, `snap` and `frames` the sequence descriptor and the frame of each key as an attention step found them (R183). -/
structure Running where
  entry : UEntry
  row : Nat := 0
  again : Bool := false
  inj : Nat := 0
  bind : Nat := 8
  snap : Nat := 0
  frames : List Nat := []
  deriving DecidableEq, Repr

/-- A core beyond its registers. -/
structure CoreSt where
  /-- K0 to K3; an unlisted slot is free -/
  slots : Table (Option Slot) := []
  /-- issue queues by unit code -/
  uq : Table (List UEntry) := []
  /-- the instruction each unit executes, by unit code -/
  running : Table (Option Running) := []
  /-- user-table loads in progress (R141) -/
  loading : List UEntry := []
  /-- near-bank loads in progress, by channel (R190) -/
  nbloads : Table (Option UEntry) := []
  /-- slots waiting on a semaphore, in the order issued (R93) -/
  semQ : Table (List Nat) := []
  /-- slots waiting on an event flag, in the order issued (R95) -/
  evQ : Table (List Nat) := []
  /-- the queue last started at each priority, plus one (R88) -/
  lastStarted : Table Nat := []
  /-- orders parks and stops -/
  clock : Nat := 0
  /-- INJECT armed: 1 for one pass, 2 for both (R126, R157) -/
  injMxa : Nat := 0
  injVsu : Nat := 0
  /-- user-table images by bank 2 × table + bank; 0 is the empty image (R142) -/
  tables : Table Nat := []
  /-- SEM_IN and SEM_OUT of the audit (R425) -/
  semIn : Nat := 0
  semOut : Nat := 0
  /-- the status of a core under a core fault before it went OFFLINE, while the Jig runs on it (R102) -/
  faulted : Option Byte := none
  deriving DecidableEq, Repr

/-- A descriptor chain in a DMA engine's queue: its address, its traffic class, the instruction that queued it
(none for DMA_SUBMIT), and the event it sets. -/
structure DmaReq where
  addr : Nat
  tc : Nat
  owner : Option UEntry
  event : Option Nat
  deriving DecidableEq, Repr

/-- A DMA engine beyond its registers: its queue, the descriptor it runs (chain head, descriptor address, 64-byte
image, next row, next byte of the row), whether a residue mismatch was seen, and the code the descriptor ends with
once known, and whether FLUSH has removed the rest of its chain (R250 to R253). -/
structure DmaEng where
  queue : List DmaReq := []
  req : Option DmaReq := none
  desc : Nat := 0
  image : Nat := 0
  row : Nat := 0
  byte : Nat := 0
  again : Bool := false
  code : Option Nat := none
  flush : Bool := false
  deriving DecidableEq, Repr

/-! ### Near-bank reducers -/

/-- A run in a channel's run slot or next slot (R187, R203): the step it is at, the row bursts the step has read,
whether the step's repeat is used, the result writes not yet performed (address, bytes), the code it ends with once
known, the run event, and the command that issued it. -/
structure NbRun where
  start : Nat
  step : Nat
  slot : Fin 4
  seq : Nat
  tc : Nat
  event : Nat
  visit : Nat := 0
  read : Bool := false
  again : Bool := false
  writes : List (Nat × List Byte) := []
  code : Option Nat := none
  /-- arithmetic flags of the results so far (R70) -/
  aflags : BitVec 8 := 0#8
  deriving DecidableEq, Repr

/-- The buffers of one NBR (R186): the vector buffer's element codes and scale bytes, the index buffer, the output
buffer. -/
structure NbrBuf where
  vec : Table Nat := []
  scales : Table Nat := []
  index : Table Nat := []
  outp : Table Wsf := []
  deriving DecidableEq, Repr

/-! ### Accesses that wait -/

/-- Who waits for an access: an instruction of a core's slot, by its place in issue order; a peer chip that sent a
message; a conserved message by die and number; the sender of
the command, who sees the answer leave; nobody. -/
inductive Waiter where
  | core (c k seq : Nat)
  | peer (src txn tc : Nat) (read : Bool)
  | cons (die num : Nat)
  | answer
  | nobody
  deriving DecidableEq, Repr


/-! ### What leaves the part, and fault records -/

/-- A fault record without its SEQ and CRC, which it receives when it is performed (R419). -/
structure FltRec where
  kind : Nat
  action : Nat
  unit : Nat
  cadence : Nat
  cores : Nat := 0
  discarded : Nat := 0
  master : Nat := 0
  address : Nat := 0
  detail : Nat := 0
  deriving DecidableEq, Repr


/-! ### Channels: the controller and its arbiter -/

/-- An ordinary request at a channel controller (R277, R279): bytes of one codeword, written where `wr` holds them. `who`
is who waits for it; `waited` counts slot boundaries since it arrived. -/
structure ChanReq where
  requester : Nat
  master : Nat
  tc : Nat
  off : Nat
  len : Nat
  wr : Option (List Byte) := none
  who : Waiter := .answer
  waited : Nat := 0
  restarts : Nat := 0
  deriving DecidableEq, Repr

/-- The request that holds a channel: locked or not, whether its grant consumed a token, and the slots since its grant. -/
structure Holder where
  req : ChanReq
  locked : Bool
  token : Bool
  age : Nat := 0
  deriving DecidableEq, Repr

/-- An adder request in a channel's queue (R271); `who` is told when it is performed. -/
structure AddReq where
  op : Nat
  off : Nat
  operand : Nat
  tag : Nat := 0
  tagOff : Nat := 0
  master : Nat
  tc : Nat
  who : Waiter := .nobody
  deriving DecidableEq, Repr

/-- A channel controller beyond its registers. -/
structure Chan where
  /-- the pending queue of R291, oldest first -/
  pend : List ChanReq := []
  /-- requests still in the on-die network (R292) -/
  net : List ChanReq := []
  holder : Option Holder := none
  /-- the slot whose boundary comes next (R278) -/
  slot : Nat := 0
  /-- an accepted table that is not yet live: its four words (R285) -/
  loaded : Option (List Nat) := none
  withdrawn : List Nat := []
  blocked : List Nat := []
  /-- the quotas in force, as ARB_QUOTA at the last window start (R290) -/
  quota : Nat := 0
  adder : List AddReq := []
  /-- channel offsets that the scrubber repairs first (R273) -/
  repair : List Nat := []
  /-- distinct codewords found uncorrectable in the window, and corrections by lane (R262, R275) -/
  uncorr : List Nat := []
  laneHits : Table Nat := []
  /-- the open row of each bank, plus one (R257) -/
  openRow : Table Nat := []
  /-- refreshes issued and not completed -/
  refreshing : Nat := 0
  deriving DecidableEq, Repr


/-! ### Far ports and Golfort -/

/-- A request of a master to one line of a far port (R301, R302): bytes `len` from `off` read, or `wr` written; whether it has
been issued to the device. -/
structure FarReq where
  master : Nat
  off : Nat
  len : Nat
  wr : Option (List Byte) := none
  issued : Bool := false
  deriving DecidableEq, Repr

/-- A far port beyond its registers: its outstanding requests, how often its device lost its contents to PERST, and the
capacity to compare with when its die returns. -/
structure FarPort where
  queue : List FarReq := []
  gen : Nat := 0
  kept : Option Nat := none
  deriving DecidableEq, Repr

/-- A data flit (R309). -/
structure Flit where
  vc : Nat
  dclass : Nat
  tc : Nat
  seq : Nat
  dst : Nat
  src : Nat
  hops : Nat
  units : Nat
  age : Nat
  payload : List Byte
  deriving DecidableEq, Repr

/-- A Golfort port beyond its registers. Pools are numbered 2 × VC + class. -/
structure GfPort where
  /-- SEQ expected next, and whether flits are discarded until it comes (R311) -/
  rxSeq : Nat := 0
  discarding : Bool := false
  /-- occupied receive buffers, oldest first -/
  rx : List Flit := []
  /-- entries freed by pool, modulo 2^16, and the partner's counts last received (R314) -/
  freed : Table Nat := []
  returns : Table Nat := []
  /-- flits queued for the port, the retry buffer, and the SEQ of the next flit -/
  queue : List Flit := []
  retry : List Flit := []
  txSeq : Nat := 0
  /-- the SEQ last asked for again and how often in a row (R312) -/
  nakSeq : Nat := 0
  naks : Nat := 0
  /-- failed attempts of the present training, and whether it follows a retrain (R323) -/
  attempts : Nat := 0
  retraining : Bool := false
  deriving DecidableEq, Repr

/-- A request to a peer chip that awaits its response (R319). -/
structure Txn where
  tag : Nat
  dst : Nat
  die : Nat
  tc : Nat
  master : Nat
  write : Bool
  addr : Nat
  who : Waiter
  deriving DecidableEq, Repr

/-- What leaves the part. -/
inductive Out where
  /-- an MSI-X message (R374) -/
  | msix (vector : Nat)
  /-- the answer to a request that came by command: its bytes, or the status of R482 it failed with -/
  | answer (status : Nat) (bytes : List Byte)
  /-- a data flit on a Golfort port, as the 256 bytes of R309 -/
  | dataFlit (port : Nat) (bytes : List Byte)
  /-- CXL.mem requests of a far port: 0 MemRd, 1 MemWr, 2 MemWrPtl (R301), by line -/
  | cxlMem (far : Nat) (op : Nat) (line : Nat)
  /-- a group word on a port (R345) -/
  | groupWord (port kind group value ttl : Nat)
  /-- a COLL message to a chip (R345): kind, group, phase, source index, code, first element and elements -/
  | coll (chip kind group phase index code first : Nat) (elems : List (Nat × Nat))
  /-- a GRANT to a chip (R328) -/
  | grant (chip group flits index : Nat)
  /-- CXL.cache requests of the host window: 0 RdCurr, 1 WOWrInvF, 2 WOWrInv (R371), or in PCIe mode 3 Memory Read, 4 Memory
  Write (R370), by line -/
  | hostMem (op line : Nat)
  /-- RspIHitI to a host snoop of a line (R371) -/
  | snoop (line : Nat)
  /-- the bytes of an I3C private read; none is a NACK (R476) -/
  | i3c (bytes : List Byte)
  /-- an AVSBus write of VDD_CORE (R471) -/
  | avs (mv : Nat)
  deriving DecidableEq, Repr


/-! ### Cadence and collectives -/

/-- The master tick counter beyond its registers (R332, R335): ticks within the bounds in a row, ticks missed in a row, and
the count that an adoption gives the present edge. -/
structure CadSt where
  inRow : Nat := 0
  missed : Nat := 0
  adopted : Option Nat := none
  deriving DecidableEq, Repr

/-- A collective that runs (R341 to R348): the CRUN that started it, its descriptor, the phases started, whether this
member's part of the last one is performed, and the elements worked on. -/
structure CollRun where
  core : Nat
  slot : Nat
  seq : Nat
  event : Option Nat
  addr : Nat
  op : Nat
  wsf : Bool
  tc : Nat
  slipStep : Nat
  root : Nat
  srcImage : Nat
  dstImage : Nat
  start : Nat
  phaseTicks : Nat
  maxSlip : Nat
  sigAddr : Nat
  /-- phases started, the ticks by which those not started have moved, and the slips in all -/
  phase : Nat := 0
  shift : Nat := 0
  slips : Nat := 0
  /-- the ticks at which phases started, the newest first -/
  ticks : List Nat := []
  /-- elements received of the phase that runs, by element number -/
  got : List Nat := []
  /-- partial and complete values by element number; by source × elements for REDUCE -/
  work : Table Wsf := []
  /-- messages of a barrier received at ROOT -/
  arrived : List Nat := []
  /-- for REDUCE: elements sent, or at ROOT the source whose turn it is and the flits granted and not received -/
  sent : Nat := 0
  turn : Nat := 0
  granted : Nat := 0
  /-- arithmetic flags of this member's conversions so far (R70) -/
  aflags : BitVec 8 := 0#8
  deriving DecidableEq, Repr

/-- A group entry of a collective engine beyond its registers (R338 to R340, R349). -/
structure Group where
  addr : Nat
  spares : Nat
  members : List Nat
  formTick : Nat
  anchor : Nat
  hops : Nat
  sigAddr : Nat
  /-- the horizon in ticks, and the largest latency to the leader seen, in ns -/
  h : Nat := 0
  latency : Nat := 0
  /-- at the leader: indices whose FORM has come; spares that sent HEARTBEAT -/
  forms : List Nat := []
  beats : List Nat := []
  /-- heartbeats of the predecessor missed in a row, and the index lost -/
  missed : Nat := 0
  lost : Option Nat := none
  run : Option CollRun := none
  deriving DecidableEq, Repr


/-- A Bennex endpoint beyond its registers (R357, R362): the sequence number expected, whether flits are discarded until
it comes, a capability word received, and the flits discarded by a disagreement that its next UP reports. -/
structure BxEnd where
  rxSeq : Nat := 0
  discarding : Bool := false
  reported : Option Nat := none
  deriving DecidableEq, Repr


/-! ### Temperature and power -/

/-- The thermal models, the Clamp and the power controller beyond their registers. -/
structure Power where
  /-- hot spot estimates, samples in a row with SRC = 3, by 20 × die + spot -/
  estimate : Table Nat := []
  substituted : Table Nat := []
  /-- predictions of the layer regions by 4 × core + layer; θ_n in 64ths by 32 × core + channel -/
  layerPred : Table Nat := []
  thetaN : Table Nat := []
  /-- updates in a row in which some throttle of the die was 63/64, and in which none was -/
  hot : Table Nat := []
  cool : Table Nat := []
  /-- the last coolant report's SEQ, the FLOW of the last two valid ones, and good reports in a row (R403, R404) -/
  seq : Option Nat := none
  flows : List Nat := []
  good : Nat := 0
  /-- P_a in tenths of a watt (R406); P is above 2,200 W -/
  allowed : Nat := 0
  above : Bool := false
  /-- conditions of R402, R404 and R409, and of R407: declared ready -/
  tripped : Bool := false
  stopped : Bool := false
  sag : Bool := false
  ride : Bool := false
  inService : Bool := false
  deriving DecidableEq, Repr



/-! ### Bring-up, the Jig, the mailbox, security and conserved messages -/

/-- What the retention test has found of a channel (R438): the sums of its layer estimate over the pauses of the cool and
the hot sweep, and the k of the pauses that some pattern failed. -/
structure RetChan where
  lowSum : Nat := 0
  highSum : Nat := 0
  lowFail : List Nat := []
  highFail : List Nat := []
  deriving DecidableEq, Repr

/-- One copy of the saved settings (R447): the FAILED and RETIRED entries by map offset, and the registers whose settings
are saved, by BAR0 offset. -/
structure SavedCopy where
  entries : Table Byte := []
  regs : Table Nat := []
  deriving DecidableEq, Repr

/-- Why the Jig runs on a unit: a core fault, RUN_JIG. -/
inductive JigWhy where
  | fault | run
  deriving DecidableEq, Repr

/-- A unit on which the Jig runs or is about to run (R444, R445): its map offset, why, and for a core whether its state is
saved. -/
structure JigRun where
  unit : Nat
  why : JigWhy
  saved : Bool := false
  deriving DecidableEq, Repr

/-- The mailbox request that waits (R385, R426, R446): its opcode and SEQ, and the unit whose region it waits for. -/
structure MbWait where
  op : Nat
  seq : Nat
  unit : Nat := 0
  deriving DecidableEq, Repr

/-- The bring-up sequence beyond BRU_STATUS: the levels of VDD_AUX, PWRGOOD and PKG_RESET_N, the phases' results, and the
state of a restart. -/
structure Bring where
  aux : Bool := true
  pwrgood : Bool := true
  pkgHigh : Bool := false
  /-- HPERST_N is low (R475) -/
  hperst : Bool := false
  fuses : Bool := false
  mapDone : Bool := false
  /-- the saved-settings header is readable in this start (R422) -/
  header : Bool := true
  /-- sweep steps run: 64 × hot + 16 × pattern + k -/
  steps : List Nat := []
  ret : Table RetChan := []
  jig : List JigRun := []
  mbWait : Option MbWait := none
  /-- Jig failures of a die's cores since its last return (R442, cause 4) -/
  jigFails : Table Nat := []
  deriving DecidableEq, Repr

/-- An image slot of the boot flash (R453): erased and rewritten, or as the board supplied it; whether its trailer
stands erased (R459). -/
structure FlashSlot where
  erased : Bool := false
  noTrailer : Bool := false
  bytes : Table (Option Byte) := []
  deriving DecidableEq, Repr

/-- The boot flash and the security block beyond their registers: image slots by number, the copies of the saved settings,
which is valid, the running slot's SEQ, TOTAL of an update begun, and whether internal scan is enabled through the test port, the
secrets being zero (R447, R453, R459, R460). -/
structure Sec where
  slots : Table FlashSlot := []
  copies : Table SavedCopy := []
  valid : Nat := 0
  gen : Nat := 0
  runSeq : Nat := 0
  total : Option Nat := none
  scan : Bool := false
  deriving DecidableEq, Repr

/-- A conserved message not yet acknowledged (R424): its number, its destination chip, the address written and n. -/
structure ConsMsg where
  num : Nat
  chip : Nat
  addr : Nat
  n : Nat
  deriving DecidableEq, Repr

/-- A die's conserved messages: the buffer, and how many were sent and acknowledged. -/
structure Cons where
  buffer : List ConsMsg := []
  sent : Nat := 0
  acked : Nat := 0
  dropped : Nat := 0
  deriving DecidableEq, Repr

/-- A frame lent and not yet acknowledged (R179). -/
structure Loan where
  lender : Nat
  borrower : Nat
  far : Bool
  frame : Nat
  deriving DecidableEq, Repr

/-- An access of another master held while a core's matrix or attention-step instruction writes its accumulator store
(R36): local address, bytes read or written, master, and who waits. -/
structure HeldAcc where
  addr : Nat
  len : Nat
  wr : Option (List Byte)
  master : Nat
  tc : Nat
  who : Waiter
  deriving DecidableEq, Repr

/-- The machine. -/
structure State where
  /-- commands waiting, first in first out -/
  pending : List Instr := []
  /-- the model's own counter of free values -/
  free : Nat := 0
  /-- what has left the part, newest first -/
  out : List Out := []
  /-- registers by BAR0 offset, where they differ from their reset values -/
  regs : Table Nat := []
  /-- storage by local address: slices (channel-linear view), scratchpads, accumulator integers, far tiers, mailbox
  buffers, fault log window, NBR sequence stores -/
  mem : Table Byte := []
  /-- host memory by host physical address -/
  hostMem : Table Byte := []
  /-- tags of the accumulator stores by core × 131,072 + entry (R68) -/
  accTags : Table (BitVec 8) := []
  /-- scratchpad bytes with bad parity as stored, by local address (R249) -/
  badParity : List Nat := []
  /-- poisoned codewords by local address div 256 (R263) -/
  poison : List Nat := []
  /-- lanes in error as stored, by codeword (R260) -/
  symErrs : Table (List Nat) := []
  /-- own statuses of the Marquetry map by map offset (R16, R18) -/
  own : Table Byte := []
  /-- entries held by units that are OFFLINE for a partial reset or retraining (R23) -/
  mapSaved : Table (Option Byte) := []
  /-- the Cadence count at the last update of the map (R21) -/
  mapCadence : Nat := 0
  /-- records that a die holds while D0 is in partial reset, and those it dropped (R421) -/
  fltHeld : Table (List FltRec) := []
  fltLostBy : Table Nat := []
  cores : Table CoreSt := []
  dma : Table DmaEng := []
  /-- run slots and next slots of the channels by 32 × core + channel -/
  nbRun : Table (Option NbRun) := []
  nbNext : Table (Option NbRun) := []
  /-- NBR buffers by 128 × core + 4 × channel + NBR -/
  nbBuf : Table NbrBuf := []
  /-- channel controllers by 32 × core + channel -/
  chans : Table Chan := []
  /-- far device memory that has been written, and lines whose data is poisoned (R303) -/
  farMem : Table (Option Byte) := []
  farPoison : List Nat := []
  far : Table FarPort := []
  /-- cores whose far list is treated as empty since a link word could not be read (R305) -/
  farEmpty : List Nat := []
  gf : Table GfPort := []
  /-- requests to peer chips, the next transaction tag, and flits of this chip held by a settling route (R318) -/
  txns : List Txn := []
  nextTag : Nat := 0
  gfHeld : List Flit := []
  /-- route entries that settle, by BAR0 offset (R318) -/
  settling : List Nat := []
  /-- messages delivered to the management controller (R310) -/
  mgmtIn : List (Nat × List Byte) := []
  cad : CadSt := {}
  /-- group entries by 64 × engine + entry -/
  groups : Table (Option Group) := []
  /-- group words seen: kind, group, value (R345) -/
  words : List (Nat × Nat × Nat) := []
  /-- Bennex endpoints by 2 × link + end; links whose new traffic is held (R367) -/
  bx : Table BxEnd := []
  bxHeld : List Nat := []
  /-- flits retransmitted in a row by mesh link: 64 × die + 4 × router + direction (R414) -/
  mesh : Table Nat := []
  power : Power := {}
  /-- queues whose descriptor read waits for the host link (R378) -/
  hostWait : List Nat := []
  /-- queues within their hold-off: 1, or 2 with a message owed (R382) -/
  holdoff : Table Nat := []
  /-- commands posted and final records written, by queue (R425) -/
  posted : Table Nat := []
  finals : Table Nat := []
  /-- the HDM decoder: its base, and whether it is locked (R373) -/
  hdm : Option (Nat × Bool) := none
  heldAcc : List HeldAcc := []
  /-- frames in transit, and frames acknowledged but not yet linked, by borrower (R179) -/
  loans : List Loan := []
  gotFrames : Table (List (Bool × Nat)) := []
  bring : Bring := {}
  sec : Sec := {}
  /-- conserved messages by source die (R424) -/
  cons : Table Cons := []
  /-- VDD_CORE in mV, and whether the last AVSBus write has gone without an acknowledgement (R471) -/
  vddCore : Nat := 750
  avsHold : Bool := false
  /-- the I3C target's dynamic address (R476) -/
  i3cAddr : Option Nat := none
  deriving DecidableEq, Repr

/-- The machine at power-on, before any command. -/
def State.reset : State := {}

end Sys2Proof.Machine
end

