-- ==== Sys2Proof/Machine/Ops.lean ====
section
/-! DEFINITION. The named operations over the state: registers and their fields, the Marquetry map, the local map and
the targets of an address, raw storage, failed accesses, free values. -/

namespace Sys2Proof.Machine

/-- What a command answers. -/
abbrev Result := Host.Outcome State Fault Refusal

/-- An operation that reaches the CXL component registers, whose layout the spec does not give, is refused by name. -/
def orRefuse (o : Option State) : Result :=
  match o with
  | some s => .next s
  | none => .refused .cxlComponentRegister

/-! ### Registers -/

/-- BAR0 offset of the register of kind `k` at indices `idx`. -/
def regAddr (k : RegKind) (idx : List Nat) : Nat :=
  k.base + ((k.dims.zip idx).map (fun p => p.1.1 * p.2)).sum

/-- The instance of a kind that holds BAR0 offset `o`: the indices and the byte within the register. -/
def unIndex : List (Nat × Nat) → Nat → Nat → Option (List Nat × Nat)
  | [], size, d => if d < size then some ([], d) else none
  | (st, n) :: t, size, d =>
    if d / st < n then (unIndex t size (d % st)).map (fun r => (d / st :: r.1, r.2)) else none

/-- The register that holds BAR0 offset `o`. -/
def regAt (o : Nat) : Option (RegKind × List Nat × Nat) :=
  RegKind.all.findSome? (fun k =>
    if k.base ≤ o then (unIndex k.dims k.bytes (o - k.base)).map (fun r => (k, r.1, r.2)) else none)

/-- Reset values that the tables give by name: the spline revision of the die's stepping (R146), the biscuit totals of
R313 and R358, the save area of R451, the capability words of R363, firmware's and the fuses' values (R461). -/
def specialReset (k : RegKind) (idx : List Nat) : Nat :=
  match k, idx with
  | .splRevision, c :: _ =>
    let r := if Config.stepping (c / 16) = 0xB0 then 3 else 2
    r + 256 * r
  | .gfBiscTotal, [_, v] => let n := [1024, 1024, 2048, 64].getD v 0; n + 65536 * n
  | .bxBisc, [_, _, v] => [256, 256, 512, 32].getD v 0
  | .jigSaveBase, [c] => 0xFFFFF00000000000 + c * 2 ^ 32 + 0xFEC00000
  | .bxCapLocal, [x, e, w] => Config.fusedCap ((x + e) % 4) w
  | .thHotspot, [_, i] => Config.hotspotNbrA i * 2 ^ 26 + Config.hotspotNbrB i * 2 ^ 31
  | .mbAbi, _ => Config.mbAbiMinor
  | .mbFwVersion, _ => Config.fwVersion
  | .secStatus, _ => Config.testOpen % 2 * 8 + Config.svnFused % 256 * 2 ^ 16 + Config.keyRevoked % 4 * 2 ^ 24
  | _, _ => 0

/-- A register's reset value: its fields' values and the values the tables give by name. -/
def regReset (k : RegKind) (idx : List Nat) : Nat :=
  (k.fields.map (fun f => f.rst * 2 ^ f.lo)).sum + specialReset k idx

/-- The value a register holds. -/
def State.reg (s : State) (k : RegKind) (idx : List Nat) : Nat := tget (regReset k idx) s.regs (regAddr k idx)

def State.setReg (s : State) (k : RegKind) (idx : List Nat) (v : Nat) : State :=
  { s with regs := tset (regReset k idx) s.regs (regAddr k idx) v }

/-- A field of a register. -/
def State.get (s : State) (f : Fld) (idx : List Nat := []) : Nat := bits (s.reg f.kind idx) f.lo f.len

def State.put (s : State) (f : Fld) (idx : List Nat) (v : Nat) : State :=
  s.setReg f.kind idx (putBits (s.reg f.kind idx) f.lo f.len v)

def State.flag (s : State) (f : Fld) (idx : List Nat := []) : Bool := s.get f idx == 1

/-- A counter advanced by `n`, saturating at the field's largest value. -/
def State.bump (s : State) (f : Fld) (idx : List Nat) (n : Nat := 1) : State :=
  s.put f idx (sat f.len (s.get f idx + n))

/-- Several fields of registers written one after the other. -/
def State.puts (s : State) (l : List (Fld × List Nat × Nat)) : State := l.foldl (fun s x => s.put x.1 x.2.1 x.2.2) s

/-- A free value: the next number of the model's own counter. -/
def State.fresh (s : State) : Nat × State := (s.free, { s with free := s.free + 1 })

/-! ### Parts of the state by number -/

def State.core (s : State) (c : Nat) : CoreSt := tget {} s.cores c
def State.setCore (s : State) (c : Nat) (x : CoreSt) : State := { s with cores := tset {} s.cores c x }
def State.modCore (s : State) (c : Nat) (f : CoreSt → CoreSt) : State := s.setCore c (f (s.core c))

def CoreSt.slot (x : CoreSt) (k : Nat) : Option Slot := tget none x.slots k
def State.slot (s : State) (c k : Nat) : Option Slot := (s.core c).slot k
def CoreSt.setSlot (x : CoreSt) (k : Nat) (v : Option Slot) : CoreSt := { x with slots := tset none x.slots k v }
def State.setSlot (s : State) (c k : Nat) (v : Option Slot) : State := s.modCore c (·.setSlot k v)

/-- A change of a slot's command; nothing where the slot is free. -/
def State.modSlot (s : State) (c k : Nat) (f : Slot → Slot) : State :=
  match s.slot c k with
  | some v => s.setSlot c k (some (f v))
  | none => s

def UnitId.code : UnitId → Nat
  | .matrix => 0 | .vector => 1 | .rowstat => 2 | .attention => 3 | .nearbank => 4 | .kv => 5 | .collective => 6
  | .dma e => 8 + e

def UnitId.all : List UnitId :=
  [.matrix, .vector, .rowstat, .attention, .nearbank, .kv, .collective, .dma 0, .dma 1, .dma 2, .dma 3]

def CoreSt.queue (x : CoreSt) (u : UnitId) : List UEntry := tget [] x.uq u.code
def CoreSt.setQueue (x : CoreSt) (u : UnitId) (l : List UEntry) : CoreSt := { x with uq := tset [] x.uq u.code l }
def CoreSt.runs (x : CoreSt) (u : UnitId) : Option Running := tget none x.running u.code
def CoreSt.setRuns (x : CoreSt) (u : UnitId) (r : Option Running) : CoreSt :=
  { x with running := tset none x.running u.code r }

def State.eng (s : State) (c e : Nat) : DmaEng := tget {} s.dma (4 * c + e)
def State.setEng (s : State) (c e : Nat) (x : DmaEng) : State := { s with dma := tset {} s.dma (4 * c + e) x }

def State.run (s : State) (c n : Nat) : Option NbRun := tget none s.nbRun (32 * c + n)
def State.setRun (s : State) (c n : Nat) (r : Option NbRun) : State :=
  { s with nbRun := tset none s.nbRun (32 * c + n) r }
def State.nextRun (s : State) (c n : Nat) : Option NbRun := tget none s.nbNext (32 * c + n)
def State.setNextRun (s : State) (c n : Nat) (r : Option NbRun) : State :=
  { s with nbNext := tset none s.nbNext (32 * c + n) r }
def State.buf (s : State) (c n k : Nat) : NbrBuf := tget {} s.nbBuf (128 * c + 4 * n + k)
def State.setBuf (s : State) (c n k : Nat) (b : NbrBuf) : State :=
  { s with nbBuf := tset {} s.nbBuf (128 * c + 4 * n + k) b }

/-! ### The Marquetry map (R16 to R20) -/

def offDie (d : Nat) : Nat := 0x40 + d
def offCore (c : Nat) : Nat := 0x80 + c
def offChan (c n : Nat) : Nat := 0x100 + 32 * c + n
def offNbr (c n k : Nat) : Nat := 0x900 + 128 * c + 4 * n + k
def offDg (c n i : Nat) : Nat := 0x2900 + 320 * c + 10 * n + i
def offMod (x m : Nat) : Nat := 0x7900 + 16 * x + m
def offLane (x m l : Nat) : Nat := 0x7940 + 1088 * x + 68 * m + l
def offGfLane (p l : Nat) : Nat := 0x8A40 + 8 * p + l
def offFarLane (f l : Nat) : Nat := 0x8A80 + 8 * f + l
def offHostLane (l : Nat) : Nat := 0x8A90 + l
/-- Golfort ports 0 to 7, far ports 8 and 9, the host port 10. -/
def offPort (i : Nat) : Nat := 0x8AA0 + i

/-! The status codes of R16. -/
def stGood : Nat := 0
def stDegraded : Nat := 1
def stFused : Nat := 2
def stDefect : Nat := 3
def stFailed : Nat := 4
def stRetired : Nat := 5
def stOffline : Nat := 6
def stExcluded : Nat := 7
def stUnconn : Nat := 8

/-- An entry byte of a status and a cause. -/
def entry (status cause : Nat) : Byte := BitVec.ofNat 8 (16 * cause + status)
def statusOf (b : Byte) : Nat := b.toNat % 16
def causeOf (b : Byte) : Nat := b.toNat / 16

def State.ownAt (s : State) (off : Nat) : Byte := tget 0#8 s.own off
def State.setOwn (s : State) (off : Nat) (b : Byte) : State := { s with own := tset 0#8 s.own off b }

/-- R18: a status that makes a parent DEGRADED. -/
def notGood (st : Nat) : Bool := decide (1 ≤ st) && decide (st ≤ 5)
def usableSt (st : Nat) : Bool := decide (st ≤ 1)

/-- Some entry of a section's range is not GOOD. -/
def State.anyNotGood (s : State) (lo n : Nat) : Bool :=
  s.own.any (fun e => decide (lo ≤ e.1) && decide (e.1 < lo + n) && notGood (statusOf e.2))

/-- R18: the shown entry, from the own entry and the derived status. -/
def shownOf (own : Byte) (derived : Nat) : Byte :=
  let o := statusOf own
  if !usableSt o then own
  else if o < derived then entry derived 8 else own

/-- Lanes of a channel marked dead (R276). -/
def State.deadLanes (s : State) (c n : Nat) : Nat :=
  s.reg .slcDeadLanesLo [c, n] + s.reg .slcDeadLanesMid [c, n] * 2 ^ 64 +
    (s.reg .slcDeadLanesHi [c, n]) % 2 ^ 16 * 2 ^ 128

def popcount (n w : Nat) : Nat := ((List.range w).filter (fun i => bit n i)).length

/-- The erasure limit of a channel (R262). -/
def erasureLimit : Nat := 8

/-- The derived status of a channel (R18). -/
def State.chanDerived (s : State) (c n : Nat) : Nat :=
  if !usableSt (statusOf (s.ownAt (offDg c n 9))) || decide (erasureLimit < popcount (s.deadLanes c n) 144) then stFailed
  else if s.anyNotGood (offNbr c n 0) 4 || s.anyNotGood (offDg c n 0) 10 then stDegraded else stGood

def State.chanShown (s : State) (c n : Nat) : Byte := shownOf (s.ownAt (offChan c n)) (s.chanDerived c n)

def State.coreDerived (s : State) (c : Nat) : Nat :=
  if (List.range 32).any (fun n => notGood (statusOf (s.chanShown c n))) then stDegraded else stGood
def State.coreShown (s : State) (c : Nat) : Byte := shownOf (s.ownAt (offCore c)) (s.coreDerived c)

/-- A module is DEGRADED by a lane that is not GOOD, FAILED by more than four unusable lanes (R18). -/
def State.modDerived (s : State) (x m : Nat) : Nat :=
  let bad := (List.range 68).filter (fun l => !usableSt (statusOf (s.ownAt (offLane x m l))))
  if 4 < bad.length then stFailed
  else if s.anyNotGood (offLane x m 0) 68 then stDegraded else stGood
def State.modShown (s : State) (x m : Nat) : Byte := shownOf (s.ownAt (offMod x m)) (s.modDerived x m)

/-- A Golfort or far port is DEGRADED by a lane that is not GOOD or is EXCLUDED (R18); the host port by none. -/
def State.portDerived (s : State) (i : Nat) : Nat :=
  if i = 10 then stGood else
  let lo := if i < 8 then offGfLane i 0 else offFarLane (i - 8) 0
  if s.anyNotGood lo 8 || (List.range 8).any (fun l => statusOf (s.ownAt (lo + l)) == stExcluded) then stDegraded
  else stGood
def State.portShown (s : State) (i : Nat) : Byte := shownOf (s.ownAt (offPort i)) (s.portDerived i)

/-- The ports of a die: two Golfort ports, a far port on D1 and D3, the host port on D0 (R10). -/
def portsOf (d : Nat) : List Nat :=
  [2 * d, 2 * d + 1] ++ (if d = 1 then [8] else if d = 3 then [9] else if d = 0 then [10] else [])

def State.dieDerived (s : State) (d : Nat) : Nat :=
  if (List.range 16).any (fun k => notGood (statusOf (s.coreShown (16 * d + k)))) ||
     (portsOf d).any (fun i => notGood (statusOf (s.portShown i))) ||
     (List.range 16).any (fun m => notGood (statusOf (s.modShown d m)) ||
       notGood (statusOf (s.modShown ((d + 3) % 4) m)))
  then stDegraded else stGood
def State.dieShown (s : State) (d : Nat) : Byte := shownOf (s.ownAt (offDie d)) (s.dieDerived d)

/-! Usability (R17). A die is never made unusable by derivation. -/
def State.dieSt (s : State) (d : Nat) : Nat := statusOf (s.ownAt (offDie d))
def State.dieUsable (s : State) (d : Nat) : Bool := usableSt (s.dieSt d)
def State.coreUsable (s : State) (c : Nat) : Bool :=
  usableSt (statusOf (s.ownAt (offCore c))) && s.dieUsable (c / 16)
def State.chanUsable (s : State) (c n : Nat) : Bool :=
  usableSt (statusOf (s.chanShown c n)) && s.dieUsable (c / 16)
def State.nbrUsable (s : State) (c n k : Nat) : Bool :=
  usableSt (statusOf (s.ownAt (offNbr c n k))) && s.chanUsable c n
/-- The die a port lies on (R10). -/
def portDie (i : Nat) : Nat := if i < 8 then i / 2 else if i = 8 then 1 else if i = 9 then 3 else 0
def State.portUsable (s : State) (i : Nat) : Bool :=
  usableSt (statusOf (s.portShown i)) && s.dieUsable (portDie i)
/-- Link Xk is usable when both its dies are (R17). -/
def State.linkUsable (s : State) (x : Nat) : Bool := s.dieUsable x && s.dieUsable ((x + 1) % 4)

/-- The address status of a unit by its status and its die's (R45): 0 where it serves. -/
def addrStatus (st dst : Nat) : Nat :=
  if usableSt st && usableSt dst then 0
  else if st = stOffline ∨ (usableSt st ∧ dst = stOffline) then 0x21 else 0x20

/-! ### The local map (R25 to R31) -/

/-- What an address reaches. -/
inductive Target where
  | slice (c n off : Nat)
  | spad (c off : Nat)
  | acc (c off : Nat)
  | reg (off : Nat)
  | door (off : Nat)
  | far (f x : Nat)
  | host (x : Nat)
  | reserved
  | peer (chip : Nat)
  | noRoute
  deriving DecidableEq, Repr

/-- R28: what a local address reaches. -/
def targetOfLocal (l : Nat) : Target :=
  if l < 0x04000000000 then .slice (l / 2 ^ 32) (bits l 27 5) (bits l 0 27)
  else if l < 0x08000000000 then
    .slice (bits l 32 6) (bits l 8 5) (bits l 13 19 * 256 + bits l 0 8)
  else if l < 0x08040000000 then .spad (bits l 24 6) (bits l 0 24)
  else if l < 0x08048000000 then .acc (bits l 21 6) (bits l 0 21)
  else if l < 0x0C000000000 then .reserved
  else if l < 0x0C004000000 then .reg (l - 0x0C000000000)
  else if l < 0x0C010000000 then .reserved
  else if l < 0x0C011000000 then .door (l - 0x0C010000000)
  else if l < 0x40000000000 then .reserved
  else if l < 0x80000000000 then .far 0 (l - 0x40000000000)
  else if l < 0xC0000000000 then .far 1 (l - 0x80000000000)
  else .host (l - 0xC0000000000)

/-- R25, R26, R27: what a global address reaches. -/
def State.target (s : State) (a : Nat) : Target :=
  let chip := chipOf a
  let me := s.get F.glbChipId_id
  if chip = 0xFFFFF ∨ chip = me then targetOfLocal (localOf a)
  else if me = 0xFFFFF then .noRoute
  else .peer chip

/-- R30: the channel-linear local address of a channel offset. -/
def sliceAddr (c n off : Nat) : Nat := c * 2 ^ 32 + n * 2 ^ 27 + off

/-- The one storage address of a local address: the striped view is an alias of the linear one (R32). -/
def canon (l : Nat) : Nat :=
  match targetOfLocal l with
  | .slice c n off => sliceAddr c n off
  | _ => l

/-- The chip names this chip (R25, R26). -/
def State.isHere (s : State) (a : Nat) : Bool := chipOf a == 0xFFFFF || chipOf a == s.get F.glbChipId_id

/-! ### Raw storage -/

/-- A local address in a far window (R39). -/
def localFar (l : Nat) : Bool := decide (0x40000000000 ≤ l) && decide (l < 0xC0000000000)

/-- What a far device holds at an address that this part has not written: the device's own (R301, R306). -/
def State.farFill (s : State) (l : Nat) : Byte :=
  BitVec.ofNat 8 (Config.farByte (tget {} s.far (if l < 0x80000000000 then 0 else 1)).gen l)

def State.peek (s : State) (l : Nat) : Byte :=
  if localFar l then (tget none s.farMem l).getD (s.farFill l) else tget 0#8 s.mem (canon l)

/-- A byte written: its parity is written with it (R248). -/
def State.poke (s : State) (l : Nat) (b : Byte) : State :=
  if localFar l then { s with farMem := tset none s.farMem l (some b) }
  else { s with mem := tset 0#8 s.mem (canon l) b, badParity := nsDel s.badParity (canon l) }

/-- `n` bytes from local address `l`, little-endian. -/
def State.peekLE (s : State) (l : Nat) : Nat → Nat
  | 0 => 0
  | n + 1 => (s.peek l).toNat + 256 * s.peekLE (l + 1) n

def State.pokeLE (s : State) (l : Nat) : Nat → Nat → State
  | 0, _ => s
  | n + 1, v => (s.poke l (BitVec.ofNat 8 v)).pokeLE (l + 1) n (v / 256)

def State.pokes (s : State) (l : Nat) : List Byte → State
  | [] => s
  | b :: t => (s.poke l b).pokes (l + 1) t

def State.peeks (s : State) (l n : Nat) : List Byte := (List.range n).map (fun i => s.peek (l + i))

/-! ### Failed accesses (R45 to R47) -/

/-- The capture code of an address status (R53). -/
def captureCode (status : Nat) : Nat :=
  if status = 0x20 then 1 else if status = 0x21 then 2 else if status = 0x22 then 3 else 4

/-- R306: an access to a far window of this chip that failed under R45 counts at its port. -/
def State.farCount (s : State) (status addr : Nat) : State :=
  match s.target addr with
  | .far f _ => if status = 0x20 ∨ status = 0x21 then s.bump F.fpFailedCount_count [f] else s
  | _ => s

/-- R47: a failed access is counted and offered to the capture registers. -/
def State.addrError (s : State) (status master : Nat) (write : Bool) (addr : Nat) : State :=
  let s := (s.farCount status addr).bump F.glbAddrErrCount_count []
  if s.flag F.glbAddrErrStatus_valid then s.put F.glbAddrErrStatus_overflow [] 1
  else s.puts [(F.glbAddrErrStatus_valid, [], 1), (F.glbAddrErrStatus_code, [], captureCode status),
    (F.glbAddrErrStatus_masterId, [], master), (F.glbAddrErrStatus_write, [], if write then 1 else 0),
    (F.glbAddrErrAddr_address, [], addr)]

/-- R6: an access to an undefined offset or reserved space is counted, but not while D0 is in partial reset. -/
def State.unmapped (s : State) : State :=
  if s.get F.bruDieReset_active % 2 = 1 then s else s.bump F.glbUnmappedCount_count []

/-! ### The saved settings (R447) -/

/-- The registers whose settings the saved copy holds: dead lanes, spare maps, the profiles' floors, Bennex sparing, route
tables, the floor and the stagger of R408. -/
def savedKind : RegKind → Bool
  | .slcDeadLanesLo | .slcDeadLanesMid | .slcDeadLanesHi | .slcSpareMap | .slcRefreshCtl | .bxSpare | .gfRouteRegion
  | .gfRouteLocal | .pwrFloor | .pwrStagger => true
  | _ => false

def savedAt (o : Nat) : Bool :=
  match regAt o with
  | some (k, _) => savedKind k
  | none => false

/-- A write of the saved settings: to the copy that is not valid, and then the header switches. -/
def State.saveSettings (s : State) : State :=
  let c : SavedCopy :=
    { entries := s.own.filter (fun e => statusOf e.2 == stFailed || statusOf e.2 == stRetired)
      regs := s.regs.filter (fun e => savedAt e.1) }
  let k := 1 - s.sec.valid
  { s with sec := { s.sec with copies := tset {} s.sec.copies k c, valid := k, gen := s.sec.gen + 1 } }

/-- The copy that the header names. -/
def State.saved (s : State) : SavedCopy := tget {} s.sec.copies s.sec.valid

/-! ### Tensor elements -/

/-- The bytes of a run lie in this core's scratchpad. -/
def State.runInSpad (s : State) (c : Nat) (r : Nat × Nat) : Bool :=
  s.isHere r.1 && decide (spadBase + c * 2 ^ 24 ≤ localOf r.1) &&
    decide (localOf r.1 + r.2 ≤ spadBase + (c + 1) * 2 ^ 24)

def State.runInAcc (s : State) (c : Nat) (r : Nat × Nat) : Bool :=
  s.isHere r.1 && decide (accBase + c * 2 ^ 21 ≤ localOf r.1) &&
    decide (localOf r.1 + r.2 ≤ accBase + (c + 1) * 2 ^ 21)

/-- The tensor and its planes lie in this core's scratchpad (R225). -/
def State.inSpad (s : State) (c : Nat) (d : Desc) : Bool := d.allRuns.all (s.runInSpad c)

/-- The tensor lies in this core's accumulator store, on a 16-byte boundary. -/
def State.inAcc (s : State) (c : Nat) (d : Desc) : Bool :=
  d.split == 0 && d.base % 16 == 0 && d.dataRuns.all (s.runInAcc c)

/-- The entry of an accumulator store that a tensor starts at (R109). -/
def Desc.entry0 (d : Desc) : Nat := (localOf d.base - accBase) % 2 ^ 21 / 16

/-- The bits of element (r, i) as stored. -/
def State.elemCode (s : State) (d : Desc) (r i : Nat) : Nat :=
  let w := d.fmt.width
  let bo := i * w
  let j := bo / 8
  let n := (bo % 8 + w + 7) / 8
  let v := (List.range n).foldr (fun k acc => (s.peek (localOf (d.byteAddr r (j + k)))).toNat + 256 * acc) 0
  bits v (bo % 8) w

/-- The scale byte of an element. -/
def State.scaleCode (s : State) (d : Desc) (r i : Nat) : Nat := (s.peek (localOf (d.scaleAddr r i))).toNat

/-- The value of an element in any format but WSF (R54, R56). -/
def State.elem (s : State) (d : Desc) (r i : Nat) : Val :=
  let v := d.fmt.value (s.elemCode d r i)
  if d.fmt.isMx then scaled (s.scaleCode d r i) v else v

/-- Element code `v` written; bits of a neighbour in the same byte stay. -/
def State.setElemCode (s : State) (d : Desc) (r i v : Nat) : State :=
  let w := d.fmt.width
  let bo := i * w
  let j := bo / 8
  let n := (bo % 8 + w + 7) / 8
  let old := (List.range n).foldr (fun k acc => (s.peek (localOf (d.byteAddr r (j + k)))).toNat + 256 * acc) 0
  let new := putBits old (bo % 8) w v
  (List.range n).foldl (fun s k => s.poke (localOf (d.byteAddr r (j + k))) (BitVec.ofNat 8 (new / 256 ^ k))) s

/-! WSF elements of an accumulator store (R61, R68). -/
def accEntryAddr (c e : Nat) : Nat := accBase + c * 2 ^ 21 + 16 * e

def State.accGet (s : State) (c e : Nat) : Wsf :=
  ⟨BitVec.ofNat 128 (s.peekLE (accEntryAddr c e) 16), tget 0#8 s.accTags (c * 131072 + e)⟩

def State.accSet (s : State) (c e : Nat) (w : Wsf) : State :=
  let s := s.pokeLE (accEntryAddr c e) 16 w.n.toNat
  { s with accTags := tset 0#8 s.accTags (c * 131072 + e) w.tag }

/-- R113: an entry added to. -/
def State.accAdd (s : State) (c e : Nat) (w : Wsf) : State := s.accSet c e ((s.accGet c e).add w)

/-- A WSF element of a tensor: beside the store's tags where it lies in an accumulator store, with its tag plane
elsewhere (R222). -/
def State.wsfElem (s : State) (d : Desc) (r i : Nat) : Wsf :=
  let l := localOf (d.byteAddr r (16 * i))
  if localAcc l then s.accGet ((l - accBase) / 2 ^ 21) ((l - accBase) % 2 ^ 21 / 16)
  else ⟨BitVec.ofNat 128 (s.peekLE l 16), s.peek (localOf (d.tagAddr r i))⟩

def State.setWsfElem (s : State) (d : Desc) (r i : Nat) (w : Wsf) : State :=
  let l := localOf (d.byteAddr r (16 * i))
  if localAcc l then s.accSet ((l - accBase) / 2 ^ 21) ((l - accBase) % 2 ^ 21 / 16) w
  else (s.pokeLE l 16 w.n.toNat).poke (localOf (d.tagAddr r i)) w.tag

/-- One element written in a format that is neither microscaled nor WSF (R60). -/
def State.writeElem (s : State) (d : Desc) (r i : Nat) (v : Val) : State × BitVec 8 :=
  let x := d.fmt.write d.sat v
  (s.setElemCode d r i x.1, x.2)

/-- A block's position along its axis: elements `lo` to `hi - 1` share one scale (R224). -/
def blockSpans (origin n : Nat) : List (Nat × Nat) :=
  (List.range ((origin + n - 1) / 32 - origin / 32 + 1)).map (fun b =>
    let first := (origin / 32 + b) * 32
    (first - origin, min n (first + 32 - origin)))

/-- One microscaled block written: its scale byte and its own elements (R72). -/
def State.writeBlock (s : State) (d : Desc) (cells : List (Nat × Nat)) (vs : List Val) : State × BitVec 8 :=
  match cells with
  | [] => (s, 0#8)
  | (r0, i0) :: _ =>
    let b := mxBlock d.fmt vs
    let s := s.poke (localOf (d.scaleAddr r0 i0)) (BitVec.ofNat 8 b.1)
    ((cells.zip b.2.1).foldl (fun s x => s.setElemCode d x.1.1 x.1.2 x.2) s, b.2.2)

/-- Rows `r0` to `r1 - 1` of a tensor written from values, in any format but WSF (R60, R72). -/
def State.writeTensor (s : State) (d : Desc) (r0 r1 : Nat) (f : Nat → Nat → Val) : State × BitVec 8 :=
  let rows := (List.range (r1 - r0)).map (· + r0)
  if d.fmt.isMx then
    let blocks : List (List (Nat × Nat)) :=
      if d.blockAxis = 0 then
        rows.flatMap (fun r => (blockSpans d.axisOrigin d.cols).map (fun b =>
          (List.range (b.2 - b.1)).map (fun i => (r, b.1 + i))))
      else
        (List.range d.cols).flatMap (fun i => (blockSpans d.axisOrigin d.rows).map (fun b =>
          (List.range (b.2 - b.1)).map (fun r => (b.1 + r, i))))
    blocks.foldl (fun acc cells =>
      let x := acc.1.writeBlock d cells (cells.map (fun q => f q.1 q.2))
      (x.1, acc.2 ||| x.2)) (s, 0#8)
  else
    rows.foldl (fun acc r => (List.range d.cols).foldl (fun acc i =>
      let x := acc.1.writeElem d r i (f r i)
      (x.1, acc.2 ||| x.2)) acc) (s, 0#8)

end Sys2Proof.Machine
end

