-- ==== Sys2Proof/Machine/Operands.lean ====
section
/-! DEFINITION. Operand forms of the instructions: scalar registers, predicates, descriptors, immediates, the operand
numbers of R240, the outcome of a check at a queue exit (R239), and the footprint an instruction has for R80, R244 and
R246. -/

namespace Sys2Proof.Machine

/-- s0 reads as zero (R78). -/
def Slot.s (sl : Slot) (r : SReg) : Word := if r = 0 then 0#64 else tget 0#64 sl.sregs r.val

/-- A write to s0 is discarded (R215). -/
def Slot.setS (sl : Slot) (r : SReg) (v : Word) : Slot :=
  if r = 0 then sl else { sl with sregs := tset 0#64 sl.sregs r.val v }

/-- p0 is always true (R78). -/
def Slot.p (sl : Slot) (r : PReg) : Bool := r == 0 || sl.preds.getLsbD r.val

/-- A write to p0 is discarded (R215). -/
def Slot.setP (sl : Slot) (r : PReg) (v : Bool) : Slot :=
  if r = 0 then sl
  else { sl with preds := BitVec.ofNat 8 (putBits sl.preds.toNat r.val 1 (if v then 1 else 0)) }

/-- The image a descriptor holds; an invalid descriptor holds none. No valid image is zero, because ROWS is not. -/
def Slot.image (sl : Slot) (t : TReg) : Option Image :=
  let im := tget 0#512 sl.tds t.val
  if im = 0#512 then none else some im

def Slot.setImage (sl : Slot) (t : TReg) (im : Image) : Slot := { sl with tds := tset 0#512 sl.tds t.val im }

/-- A valid descriptor's fields. -/
def Slot.td (sl : Slot) (t : TReg) : Option Desc := (sl.image t).bind Desc.ofImage

/-- R214: the guard of an instruction. -/
def Slot.guard (sl : Slot) (g : Issue) : Bool := sl.p g.pred != g.pn

def ImmB.value : ImmB → Word
  | .imm v => v.signExtend 64
  | .ext v => v

def CmpB.value (sl : Slot) : CmpB → Word
  | .reg r => sl.s r
  | .imm v => v.signExtend 64

def SyncN.value (sl : Slot) : SyncN → Nat
  | .imm v => v.toNat
  | .reg r => (sl.s r).toNat % 2 ^ 32

/-- The address s[SA] + OFF of the memory and descriptor classes, modulo 2^64 (R217, R220). -/
def memAddr (sl : Slot) (sa : SReg) {w : Nat} (off : BitVec w) : Nat := (sl.s sa + off.signExtend 64).toNat

/-! ### Outcomes at a queue exit (R239) -/

/-- An exception that names an operand (R240). -/
def excDetail (status operand : Nat) : Detail := { status := status, idx := operand }
/-- A refusal in a unit's state (R96). -/
def refusal (cls state index : Nat) : Detail := { status := 0x18, cls := cls, ust := state, idx := index }
/-- A unit that is not usable (R98). -/
def unusable (cls index : Nat) : Detail := { status := 0x19, cls := cls, ust := 0xFF, idx := index }

def xIllegal : Nat := 0x10
def xFetch : Nat := 0x11
def xDescriptor : Nat := 0x12
def xFormat : Nat := 0x13
def xShape : Nat := 0x14
def xAnchor : Nat := 0x15
def xTable : Nat := 0x16

/-- What the checks at the exit of an issue queue decide: a stop, waiting in the queue, or going on. -/
inductive Exit where
  | stop (d : Detail)
  | wait
  | go
  deriving DecidableEq, Repr

/-- The first check that does not pass decides (R239). -/
def firstOf : List (Unit → Exit) → Exit
  | [] => .go
  | f :: t => match f () with
    | .go => firstOf t
    | r => r

def require (ok : Bool) (status operand : Nat) : Exit := if ok then .go else .stop (excDetail status operand)

/-- Step 4: the descriptors an instruction reads, with their operand numbers. -/
def needTds (sl : Slot) (l : List (Nat × TReg)) : Exit :=
  match l.find? (fun p => (sl.td p.2).isNone) with
  | some p => .stop (excDetail xDescriptor p.1)
  | none => .go

/-- The banks that a run of scratchpad bytes of core `c` lies in. -/
def runBanks (c : Nat) (r : Nat × Nat) : List Nat :=
  let l := localOf r.1
  let lo := spadBase + c * 2 ^ 24
  if r.2 = 0 ∨ l < lo ∨ lo + 2 ^ 24 ≤ l then []
  else (List.range ((l + r.2 - 1 - lo) / 2 ^ 19 - (l - lo) / 2 ^ 19 + 1)).map (· + (l - lo) / 2 ^ 19)

/-- R244, R246: the ownership check over every bank that the runs touch: a DMA bank refuses, the lowest first; a bank in
HANDOVER makes the instruction wait. -/
def State.bankCheck (s : State) (c : Nat) (runs : List (Nat × Nat)) : Exit :=
  let banks := runs.flatMap (runBanks c)
  let dma := s.get F.spadOwner_dma [c]
  let hand := s.get F.spadOwner_handover [c]
  match (List.range 32).find? (fun b => bit dma b && !bit hand b && banks.contains b) with
  | some b => .stop (refusal 0x0A 1 b)
  | none => if banks.any (bit hand) then .wait else .go

/-- Bytes that runs read: a scratchpad byte of bad parity among them (R249), at its local address. -/
def State.parityHit (s : State) (runs : List (Nat × Nat)) : Option Nat :=
  s.badParity.find? (fun a => runs.any (fun r => decide (localOf r.1 ≤ a) && decide (a < localOf r.1 + r.2)))

/-! ### Footprints (R80) -/

/-- What an instruction reads and writes: scalar registers, predicates, descriptors, and runs of bytes (true for a
write), by local address where the run lies on this chip. -/
structure Foot where
  sr : List Nat := []
  sw : List Nat := []
  pr : List Nat := []
  pw : List Nat := []
  tr : List Nat := []
  tw : List Nat := []
  mem : List (Bool × Nat × Nat) := []
  deriving DecidableEq, Repr

def shares (a b : List Nat) : Bool := a.any (fun x => b.contains x)

/-- Two runs touch one 256-byte block. -/
def sameBlock (a b : Nat × Nat) : Bool :=
  a.2 != 0 && b.2 != 0 && decide (a.1 / 256 ≤ (b.1 + b.2 - 1) / 256) && decide (b.1 / 256 ≤ (a.1 + a.2 - 1) / 256)

/-- R80: the conflict of an earlier instruction with a later one. -/
def Foot.conflict (a b : Foot) : Bool :=
  shares a.sw (b.sr ++ b.sw) || shares b.sw a.sr ||
  shares a.pw (b.pr ++ b.pw) || shares b.pw a.pr ||
  shares a.tw (b.tr ++ b.tw) || shares b.tw a.tr ||
  a.mem.any (fun x => b.mem.any (fun y => (x.1 || y.1) && sameBlock x.2 y.2))

def rdRuns (l : List (Nat × Nat)) : List (Bool × Nat × Nat) := l.map (fun r => (false, r.1, r.2))
def wrRuns (l : List (Nat × Nat)) : List (Bool × Nat × Nat) := l.map (fun r => (true, r.1, r.2))

/-- The runs of a descriptor, none where it is invalid. -/
def Slot.runs (sl : Slot) (t : TReg) : List (Nat × Nat) :=
  match sl.td t with
  | some d => d.allRuns
  | none => []

def srs (l : List SReg) : List Nat := (l.filter (· != 0)).map Fin.val
def trs (l : List TReg) : List Nat := l.map Fin.val

end Sys2Proof.Machine
end

