-- ==== Sys2Proof/Machine/Isa.lean ====
section
/-! DEFINITION. What the encoding tables say of each instruction: its class and operation codes (R212, R215 to R235), its unit,
its length and its level (R236), and the operands that are illegal (R213). -/

namespace Sys2Proof.Machine

/-- MAJOR and MINOR of an instruction; none for a command that is no instruction. -/
def opcodeOf : Instr → Option (Nat × Nat)
  | .nop .. => some (0x00, 0x00)
  | .endCmd .. => some (0x00, 0x01)
  | .fence .. => some (0x00, 0x02)
  | .srd .. => some (0x00, 0x03)
  | .add .. => some (0x01, 0x00)
  | .sub .. => some (0x01, 0x01)
  | .and .. => some (0x01, 0x02)
  | .or .. => some (0x01, 0x03)
  | .xor .. => some (0x01, 0x04)
  | .shl .. => some (0x01, 0x05)
  | .shr .. => some (0x01, 0x06)
  | .sra .. => some (0x01, 0x07)
  | .mul .. => some (0x01, 0x08)
  | .mulhu .. => some (0x01, 0x09)
  | .min .. => some (0x01, 0x0A)
  | .max .. => some (0x01, 0x0B)
  | .minu .. => some (0x01, 0x0C)
  | .maxu .. => some (0x01, 0x0D)
  | .fadd .. => some (0x01, 0x10)
  | .fsub .. => some (0x01, 0x11)
  | .fmul .. => some (0x01, 0x12)
  | .fmin .. => some (0x01, 0x13)
  | .fmax .. => some (0x01, 0x14)
  | .i2f .. => some (0x01, 0x18)
  | .f2i .. => some (0x01, 0x19)
  | .addImm .. => some (0x02, 0x00)
  | .subImm .. => some (0x02, 0x01)
  | .andImm .. => some (0x02, 0x02)
  | .orImm .. => some (0x02, 0x03)
  | .xorImm .. => some (0x02, 0x04)
  | .shlImm .. => some (0x02, 0x05)
  | .shrImm .. => some (0x02, 0x06)
  | .sraImm .. => some (0x02, 0x07)
  | .mulImm .. => some (0x02, 0x08)
  | .mulhuImm .. => some (0x02, 0x09)
  | .minImm .. => some (0x02, 0x0A)
  | .maxImm .. => some (0x02, 0x0B)
  | .minuImm .. => some (0x02, 0x0C)
  | .maxuImm .. => some (0x02, 0x0D)
  | .faddImm .. => some (0x02, 0x10)
  | .fsubImm .. => some (0x02, 0x11)
  | .fmulImm .. => some (0x02, 0x12)
  | .fminImm .. => some (0x02, 0x13)
  | .fmaxImm .. => some (0x02, 0x14)
  | .i2fImm .. => some (0x02, 0x18)
  | .f2iImm .. => some (0x02, 0x19)
  | .eq .. => some (0x03, 0x00)
  | .ne .. => some (0x03, 0x01)
  | .lt .. => some (0x03, 0x02)
  | .le .. => some (0x03, 0x03)
  | .ltu .. => some (0x03, 0x04)
  | .leu .. => some (0x03, 0x05)
  | .feq .. => some (0x03, 0x08)
  | .fne .. => some (0x03, 0x09)
  | .flt .. => some (0x03, 0x0A)
  | .fle .. => some (0x03, 0x0B)
  | .pand .. => some (0x04, 0x00)
  | .por .. => some (0x04, 0x01)
  | .pxor .. => some (0x04, 0x02)
  | .pandn .. => some (0x04, 0x03)
  | .br .. => some (0x08, 0x00)
  | .jr .. => some (0x08, 0x01)
  | .ld8 .. => some (0x0C, 0x00)
  | .ld16 .. => some (0x0C, 0x01)
  | .ld32 .. => some (0x0C, 0x02)
  | .ld64 .. => some (0x0C, 0x03)
  | .lds8 .. => some (0x0C, 0x04)
  | .lds16 .. => some (0x0C, 0x05)
  | .lds32 .. => some (0x0C, 0x06)
  | .st8 .. => some (0x0C, 0x08)
  | .st16 .. => some (0x0C, 0x09)
  | .st32 .. => some (0x0C, 0x0A)
  | .st64 .. => some (0x0C, 0x0B)
  | .ataddI32 .. => some (0x0C, 0x10)
  | .ataddI64 .. => some (0x0C, 0x11)
  | .ataddF32 .. => some (0x0C, 0x12)
  | .ataddBf16 .. => some (0x0C, 0x13)
  | .ataddWsf .. => some (0x0C, 0x14)
  | .tdld .. => some (0x10, 0x00)
  | .tdst .. => some (0x10, 0x01)
  | .tdset .. => some (0x10, 0x02)
  | .tdcp .. => some (0x10, 0x03)
  | .tdinv .. => some (0x10, 0x04)
  | .dmaq .. => some (0x14, 0x00)
  | .mma .. => some (0x18, 0x00)
  | .macc .. => some (0x18, 0x01)
  | .mzero .. => some (0x18, 0x02)
  | .mcvt .. => some (0x18, 0x03)
  | .vadd .. => some (0x1C, 0x00)
  | .vsub .. => some (0x1C, 0x01)
  | .vmul .. => some (0x1C, 0x02)
  | .vfma .. => some (0x1C, 0x03)
  | .vmin .. => some (0x1C, 0x04)
  | .vmax .. => some (0x1C, 0x05)
  | .vabs .. => some (0x1C, 0x06)
  | .vneg .. => some (0x1C, 0x07)
  | .vscale .. => some (0x1C, 0x08)
  | .vcmp .. => some (0x1C, 0x09)
  | .vsel .. => some (0x1C, 0x0A)
  | .vcvt .. => some (0x1C, 0x0B)
  | .vbcast .. => some (0x1C, 0x0C)
  | .vrsum .. => some (0x1C, 0x10)
  | .vrmax .. => some (0x1C, 0x11)
  | .vrmin .. => some (0x1C, 0x12)
  | .spl .. => some (0x1D, 0x00)
  | .spld .. => some (0x1D, 0x01)
  | .spsw .. => some (0x1D, 0x02)
  | .rstat .. => some (0x1E, 0x00)
  | .rstatc .. => some (0x1E, 0x01)
  | .astep .. => some (0x20, 0x00)
  | .amax .. => some (0x20, 0x01)
  | .aexp .. => some (0x20, 0x02)
  | .afin .. => some (0x20, 0x03)
  | .amrg .. => some (0x20, 0x04)
  | .nbmode .. => some (0x24, 0x00)
  | .nbseq .. => some (0x24, 0x01)
  | .nbload .. => some (0x24, 0x02)
  | .nbrun .. => some (0x24, 0x03)
  | .kvopen .. => some (0x28, 0x00)
  | .kvapp .. => some (0x28, 0x01)
  | .kvseal .. => some (0x28, 0x02)
  | .kvfree .. => some (0x28, 0x03)
  | .cform .. => some (0x2C, 0x00)
  | .crun .. => some (0x2C, 0x01)
  | .cleave .. => some (0x2C, 0x02)
  | .semsig .. => some (0x30, 0x00)
  | .semsigr .. => some (0x30, 0x01)
  | .semwait .. => some (0x30, 0x02)
  | .evwait .. => some (0x30, 0x03)
  | .evset .. => some (0x30, 0x04)
  | .twait .. => some (0x30, 0x05)
  | _ => none

/-- The guard and the core of an instruction. -/
def issueOf : Instr → Option Issue
  | .nop g => some g
  | .endCmd g => some g
  | .fence g .. => some g
  | .srd g .. => some g
  | .add g .. => some g
  | .sub g .. => some g
  | .and g .. => some g
  | .or g .. => some g
  | .xor g .. => some g
  | .shl g .. => some g
  | .shr g .. => some g
  | .sra g .. => some g
  | .mul g .. => some g
  | .mulhu g .. => some g
  | .min g .. => some g
  | .max g .. => some g
  | .minu g .. => some g
  | .maxu g .. => some g
  | .fadd g .. => some g
  | .fsub g .. => some g
  | .fmul g .. => some g
  | .fmin g .. => some g
  | .fmax g .. => some g
  | .i2f g .. => some g
  | .f2i g .. => some g
  | .addImm g .. => some g
  | .subImm g .. => some g
  | .andImm g .. => some g
  | .orImm g .. => some g
  | .xorImm g .. => some g
  | .shlImm g .. => some g
  | .shrImm g .. => some g
  | .sraImm g .. => some g
  | .mulImm g .. => some g
  | .mulhuImm g .. => some g
  | .minImm g .. => some g
  | .maxImm g .. => some g
  | .minuImm g .. => some g
  | .maxuImm g .. => some g
  | .faddImm g .. => some g
  | .fsubImm g .. => some g
  | .fmulImm g .. => some g
  | .fminImm g .. => some g
  | .fmaxImm g .. => some g
  | .i2fImm g .. => some g
  | .f2iImm g .. => some g
  | .eq g .. => some g
  | .ne g .. => some g
  | .lt g .. => some g
  | .le g .. => some g
  | .ltu g .. => some g
  | .leu g .. => some g
  | .feq g .. => some g
  | .fne g .. => some g
  | .flt g .. => some g
  | .fle g .. => some g
  | .pand g .. => some g
  | .por g .. => some g
  | .pxor g .. => some g
  | .pandn g .. => some g
  | .br g .. => some g
  | .jr g .. => some g
  | .ld8 g .. => some g
  | .ld16 g .. => some g
  | .ld32 g .. => some g
  | .ld64 g .. => some g
  | .lds8 g .. => some g
  | .lds16 g .. => some g
  | .lds32 g .. => some g
  | .st8 g .. => some g
  | .st16 g .. => some g
  | .st32 g .. => some g
  | .st64 g .. => some g
  | .ataddI32 g .. => some g
  | .ataddI64 g .. => some g
  | .ataddF32 g .. => some g
  | .ataddBf16 g .. => some g
  | .ataddWsf g .. => some g
  | .tdld g .. => some g
  | .tdst g .. => some g
  | .tdset g .. => some g
  | .tdcp g .. => some g
  | .tdinv g .. => some g
  | .dmaq g .. => some g
  | .mma g .. => some g
  | .macc g .. => some g
  | .mzero g .. => some g
  | .mcvt g .. => some g
  | .vadd g .. => some g
  | .vsub g .. => some g
  | .vmul g .. => some g
  | .vfma g .. => some g
  | .vmin g .. => some g
  | .vmax g .. => some g
  | .vabs g .. => some g
  | .vneg g .. => some g
  | .vscale g .. => some g
  | .vcmp g .. => some g
  | .vsel g .. => some g
  | .vcvt g .. => some g
  | .vbcast g .. => some g
  | .vrsum g .. => some g
  | .vrmax g .. => some g
  | .vrmin g .. => some g
  | .spl g .. => some g
  | .spld g .. => some g
  | .spsw g .. => some g
  | .rstat g .. => some g
  | .rstatc g .. => some g
  | .astep g .. => some g
  | .amax g .. => some g
  | .aexp g .. => some g
  | .afin g .. => some g
  | .amrg g .. => some g
  | .nbmode g .. => some g
  | .nbseq g .. => some g
  | .nbload g .. => some g
  | .nbrun g .. => some g
  | .kvopen g .. => some g
  | .kvapp g .. => some g
  | .kvseal g .. => some g
  | .kvfree g .. => some g
  | .cform g .. => some g
  | .crun g .. => some g
  | .cleave g .. => some g
  | .semsig g .. => some g
  | .semsigr g .. => some g
  | .semwait g .. => some g
  | .evwait g .. => some g
  | .evset g .. => some g
  | .twait g .. => some g
  | _ => none

/-- The unit that executes a class of instructions (R212); none for a sequencer class. -/
def unitOf : Instr → Option UnitId
  | .dmaq _ e .. => some (.dma e)
  | i => match (opcodeOf i).map Prod.fst with
    | some 0x18 => some .matrix
    | some 0x1C | some 0x1D => some .vector
    | some 0x1E => some .rowstat
    | some 0x20 => some .attention
    | some 0x24 => some .nearbank
    | some 0x28 => some .kv
    | some 0x2C => some .collective
    | _ => none

/-- Words of an instruction in bytes (R211): with an extension word 16. -/
def lengthOf : Instr → Nat
  | .astep .. | .amax .. | .aexp .. => 16
  | .addImm _ _ _ b | .subImm _ _ _ b | .andImm _ _ _ b | .orImm _ _ _ b | .xorImm _ _ _ b | .shlImm _ _ _ b
  | .shrImm _ _ _ b | .sraImm _ _ _ b | .mulImm _ _ _ b | .mulhuImm _ _ _ b | .minImm _ _ _ b | .maxImm _ _ _ b
  | .minuImm _ _ _ b | .maxuImm _ _ _ b | .faddImm _ _ _ b | .fsubImm _ _ _ b | .fmulImm _ _ _ b | .fminImm _ _ _ b
  | .fmaxImm _ _ _ b | .i2fImm _ _ _ b | .f2iImm _ _ _ b => match b with | .imm _ => 8 | .ext _ => 16
  | _ => 8

def isImmCmp : CmpB → Bool
  | .reg _ => false
  | .imm _ => true

def isScalarB : VecB → Bool
  | .tensor _ => false
  | .scalar _ => true

/-- R236: the level of an instruction as a whole. -/
def levelOf : Instr → Nat
  | .ataddI32 .. | .ataddI64 .. | .ataddF32 .. | .ataddBf16 .. | .spld .. | .spsw .. | .astep .. | .afin .. | .amrg .. | .kvopen .. | .kvapp .. | .kvseal .. | .kvfree .. | .cform .. | .crun .. | .cleave .. | .twait .. => 2
  | .ataddWsf .. | .rstatc .. | .amax .. | .aexp .. | .nbmode .. | .nbseq .. | .nbload .. | .nbrun .. => 3
  | _ => 1

/-- R213, R145, R236: the operand number of what makes an instruction illegal in a context: 0 for the word as a whole. -/
def illegalOperand (sl : Slot) (i : Instr) : Option Nat :=
  if sl.level < levelOf i then some 0
  else match i with
    | .fence _ mask => if mask = 0#5 then some 1 else none
    | .srd _ _ sreg => if 8 < sreg.toNat then some 2 else none
    | .feq _ _ _ b | .fne _ _ _ b | .flt _ _ _ b | .fle _ _ _ b => if isImmCmp b then some 4 else none
    | .ataddWsf _ sr .. => if sr.val % 2 = 1 then some 1 else none
    | .tdset _ _ dw _ => if 6 ≤ dw.val then some 2 else none
    | .vscale _ _ _ b => if isScalarB b then none else some 5
    | .vbcast _ _ b => if isScalarB b then none else some 5
    | .vcmp _ _ _ _ rel => if 6 ≤ rel.val then some 6 else none
    | .spl _ _ _ fn _ =>
      let level := if fn.val = 2 then 3 else if 0xC ≤ fn.val then 2 else 1
      if sl.level < level ∨ (sl.compat ∧ fn.val = 2) then some 3 else none
    | .rstat _ _ _ partl .. => if partl ∧ sl.level < 3 then some 3 else none
    | .afin _ _ _ _ tm => if tm.isSome ∧ sl.level < 3 then some 5 else none
    | .nbmode _ _ mode => if mode.val = 3 then some 2 else none
    | _ => none

/-- MAJOR and MINOR of a stop's instruction in its detail (R240). -/
def Detail.named (d : Detail) (i : Instr) : Detail :=
  match opcodeOf i with
  | some (ma, mi) => { d with major := ma, minor := mi }
  | none => d

end Sys2Proof.Machine
end

