-- ==== Sys2Proof/Machine/Flags.lean ====
section
/-! DEFINITION. The scalar arithmetic of the sequencer and the arithmetic flags it sets (R215, R70). -/

namespace Sys2Proof.Machine

/-- Flags set on a context; they are sticky (R70). -/
def Slot.orFlags (sl : Slot) (f : BitVec 8) : Slot := { sl with aflags := sl.aflags ||| f }

def State.orFlags (s : State) (c k : Nat) (f : BitVec 8) : State := s.modSlot c k (·.orFlags f)

/-! Integer operations wrap modulo 2^64; shifts use bits [5:0] of b (R215). -/
def aluAdd (a b : Word) : Word := a + b
def aluSub (a b : Word) : Word := a - b
def aluAnd (a b : Word) : Word := a &&& b
def aluOr (a b : Word) : Word := a ||| b
def aluXor (a b : Word) : Word := a ^^^ b
def aluShl (a b : Word) : Word := a <<< (b.toNat % 64)
def aluShr (a b : Word) : Word := a >>> (b.toNat % 64)
def aluSra (a b : Word) : Word := a.sshiftRight (b.toNat % 64)
def aluMul (a b : Word) : Word := a * b
def aluMulhu (a b : Word) : Word := BitVec.ofNat 64 (a.toNat * b.toNat / 2 ^ 64)
def aluMin (a b : Word) : Word := if b.toInt < a.toInt then b else a
def aluMax (a b : Word) : Word := if a.toInt < b.toInt then b else a
def aluMinu (a b : Word) : Word := if b.toNat < a.toNat then b else a
def aluMaxu (a b : Word) : Word := if a.toNat < b.toNat then b else a

/-- The FP32 operand in bits [31:0] of a register. -/
def fpOf (a : Word) : Val := ofFp32 (a.toNat % 2 ^ 32)

/-- An FP32 result in bits [31:0], with [63:32] zero, and its flags (R59, R60, R70). -/
def fpResult (ops : List Val) (r : Val) : Word × BitVec 8 :=
  let x := toFp32 r
  (BitVec.ofNat 64 x.1, x.2 ||| flagOp ops r)

def aluFadd (a b : Word) : Word × BitVec 8 := fpResult [fpOf a, fpOf b] ((fpOf a).add (fpOf b))
def aluFsub (a b : Word) : Word × BitVec 8 := fpResult [fpOf a, fpOf b] ((fpOf a).sub (fpOf b))
def aluFmul (a b : Word) : Word × BitVec 8 := fpResult [fpOf a, fpOf b] ((fpOf a).mul (fpOf b))

/-- MIN and MAX of values, NaN if either is NaN, −0 ranking below +0 (R130). -/
def valMin (a b : Val) : Val := if a.isNan || b.isNan then .nan else if b.rankLt a then b else a
def valMax (a b : Val) : Val := if a.isNan || b.isNan then .nan else if a.rankLt b then b else a

def aluFmin (a b : Word) : Word × BitVec 8 := fpResult [fpOf a, fpOf b] (valMin (fpOf a) (fpOf b))
def aluFmax (a b : Word) : Word × BitVec 8 := fpResult [fpOf a, fpOf b] (valMax (fpOf a) (fpOf b))

/-- I2F rounds once. -/
def aluI2f (a : Word) : Word × BitVec 8 := fpResult [] (Val.ofInt a.toInt)

/-- F2I rounds to nearest even and saturates; a NaN gives 0x8000_0000_0000_0000 (R215, R60). -/
def aluF2i (a : Word) : Word × BitVec 8 :=
  let x := writeInt 64 (fpOf a)
  (BitVec.ofNat 64 x.1, x.2 ||| flagOp [fpOf a] Val.zero)

/-! Compares. An unordered pair gives false, except FNE (R215). -/
def cmpEq (a b : Word) : Bool := a == b
def cmpNe (a b : Word) : Bool := a != b
def cmpLt (a b : Word) : Bool := decide (a.toInt < b.toInt)
def cmpLe (a b : Word) : Bool := decide (a.toInt ≤ b.toInt)
def cmpLtu (a b : Word) : Bool := decide (a.toNat < b.toNat)
def cmpLeu (a b : Word) : Bool := decide (a.toNat ≤ b.toNat)
def fcmpFlags (a b : Word) : BitVec 8 := flagOp [fpOf a, fpOf b] Val.zero
def cmpFeq (a b : Word) : Bool := (fpOf a).eq (fpOf b)
def cmpFne (a b : Word) : Bool := !(fpOf a).eq (fpOf b)
def cmpFlt (a b : Word) : Bool := (fpOf a).lt (fpOf b)
def cmpFle (a b : Word) : Bool := (fpOf a).le (fpOf b)

end Sys2Proof.Machine
end

