-- ==== Sys2Proof/Machine/MatrixOps.lean ====
section
/-! DEFINITION. The matrix array's checks and arithmetic (R107 to R115). -/

namespace Sys2Proof.Machine

/-- The narrow float formats of R107. -/
def isNarrow (f : Fmt) : Bool := f == .e4m3 || f == .e5m2 || f.isMx
def isHalf (f : Fmt) : Bool := f == .bf16 || f == .fp16

/-- R107: a weight format pairs with an activation format. -/
def pairOk (w x : Fmt) : Bool :=
  (isNarrow w && isNarrow x) || (w == .int8 && x == .int8) || (isHalf w && (isNarrow x || isHalf x)) ||
  (isNarrow w && isHalf x)

/-- A format that can be an operand of a matrix product at all. -/
def mmaFmt (f : Fmt) : Bool := isNarrow f || isHalf f || f == .int8

/-- Twice the row period P of R107. -/
def rowPeriod2 (w x : Fmt) : Nat :=
  if w == .mxE2m1 && x == .mxE2m1 then 1 else if isHalf w || isHalf x then 8 else 2

/-- The term of one 32-element group: exact products summed, scales applied, placed on the grid (R111, R112). -/
def groupTerm (ps : List Val) (ew ex : Option Nat) (a : Int) : Wsf :=
  let r := sumTerms ps
  let bad (e : Option Nat) : Bool := e == some 255
  let tag := r.2 ||| (if bad ew || bad ex then tagNan else 0#8)
  if tag ≠ 0#8 then ⟨0#128, tag⟩
  else
    let sh (e : Option Nat) : Int := match e with | some c => (c : Int) - 127 | none => 0
    Wsf.ofTerm 92 a (r.1.scale2 (sh ew + sh ex))

/-- The sum of the group terms of one output over K elements: the term limit of the column bus, the tags ORed, and
INVALID where a NAN tag is set (R111, R112, R70). -/
def dotTerms (k : Nat) (w x : Nat → Val) (ew ex : Nat → Option Nat) (a : Int) : Wsf × BitVec 8 :=
  (List.range ((k + 31) / 32)).foldl (fun acc g =>
    let ps := (List.range (min 32 (k - 32 * g))).map (fun j => (w (32 * g + j)).mul (x (32 * g + j)))
    let t := groupTerm ps (ew g) (ex g) a
    (acc.1.add t, acc.2 ||| (if t.tag.getLsbD 0 then flInvalid else 0#8))) (Wsf.zero, 0#8)

/-- An element's value without its scale. -/
def State.rawElem (s : State) (d : Desc) (r i : Nat) : Val := d.fmt.value (s.elemCode d r i)

/-- R109 to R112: output column `n` of activation row `m`. -/
def State.mmaCell (s : State) (dw dx : Desc) (a : Int) (m n : Nat) : Wsf × BitVec 8 :=
  dotTerms dw.rows (fun k => s.rawElem dw k n) (fun k => s.rawElem dx m k)
    (fun g => if dw.fmt.isMx then some (s.scaleCode dw (32 * g) n) else none)
    (fun g => if dx.fmt.isMx then some (s.scaleCode dx m (32 * g)) else none) a

/-- R113: a row committed: all its entries written, or added with ACC = 1, in one operation. -/
def State.commitRow (s : State) (c : Nat) (dw dx dt : Desc) (acc : Bool) (m : Nat) : State × BitVec 8 :=
  (List.range dw.cols).foldl (fun st n =>
    let v := s.mmaCell dw dx dt.anchor m n
    let e := dt.entry0 + m * dt.stride + n
    (if acc then st.1.accAdd c e v.1 else st.1.accSet c e v.1, st.2 ||| v.2)) (s, 0#8)

/-! ### Checks at the queue exit -/

/-- R107, R110, R237. -/
def checkMma (s : State) (c : Nat) (sl : Slot) (tw tx tout : TReg) : Exit :=
  match sl.td tw, sl.td tx, sl.td tout with
  | some dw, some dx, some dt => firstOf
    [ fun _ => require (mmaFmt dw.fmt) xFormat 1,
      fun _ => require (pairOk dw.fmt dx.fmt) xFormat 2,
      fun _ => require (dt.fmt == .wsf) xFormat 3,
      fun _ => require (!dw.fmt.isMx || dw.blockAxis == 1) xFormat 1,
      fun _ => require (!dx.fmt.isMx || dx.blockAxis == 0) xFormat 2,
      fun _ => require (s.inSpad c dw && decide (dw.rows ≤ 256) && decide (dw.cols ≤ 256) && dw.axisOrigin % 32 == 0)
        xShape 1,
      fun _ => require (s.inSpad c dx && decide (dx.rows ≤ 4096) && dx.cols == dw.rows && dx.axisOrigin % 32 == 0)
        xShape 2,
      fun _ => require (dt.split == 0 && dt.base % 16 == 0 && s.runInAcc c (dt.base, 16) &&
        decide (dw.cols ≤ dt.stride) && dt.rows == dx.rows && dt.cols == dw.cols &&
        decide (dt.entry0 + (dx.rows - 1) * dt.stride + dw.cols ≤ 131072)) xShape 3 ]
  | _, _, _ => needTds sl [(1, tw), (2, tx), (3, tout)]

/-- R108, R115, R227. -/
def checkMacc (s : State) (c : Nat) (sl : Slot) (ts tout : TReg) : Exit :=
  match sl.td ts, sl.td tout with
  | some ds, some dt => firstOf
    [ fun _ => require (ds.fmt == .wsf) xFormat 1,
      fun _ => require (dt.fmt == .wsf) xFormat 2,
      fun _ => require (s.inSpad c ds) xShape 1,
      fun _ => require (s.inAcc c dt && dt.rows == ds.rows && dt.cols == ds.cols) xShape 2,
      fun _ => require (dt.anchor == ds.anchor) xAnchor 2 ]
  | _, _ => needTds sl [(1, ts), (2, tout)]

def checkMzero (s : State) (c : Nat) (sl : Slot) (tout : TReg) : Exit :=
  match sl.td tout with
  | some dt => firstOf
    [ fun _ => require (dt.fmt == .wsf) xFormat 1,
      fun _ => require (s.inAcc c dt) xShape 1 ]
  | _ => needTds sl [(1, tout)]

def checkMcvt (s : State) (c : Nat) (sl : Slot) (ts td : TReg) : Exit :=
  match sl.td ts, sl.td td with
  | some ds, some dd => firstOf
    [ fun _ => require (ds.fmt == .wsf) xFormat 1,
      fun _ => require (dd.fmt != .int64) xFormat 2,
      fun _ => require (s.inAcc c ds) xShape 1,
      fun _ => require (s.inSpad c dd && dd.rows == ds.rows && dd.cols == ds.cols) xShape 2,
      fun _ => require (dd.fmt != .wsf || dd.anchor == ds.anchor) xAnchor 2 ]
  | _, _ => needTds sl [(1, ts), (2, td)]

/-! ### Effects -/

/-- R108: a WSF tensor and its tag plane added into the accumulator store. -/
def State.doMacc (s : State) (c : Nat) (ds dt : Desc) : State :=
  (List.range ds.rows).foldl (fun s r => (List.range ds.cols).foldl (fun s i =>
    s.accAdd c (dt.entry0 + r * dt.stride + i) (s.wsfElem ds r i)) s) s

/-- R108: a region's values and tags set to zero. -/
def State.doMzero (s : State) (c : Nat) (dt : Desc) : State :=
  (List.range dt.rows).foldl (fun s r => (List.range dt.cols).foldl (fun s i =>
    s.accSet c (dt.entry0 + r * dt.stride + i) Wsf.zero) s) s

/-- R115: a region converted; a WSF destination is copied with its tags. -/
def State.doMcvt (s : State) (ds dd : Desc) : State × BitVec 8 :=
  if dd.fmt = .wsf then
    ((List.range ds.rows).foldl (fun st r => (List.range ds.cols).foldl (fun st i =>
      st.setWsfElem dd r i (s.wsfElem ds r i)) st) s, 0#8)
  else
    let conv (r i : Nat) := (s.wsfElem ds r i).convert ds.anchor
    let fl := (List.range ds.rows).foldl (fun f r => (List.range ds.cols).foldl (fun f i => f ||| (conv r i).2) f) 0#8
    let x := s.writeTensor dd 0 dd.rows (fun r i => (conv r i).1)
    (x.1, x.2 ||| fl)

end Sys2Proof.Machine
end

