-- ==== Sys2Proof/Machine/VectorOps.lean ====
section
/-! DEFINITION. The vector unit's checks and arithmetic (R128 to R132, R228). -/

namespace Sys2Proof.Machine

/-- The elementwise operations, with what the table of R130 admits. -/
inductive VecOp where
  | add | sub | mul | fma | min | max | abs | neg | scale | cmp (rel : Nat) | sel | cvt | bcast
  deriving DecidableEq, Repr

/-- An elementwise instruction: its operation, destination, and its tensor operands a, b, c; a scalar b is its register's
value. -/
structure VecIns where
  op : VecOp
  td : TReg
  ta : Option TReg
  tb : Option TReg
  tc : Option TReg
  sb : Option SReg
  deriving DecidableEq, Repr

def VecIns.tds (v : VecIns) : List (Nat × TReg) :=
  (1, v.td) :: ((v.ta.map (fun t => (2, t))).toList ++ (v.tb.map (fun t => (3, t))).toList ++
    (v.tc.map (fun t => (4, t))).toList)

/-- The integer formats the arithmetic operations take. -/
def isInt32or64 (f : Fmt) : Bool := f == .int32 || f == .int64

/-- R130: the formats of the operands and the destination; the operand number that fails. -/
def vecFormat (v : VecIns) (fd : Fmt) (fa fb fc : Option Fmt) : Exit :=
  let ops : List (Nat × Fmt) :=
    (fa.map (fun f => (2, f))).toList ++ (fb.map (fun f => (3, f))).toList ++ (fc.map (fun f => (4, f))).toList
  let all (l : List (Nat × Fmt)) (p : Fmt → Bool) : Exit :=
    match l.find? (fun x => !p x.2) with
    | some x => .stop (excDetail xFormat x.1)
    | none => .go
  let same (l : List (Nat × Fmt)) (f : Fmt) : Exit := all l (fun g => g == f)
  match v.op with
  | .add | .sub | .mul | .min | .max =>
    if isInt32or64 fd then same ops fd else all ((1, fd) :: ops) Fmt.isFloat
  | .fma | .abs | .neg | .scale => all ((1, fd) :: ops) Fmt.isFloat
  | .cmp _ =>
    if fd != .int8 then .stop (excDetail xFormat 1)
    else match fa with
      | some f => if isInt32or64 f then same ops f else all ops Fmt.isFloat
      | none => .go
  | .sel =>
    match fa with
    | some .int8 => all ((1, fd) :: ops.drop 1) (fun g => g == fd && g != .wsf)
    | _ => .stop (excDetail xFormat 2)
  | .cvt => all ((1, fd) :: ops) (fun f => f != .wsf)
  | .bcast => all [(1, fd)] (fun f => f != .wsf)

/-- Runs of bytes overlap. -/
def runsOverlap (a b : List (Nat × Nat)) : Bool :=
  a.any (fun x => b.any (fun y => x.2 != 0 && y.2 != 0 && decide (x.1 < y.1 + y.2) && decide (y.1 < x.1 + x.2)))

/-- R228: a destination may overlap a source only where both have the same BASE, STRIDE, SPLIT and format. -/
def overlapOk (d a : Desc) : Bool :=
  !runsOverlap d.allRuns a.allRuns ||
    (d.base == a.base && d.stride == a.stride && d.split == a.split && d.fmt == a.fmt)

/-- Steps 4 to 6 of R239 for an elementwise instruction. -/
def checkVec (s : State) (c : Nat) (sl : Slot) (v : VecIns) : Exit :=
  let get (t : Option TReg) : Option Desc := t.bind sl.td
  firstOf
    [ fun _ => needTds sl v.tds,
      fun _ => match sl.td v.td with
        | none => .go
        | some d => vecFormat v d.fmt ((get v.ta).map Desc.fmt) ((get v.tb).map Desc.fmt) ((get v.tc).map Desc.fmt),
      fun _ => match sl.td v.td with
        | none => .go
        | some d =>
          let srcs := v.tds.drop 1
          match v.tds.find? (fun p => match sl.td p.2 with
              | some x => !(s.inSpad c x && x.rows == d.rows && x.cols == d.cols)
              | none => false) with
          | some p => .stop (excDetail xShape p.1)
          | none => match srcs.find? (fun p => match sl.td p.2 with | some x => !overlapOk d x | none => false) with
            | some _ => .stop (excDetail xShape 1)
            | none => .go ]

/-- A scalar operand b beside tensors of format `f`: an integer to match, or FP32 (R130). -/
def scalarVal (f : Fmt) (w : Word) : Val :=
  if f == .int32 then Val.ofInt (toSigned 32 w.toNat) else if f == .int64 then Val.ofInt w.toInt else fpOf w

/-- The six relations of VCMP (R228). -/
def relHolds (rel : Nat) (a b : Val) : Bool :=
  match rel with
  | 0 => a.eq b | 1 => !a.eq b | 2 => a.lt b | 3 => a.le b | 4 => b.lt a | _ => b.le a

/-- An integer result wrapped to the width (R130). -/
def wrapInt (w : Nat) (v : Val) : Val :=
  match v with
  | .num p n e _ =>
    let m : Int := if p then -(shlI n e : Nat) else (shlI n e : Nat)
    Val.ofInt (toSigned w (BitVec.ofInt w m).toNat)
  | x => x

/-- The code of an exact integer, the most negative included. -/
def intExact (w : Nat) (v : Val) : Nat :=
  match v with
  | .num p n e _ => intCode w p (shlI n e)
  | _ => 0

/-- The exact result of an arithmetic operation and its flags. -/
def vecVal (op : VecOp) (a b c : Val) (k : Int) : Val × BitVec 8 :=
  let r : Val := match op with
    | .add => a.add b | .sub => a.sub b | .mul => a.mul b
    | .fma => (a.mul b).add c
    | .min => valMin a b | .max => valMax a b
    | .abs => a.abs | .neg => a.neg
    | .scale => a.scale2 k
    | .cmp rel => if relHolds rel a b then Val.ofInt 1 else Val.zero
    | .sel => a | .cvt => a | .bcast => b
  let used : List Val := match op with
    | .add | .sub | .mul | .min | .max | .cmp _ => [a, b]
    | .fma => [a, b, c]
    | .bcast => [b]
    | _ => [a]
  (r, flagOp used r)

/-- The effect of an elementwise instruction over rows `r0` to `r1 - 1`: every element is read before it is written. -/
def State.doVec (s : State) (sl : Slot) (v : VecIns) (r0 r1 : Nat) : State × BitVec 8 :=
  match sl.td v.td with
  | none => (s, 0#8)
  | some d =>
    let get (t : Option TReg) : Option Desc := t.bind sl.td
    let w : Word := match v.sb with | some r => sl.s r | none => 0#64
    let rows := (List.range (r1 - r0)).map (· + r0)
    if v.op = .sel then
      (rows.foldl (fun st r => (List.range d.cols).foldl (fun st i =>
        let cond := match get v.ta with | some x => s.elemCode x r i | none => 0
        let src := if cond ≠ 0 then v.tb else v.tc
        let code := match get src with
          | some x => s.elemCode x r i
          | none => w.toNat
        st.setElemCode d r i code) st) s, 0#8)
    else
      let fa : Fmt := match get v.ta with | some x => x.fmt | none => d.fmt
      let cell (r i : Nat) : Val × BitVec 8 :=
        let ev (t : Option TReg) : Val := match get t with | some x => s.elem x r i | none => Val.zero
        let b : Val := match v.tb with | some _ => ev v.tb | none => scalarVal fa w
        vecVal v.op (ev v.ta) b (ev v.tc) (max (-4096) (min 4096 w.toInt))
      let intOp := match v.op with | .add | .sub | .mul | .min | .max => isInt32or64 d.fmt | _ => false
      if intOp then
        (rows.foldl (fun st r => (List.range d.cols).foldl (fun st i =>
          st.setElemCode d r i (intExact d.fmt.width (wrapInt d.fmt.width (cell r i).1))) st) s, 0#8)
      else
        let fl := rows.foldl (fun f r => (List.range d.cols).foldl (fun f i => f ||| (cell r i).2) f) 0#8
        let x := s.writeTensor d r0 r1 (fun r i => (cell r i).1)
        (x.1, x.2 ||| fl)

/-! ### Reductions (R132) -/

inductive RedOp where
  | sum | max | min
  deriving DecidableEq, Repr

def checkRed (s : State) (c : Nat) (sl : Slot) (td ta : TReg) : Exit :=
  match sl.td td, sl.td ta with
  | some d, some a => firstOf
    [ fun _ => require (d.fmt == .fp32) xFormat 1,
      fun _ => require a.fmt.isFloat xFormat 2,
      fun _ => require (s.inSpad c d && d.rows == a.rows && d.cols == 1) xShape 1,
      fun _ => require (s.inSpad c a) xShape 2,
      fun _ => require (overlapOk d a) xShape 1 ]
  | _, _ => needTds sl [(1, td), (2, ta)]

/-- A rounded FP32 sum of two values, with the flags it sets. -/
def addFp32 (a b : Val) : Val × BitVec 8 :=
  let r := a.add b
  let x := toFp32 r
  (ofFp32 x.1, (x.2 &&& flOver) ||| flagOp [a, b] r)

/-- One halving pass of the lane tree. -/
def pairUp : List Val → List Val × BitVec 8
  | a :: b :: t => let r := pairUp t; let x := addFp32 a b; (x.1 :: r.1, x.2 ||| r.2)
  | l => (l, 0#8)

/-- The lane tree: 256 lanes halve eight times. -/
def laneTree : Nat → List Val → List Val × BitVec 8
  | 0, l => (l, 0#8)
  | n + 1, l => let r := pairUp l; let q := laneTree n r.1; (q.1, r.2 ||| q.2)

/-- R132: the fixed-order sum of a row: element i goes to lane i mod 256 in ascending order, then the lanes halve. -/
def vrsum (xs : List Val) : Val × BitVec 8 :=
  let lane (j : Nat) : Val × BitVec 8 :=
    (List.range ((xs.length + 255 - j) / 256)).foldl (fun acc q =>
      let r := addFp32 acc.1 (xs.getD (256 * q + j) Val.zero)
      (r.1, acc.2 ||| r.2)) (Val.zero, 0#8)
  let ls := (List.range 256).map lane
  let t := laneTree 8 (ls.map Prod.fst)
  (t.1.headD Val.zero, ls.foldl (fun f x => f ||| x.2) t.2)

def redRow (op : RedOp) (xs : List Val) : Val × BitVec 8 :=
  match op with
  | .sum => vrsum xs
  | .max => let r := xs.foldl valMax (.inf true); (r, flagOp xs r)
  | .min => let r := xs.foldl valMin (.inf false); (r, flagOp xs r)

def State.doRed (s : State) (sl : Slot) (op : RedOp) (td ta : TReg) (r0 r1 : Nat) : State × BitVec 8 :=
  match sl.td td, sl.td ta with
  | some d, some a =>
    let row (r : Nat) := redRow op ((List.range a.cols).map (s.elem a r))
    let fl := (List.range (r1 - r0)).foldl (fun f r => f ||| (row (r0 + r)).2) 0#8
    let x := s.writeTensor d r0 r1 (fun r _ => (row r).1)
    (x.1, x.2 ||| fl)
  | _, _ => (s, 0#8)

end Sys2Proof.Machine
end

