-- ==== Sys2Proof/Machine/Elementary.lean ====
section
/-! DEFINITION. The exact functions of the spline unit in fixed point, the FP32 results that the bounds of R135 leave open round
them, and the free choice among those that keeps R137 and R138. -/

namespace Sys2Proof.Machine

/-! ### Fixed point

A real number is held as an integer count of 2^-320. Every finite FP32 number is such a count exactly; a function's error is below
2^-200, far below the least spacing of FP32. -/

def fxBits : Nat := 320
def fxOne : Int := 2 ^ fxBits
def fxMul (a b : Int) : Int := a * b / fxOne
def fxDiv (a b : Int) : Int := a * fxOne / b
def fxSqrt (a : Int) : Int := (Nat.sqrt (a.toNat * 2 ^ fxBits) : Nat)

/-- An exact value that is a number, in fixed point. -/
def Val.fx : Val → Int
  | .num p n e d =>
    let m : Int := (n * 2 ^ (e + fxBits).toNat / (2 ^ (-(e + fxBits)).toNat * d) : Nat)
    if p then -m else m
  | _ => 0

/-- Σ over k below `n` of terms that each follow from the one before. -/
def fxSeries (next : Nat → Int → Int) (weight : Nat → Int → Int) (n : Nat) (t0 : Int) : Int :=
  ((List.range n).foldl (fun (a : Int × Int) k => (a.1 + weight k a.2, next k a.2)) (0, t0)).1

/-- atanh z and atan z for a small z. -/
def fxAtanh (z : Int) : Int :=
  fxSeries (fun _ t => fxMul t (fxMul z z)) (fun k t => t / ((2 * k + 1 : Nat) : Int)) 240 z
def fxAtan (z : Int) : Int :=
  fxSeries (fun _ t => -fxMul t (fxMul z z)) (fun k t => t / ((2 * k + 1 : Nat) : Int)) 240 z

def fxLn2 : Int := 2 * fxAtanh (fxOne / 3)
def fxPi : Int := 16 * fxAtan (fxOne / 5) - 4 * fxAtan (fxOne / 239)

/-- e^y. -/
def fxExp (y : Int) : Int :=
  let k := y / fxLn2
  let r := y - k * fxLn2
  let m := fxSeries (fun i t => fxMul t r / ((i + 1 : Nat) : Int)) (fun _ t => t) 90 fxOne
  if 0 ≤ k then m * 2 ^ k.toNat else m / 2 ^ (-k).toNat

/-- log2 x of a positive x. -/
def fxLog2 (x : Int) : Int :=
  let e : Int := (Nat.log2 x.toNat : Int) - fxBits
  let m := if 0 ≤ e then x / 2 ^ e.toNat else x * 2 ^ (-e).toNat
  e * fxOne + fxDiv (2 * fxAtanh (fxDiv (m - fxOne) (m + fxOne))) fxLn2

/-- erf x. -/
def fxErf (x : Int) : Int :=
  let q := fxMul x x
  let sum := fxSeries (fun i t => -fxMul t q / ((i + 1 : Nat) : Int)) (fun k t => t / ((2 * k + 1 : Nat) : Int)) 400 x
  fxDiv (2 * sum) (fxSqrt fxPi)

def fxSigmoid (x : Int) : Int := fxDiv fxOne (fxOne + fxExp (-x))

def fxTanh (x : Int) : Int :=
  let e := fxExp (2 * x)
  fxDiv (e - fxOne) (e + fxOne)

/-- R134: the exact definition of a built-in function, at an x in the range in which the result is open. -/
def fxFunction (fn : Nat) (x : Int) : Int :=
  match fn with
  | 0 => fxMul x ((fxOne + fxErf (fxMul x (fxSqrt (fxOne / 2)))) / 2)
  | 1 =>
    let a := fxMul (fxSqrt (fxDiv (2 * fxOne) fxPi)) (x + 44715 * fxMul x (fxMul x x) / 1000000)
    fxMul x (fxOne + fxTanh a) / 2
  | 2 => fxMul x (fxSigmoid (1702 * x / 1000))
  | 3 => fxErf x
  | 4 => fxExp (fxMul x fxLn2)
  | 5 => fxLog2 x
  | 6 => fxDiv fxOne x
  | 7 => fxSqrt (fxDiv fxOne x)
  | 8 => fxTanh x
  | _ => fxSigmoid x

/-! ### FP32 codes in order

A key counts FP32 values in ascending order: the magnitude code, negative below zero. Both zeros have key 0. -/

def fpKey (c : Nat) : Int := if 2 ^ 31 ≤ c % 2 ^ 32 then -((c % 2 ^ 31 : Nat) : Int) else (c % 2 ^ 31 : Nat)
def fpOfKey (k : Int) : Nat := if k < 0 then 2 ^ 31 + (-k).toNat else k.toNat

/-- The value of a key, in fixed point. -/
def keyFx (k : Int) : Int := (ofFp32 (fpOfKey k)).fx

/-- The largest magnitude code at or below a positive number; infinity's at or above 2^128. -/
def magFloor (a : Nat) : Nat :=
  let e : Int := (Nat.log2 a : Int) - fxBits
  if e < -126 then a / 2 ^ (fxBits - 149)
  else if 128 ≤ e then 0x7F800000
  else (e + 127).toNat * 2 ^ 23 + a / 2 ^ (Nat.log2 a - 23) - 2 ^ 23

def magCeil (a : Nat) : Nat :=
  let m := magFloor a
  if a = 0 ∨ (keyFx (m : Int)).toNat = a ∨ m = 0x7F800000 then m else m + 1

/-- The greatest key at or below a number, and the least at or above. -/
def keyFloor (a : Int) : Int := if 0 ≤ a then (magFloor a.toNat : Int) else -(magCeil (-a).toNat : Int)
def keyCeil (a : Int) : Int := if 0 ≤ a then (magCeil a.toNat : Int) else -(magFloor (-a).toNat : Int)

/-- The spacing of FP32 values in the binade of a number; 2^-149 for a subnormal one (R135). -/
def fxUlp (a : Int) : Int := 2 ^ (max (fxBits - 149) (Nat.log2 a.natAbs - 23))

/-- The error of fixed point, by which a bound is widened. -/
def fxSlack : Int := 2 ^ (fxBits - 200)

/-- The keys within `b` of an exact result. -/
def keysNear (f b : Int) : Int × Int := (keyCeil (f - b - fxSlack), keyFloor (f + b + fxSlack))

/-- One of the keys of a window, by a free value. -/
def pickKey (w : Int × Int) (free : Nat) : Int := w.1 + ((free % ((w.2 - w.1).toNat + 1) : Nat) : Int)

/-! ### The bounds of R135 -/

/-- A multiple of 2^-k. -/
def fxDyadic (n : Int) (k : Nat) : Int := n * 2 ^ (fxBits - k)

/-- A number that is 2^e, with its e. -/
def fxPow2 (x : Int) : Option Int :=
  if 0 < x ∧ x = 2 ^ Nat.log2 x.toNat then some ((Nat.log2 x.toNat : Int) - fxBits) else none

/-- The exact result where the table lists one at a single x. -/
def exactAt (fn : Nat) (x : Int) : Option Int :=
  match fn with
  | 0 | 1 | 2 | 3 | 8 => if x = 0 then some 0 else none
  | 4 => if x % fxOne = 0 ∧ -126 * fxOne ≤ x then some (2 ^ (x / fxOne + fxBits).toNat) else none
  | 5 => (fxPow2 x).map (fun e => e * fxOne)
  | 6 => (fxPow2 (x.natAbs : Int)).map (fun _ => fxDiv fxOne x)
  | 7 => match fxPow2 x with
    | some e => if e % 2 = 0 then some (fxSqrt (fxDiv fxOne x)) else none
    | none => none
  | _ => if x = 0 then some (fxOne / 2) else none

/-- The bound at x of an exact result f. -/
def boundAt (fn : Nat) (x f : Int) : Int :=
  match fn with
  | 0 | 1 | 2 => if 3 * fxOne ≤ x then 2 * fxUlp f else if -3 * fxOne < x then fxDyadic 1 22 else fxDyadic 1 24
  | 3 | 8 => if x.natAbs < (fxDyadic 1 12).natAbs then fxUlp f else 2 * fxUlp f
  | 5 => if fxDyadic 3 2 ≤ x ∧ x < fxDyadic 3 1 then fxDyadic 1 30 else fxUlp f
  | 9 => if -16 * fxOne ≤ x then fxDyadic 1 25 else 4 * fxUlp f
  | _ => fxUlp f

/-- The keys that R135 leaves a result at the input of key `k`. The inputs at which a range of exact results begins are given
their exact results. -/
def window (fn : Nat) (k : Int) : Int × Int :=
  let x := keyFx k
  let one (f : Int) : Int × Int := (keyFloor f, keyFloor f)
  match fn with
  | 0 | 1 | 2 =>
    if 10 * fxOne ≤ x then (k, k) else if x < -10 * fxOne ∨ x = 0 then (0, 0)
    else keysNear (fxFunction fn x) (boundAt fn x (fxFunction fn x))
  | _ =>
    if (fn = 3 ∧ 4 * fxOne ≤ x) ∨ (fn = 8 ∧ 9 * fxOne ≤ x) ∨ (fn = 9 ∧ 18 * fxOne ≤ x) then one fxOne
    else if (fn = 4 ∧ x ≤ -150 * fxOne) ∨ (fn = 9 ∧ x ≤ -104 * fxOne) then (0, 0)
    else if fn = 4 ∧ 128 * fxOne ≤ x then (0x7F800000, 0x7F800000)
    else match exactAt fn x with
      | some f => one f
      | none => keysNear (fxFunction fn x) (boundAt fn x (fxFunction fn x))

/-! ### Monotone choices (R137, R138) -/

/-- The least upper end of the windows from place `n` on, `k` places further. -/
def leastHigh (w : Nat → Int × Int) : Nat → Nat → Int
  | 0, n => (w n).2
  | k + 1, n => min (w n).2 (leastHigh w k (n + 1))

/-- A nondecreasing choice: at each of the places 0 to `last` a free key of its window, not below the one chosen before it and not
above what a later place must stay below. Every nondecreasing choice from the windows is one of these. -/
def rising (w : Nat → Int × Int) (free : Nat → Nat) (last : Nat) : Nat → Int
  | 0 => pickKey ((w 0).1, leastHigh w last 0) (free 0)
  | n + 1 =>
    let lo := max (w (n + 1)).1 (rising w free last n)
    pickKey (lo, max lo (leastHigh w (last - (n + 1)) (n + 1))) (free (n + 1))

def negWindow (w : Int × Int) : Int × Int := (-w.2, -w.1)

/-- A function's results over the inputs of keys `a` to `b`, nondecreasing, or nonincreasing where `down` says so, read at `k`. -/
def monotoneOn (w : Int → Int × Int) (free : Int → Nat) (down : Bool) (a b k : Int) : Int :=
  let at' (n : Nat) : Int × Int := if down then negWindow (w (a + n)) else w (a + n)
  let r := rising at' (fun n => free (a + n)) (b - a).toNat (k - a).toNat
  if down then -r else r

/-- R138: the key of the knot at a GELU form's minimum, the FP32 value nearest it. -/
def geluKnot (fn : Nat) : Int :=
  match fn with
  | 0 => -0x3F407569
  | 1 => -0x3F40A150
  | _ => -0x3F404BA5

/-- Keys of the FP32 integers that bound the ranges. -/
def keyInt (i : Int) : Int := keyFloor (i * fxOne)

/-- A GELU form's results: nonincreasing to the knot of its minimum, nondecreasing from it, the same at it. -/
def geluOver (fn : Nat) (w : Int → Int × Int) (free : Int → Nat) (k : Int) : Int :=
  let km := geluKnot fn
  let lowEnd := keyInt (-10) - 1
  let least := monotoneOn w free true lowEnd km km
  if k ≤ km then monotoneOn w free true lowEnd km k
  else monotoneOn (fun j => if j = km then (least, least) else w j) free false km (keyInt 10) k

/-- The key of a built-in function's result at an input where the table leaves it open; `free` is a free value for each revision,
and input. The revisions differ only in the tanh form of GELU for 3 ≤ |x| < 5 (R146), where a revision's own results lie between
those that both give outside. -/
def openKey (free : Nat → Int → Nat) (rev fn : Nat) (k : Int) : Int :=
  let w := window fn
  match fn with
  | 0 | 2 => geluOver fn w (free 0) k
  | 1 =>
    let both := geluOver 1 w (free 0)
    if keyInt 3 ≤ k ∧ k < keyInt 5 then
      monotoneOn (fun j => (max (w j).1 (both (keyInt 3 - 1)), min (w j).2 (both (keyInt 5)))) (free rev) false (keyInt 3)
        (keyInt 5 - 1) k
    else if keyInt (-5) < k ∧ k ≤ keyInt (-3) then
      monotoneOn (fun j => (max (w j).1 (both (keyInt (-3) + 1)), min (w j).2 (both (keyInt (-5))))) (free rev) true
        (keyInt (-5) + 1) (keyInt (-3)) k
    else both k
  | 3 => monotoneOn w (free 0) false 0 (keyInt 4) k
  | 4 => monotoneOn w (free 0) false (keyInt (-150)) (keyInt 128) k
  | 5 => monotoneOn w (free 0) false 1 0x7F7FFFFF k
  | 6 => if 0 ≤ k then monotoneOn w (free 0) true 1 0x7F7FFFFF k else monotoneOn w (free 0) true (-0x7F7FFFFF) (-1) k
  | 7 => monotoneOn w (free 0) true 1 0x7F7FFFFF k
  | 8 => monotoneOn w (free 0) false 0 (keyInt 9) k
  | _ => monotoneOn w (free 0) false (keyInt (-104)) (keyInt 18) k

/-- The FP32 code of such a result; a zero has the sign of the exact result or not, freely. -/
def openCode (free : Nat → Int → Nat) (rev fn x : Nat) : Nat :=
  let k := fpKey x
  let r := openKey free rev fn k
  if r = 0 ∧ fxFunction fn (keyFx k) < 0 ∧ free 0 k % 2 = 1 then 2 ^ 31 else fpOfKey r

/-! ### Results within one ulp (R151) -/

/-- An FP32 code within 1 ulp of √(n / d), by a free value; infinity beyond the range. -/
def rootNear (n d free : Nat) : Nat :=
  let f : Int := (Nat.sqrt (n * 2 ^ (2 * fxBits) / d) : Nat)
  let w := keysNear f (fxUlp f)
  fpOfKey (pickKey (max 0 w.1, max 0 w.2) free)

end Sys2Proof.Machine
end

