-- ==== Sys2Proof/Machine/SplineOps.lean ====
section
/-! DEFINITION. The spline unit: function evaluation, user tables, and J10 compatibility (R133 to R145). -/

namespace Sys2Proof.Machine

/-! FP32 codes of the results that are exact. -/
def fpZero : Nat := 0
def fpNegZero : Nat := 0x80000000
def fpOne : Nat := 0x3F800000
def fpHalf : Nat := 0x3F000000
def fpInf : Nat := 0x7F800000
def fpNegInf : Nat := 0xFF800000
def fpNan : Nat := 0x7FC00000

/-- Bit 31 exchanged. -/
def fpFlip (c : Nat) : Nat := if 2 ^ 31 ≤ c then c - 2 ^ 31 else c + 2 ^ 31

def valInt (i : Int) : Val := Val.ofInt i

/-- The exponent of a positive power of two, if the value is one. -/
def pow2Exp : Val → Option Int
  | .num false n e 1 => if n ≠ 0 ∧ n = 2 ^ Nat.log2 n then some (e + Nat.log2 n) else none
  | _ => none

/-- The integer an exact value is, if it is one. -/
def asInt : Val → Option Int
  | .num p n e 1 =>
    let m := shlI n e
    if 0 ≤ e then some (if p then -(m : Int) else m)
    else if n % 2 ^ (-e).toNat = 0 then
      some (if p then -((n / 2 ^ (-e).toNat : Nat) : Int) else (n / 2 ^ (-e).toNat : Nat))
    else none
  | _ => none

/-- R135: a built-in function in native mode: its exact ranges and values as the table gives them; elsewhere a value that is free
inside the bounds and monotone (R137, R138). `rev` is the revision in force. Odd functions are odd by construction (R136). -/
def splineNative (rev fn x : Nat) : Nat × BitVec 8 :=
  let v := ofFp32 x
  let neg := decide (2 ^ 31 ≤ x % 2 ^ 32)
  let mag := x % 2 ^ 31
  let ge (i : Int) : Bool := (valInt i).le v
  let open' (x : Nat) : Nat := openCode (fun r k => Config.spline r fn (fpOfKey k)) rev fn x
  let free : Nat := open' x
  let odd (f : Nat) : Nat := if neg then fpFlip f else f
  if v.isNan then (fpNan, flInvalid)
  else match fn with
  | 0x0 | 0x1 | 0x2 =>
    if ge 10 then (x, 0#8)
    else if v.lt (valInt (-10)) then (fpNegZero, 0#8)
    else if v.isZero then (fpZero, 0#8) else (free, 0#8)
  | 0x3 =>
    if (valInt 4).le v.abs then (odd fpOne, 0#8)
    else if v.isZero then (x, 0#8) else (odd (open' mag), 0#8)
  | 0x4 =>
    if ge 128 then (fpInf, flOver)
    else if v.le (valInt (-150)) then (fpZero, 0#8)
    else match asInt v with
      | some i => if -126 ≤ i then ((i + 127).toNat * 2 ^ 23, 0#8) else (free, 0#8)
      | none => (free, 0#8)
  | 0x5 =>
    if v.isZero then (fpNegInf, 0#8)
    else if neg then (fpNan, flInvalid)
    else if v = .inf false then (fpInf, 0#8)
    else match pow2Exp v with
      | some e => ((toFp32 (valInt e)).1, 0#8)
      | none => (free, 0#8)
  | 0x6 =>
    if v.isZero then (odd fpInf, 0#8)
    else match v with
      | .inf _ => (odd fpZero, 0#8)
      | _ => match pow2Exp v.abs with
        | some e => let r := toFp32 ((Val.ofInt (if neg then -1 else 1)).scale2 (-e)); (r.1, r.2 &&& flOver)
        | none => (free, if free % 2 ^ 31 = fpInf then flOver else 0#8)
  | 0x7 =>
    if v.isZero then (odd fpInf, 0#8)
    else if neg then (fpNan, flInvalid)
    else if v = .inf false then (fpZero, 0#8)
    else match pow2Exp v with
      | some e => if e % 2 = 0 then ((toFp32 ((Val.ofInt 1).scale2 (-(e / 2)))).1, 0#8) else (free, 0#8)
      | none => (free, 0#8)
  | 0x8 =>
    if (valInt 9).le v.abs then (odd fpOne, 0#8)
    else if v.isZero then (x, 0#8) else (odd (open' mag), 0#8)
  | _ =>
    if ge 18 then (fpOne, 0#8)
    else if v.le (valInt (-104)) then (fpZero, 0#8)
    else if v.isZero then (fpHalf, 0#8) else (free, 0#8)

/-! ### User tables (R139 to R141) -/

/-- A field of a table image held as one little-endian number. -/
def tabBytes (im off n : Nat) : Nat := bits im (8 * off) (8 * n)
def tabSegs (im : Nat) : Nat := tabBytes im 0 2
def tabLow (im : Nat) : Nat := tabBytes im 2 1
def tabHigh (im : Nat) : Nat := tabBytes im 3 1
def tabKnot (im i : Nat) : Nat := tabBytes im (0x10 + 4 * i) 4
def tabCoeff (im i j : Nat) : Nat := tabBytes im (0x420 + 16 * i + 4 * j) 4

def isFin : Val → Bool
  | .num .. => true
  | _ => false

/-- R141: the checks of an image. -/
def tableOk (im : Nat) : Bool :=
  let n := tabSegs im
  decide (1 ≤ n) && decide (n ≤ 256) && decide (tabLow im ≤ 2) && decide (tabHigh im ≤ 2) &&
  tabBytes im 4 4 == 0 && tabBytes im 0xC 4 == 0 && tabBytes im 0x414 12 == 0 &&
  ((List.range 257).drop (n + 1)).all (fun i => tabKnot im i == 0) &&
  (List.range (n + 1)).all (fun i => isFin (ofFp32 (tabKnot im i))) &&
  (List.range n).all (fun i => (ofFp32 (tabKnot im i)).lt (ofFp32 (tabKnot im (i + 1)))) &&
  (List.range n).all (fun i => (List.range 4).all (fun j => isFin (ofFp32 (tabCoeff im i j)))) &&
  tabBytes im 8 4 == crc32 (leBytes 0x1410 (im / 2 ^ 128))

/-- c0 + c1 t + c2 t² + c3 t³: exact, or in J10 compatibility mode Horner's scheme rounded at every step (R145). -/
def cubic (compat : Bool) (im i : Nat) (t : Val) : Val :=
  let c (j : Nat) : Val := ofFp32 (tabCoeff im i j)
  if compat then
    let t := roundFp32 t
    let st (acc : Val) (j : Nat) : Val := roundFp32 ((roundFp32 (acc.mul t)).add (c j))
    st (st (st (c 3) 2) 1) 0
  else (c 0).add (((c 1).mul t).add (((c 2).mul (t.mul t)).add ((c 3).mul (t.mul (t.mul t)))))

/-- R140: a user table at x; the empty image gives the canonical NaN with INVALID (R142). -/
def splineUser (compat : Bool) (im x : Nat) : Nat × BitVec 8 :=
  let v := ofFp32 x
  let n := tabSegs im
  let k (i : Nat) : Val := ofFp32 (tabKnot im i)
  let out (r : Val) : Nat × BitVec 8 := let q := toFp32 r; (q.1, q.2 &&& flOver)
  let nan : Nat × BitVec 8 := (fpNan, flInvalid)
  if v.isNan || im == 0 then nan
  else if v.lt (k 0) then
    if tabLow im = 2 then nan
    else if tabLow im = 1 && isFin v then out (cubic compat im 0 (v.sub (k 0)))
    else out (cubic compat im 0 Val.zero)
  else if (k n).le v then
    if tabHigh im = 2 then nan
    else if tabHigh im = 1 && isFin v then out (cubic compat im (n - 1) (v.sub (k (n - 1))))
    else out (cubic compat im (n - 1) ((k n).sub (k (n - 1))))
  else
    match (List.range n).find? (fun i => (k i).le v && v.lt (k (i + 1))) with
    | some i => out (cubic compat im i (v.sub (k i)))
    | none => nan

/-- The revision in force on a core (R146). -/
def State.splRev (s : State) (c : Nat) : Nat := s.get F.splRevision_running [c]

/-- Step 3 of R133: the function of code `fn` at the FP32 input `x`; `bank` is the bound user bank. -/
def State.splineAt (s : State) (c fn bank : Nat) (compat : Bool) (x : Nat) : Nat × BitVec 8 :=
  if 12 ≤ fn then splineUser compat (tget 0 (s.core c).tables bank) x
  else if compat then
    if (ofFp32 x).isNan then (fpNan, flInvalid)
    else if fn = 3 ∨ fn = 8 then
      (if 2 ^ 31 ≤ x then fpFlip (Config.splineCompat fn (x % 2 ^ 31) % 2 ^ 31)
       else Config.splineCompat fn x % 2 ^ 31, 0#8)
    else (Config.splineCompat fn x % 2 ^ 32, 0#8)
  else splineNative (s.splRev c) fn x

/-- The spline functions that other units call: exp2 and log2 of R135, on and to exact FP32 values. -/
def State.exp2 (s : State) (c : Nat) (compat : Bool) (v : Val) : Val × BitVec 8 :=
  let r := s.splineAt c 4 8 compat (toFp32 v).1
  (ofFp32 r.1, r.2)
def State.log2 (s : State) (c : Nat) (compat : Bool) (v : Val) : Val × BitVec 8 :=
  let r := s.splineAt c 5 8 compat (toFp32 v).1
  (ofFp32 r.1, r.2)

/-- R133: one element looked up: conversion to FP32, the pre-multiplier, the function. -/
def State.lookup (s : State) (c fn bank : Nat) (compat : Bool) (pm : Option Nat) (v : Val) : Val × BitVec 8 :=
  let a := toFp32 v
  let x := match pm with
    | some m => if m = fpOne then (a.1, 0#8)
      else
        let r := (ofFp32 a.1).mul (ofFp32 m)
        let q := toFp32 r
        (q.1, (q.2 &&& flOver) ||| flagOp [ofFp32 a.1, ofFp32 m] r)
    | none => (a.1, 0#8)
  let y := s.splineAt c fn bank compat x.1
  (ofFp32 y.1, (a.2 &&& flOver) ||| x.2 ||| y.2)

def checkSpl (s : State) (c : Nat) (sl : Slot) (td ta : TReg) (fn : Nat) : Exit :=
  match sl.td td, sl.td ta with
  | some d, some a => firstOf
    [ fun _ => require (d.fmt.isFloat || d.fmt == .int8) xFormat 1,
      fun _ => require (a.fmt.isFloat || a.fmt == .int8) xFormat 2,
      fun _ => require (fn != 0xA && fn != 0xB) xFormat 3,
      fun _ => require (s.inSpad c d && d.rows == a.rows && d.cols == a.cols) xShape 1,
      fun _ => require (s.inSpad c a) xShape 2,
      fun _ => require (overlapOk d a) xShape 1 ]
  | _, _ => needTds sl [(1, td), (2, ta)]

def State.doSpl (s : State) (c : Nat) (sl : Slot) (td ta : TReg) (fn bank : Nat) (pm : Option SReg) (r0 r1 : Nat) :
    State × BitVec 8 :=
  match sl.td td, sl.td ta with
  | some d, some a =>
    let m := pm.map (fun r => (sl.s r).toNat % 2 ^ 32)
    let cell (r i : Nat) := s.lookup c fn bank sl.compat m (s.elem a r i)
    let fl := (List.range (r1 - r0)).foldl (fun f r =>
      (List.range d.cols).foldl (fun f i => f ||| (cell (r0 + r) i).2) f) 0#8
    let x := s.writeTensor d r0 r1 (fun r i => (cell r i).1)
    (x.1, x.2 ||| fl)
  | _, _ => (s, 0#8)

/-! ### Banks (R142 to R144) -/

def bankLive : Nat := 1
def bankEmpty : Nat := 2
def bankLoading : Nat := 3
def bankReady : Nat := 4

def State.bankState (s : State) (c k : Nat) : Nat := bits (s.get F.splTableState_bankState [c]) (3 * k) 3
def State.setBank (s : State) (c k v : Nat) : State :=
  s.put F.splTableState_bankState [c] (putBits (s.get F.splTableState_bankState [c]) (3 * k) 3 v)

/-- The LIVE bank of a user table (R144). -/
def State.liveBank (s : State) (c t : Nat) : Nat := if s.bankState c (2 * t) = bankLive then 2 * t else 2 * t + 1

end Sys2Proof.Machine
end

