-- ==== Sys2Proof/Machine/RowStatOps.lean ====
section
/-! DEFINITION. The row statistics unit: sums, records, merging (R147 to R153). -/

namespace Sys2Proof.Machine

/-- What a row, or a merge of partial records, comes to. -/
structure RowSums where
  s0 : Wsf := Wsf.zero
  s1 : Wsf := Wsf.zero
  s2 : Wsf := Wsf.zero
  q : Wsf := Wsf.zero
  x0 : Nat := 0
  count : Nat := 0
  /-- least and greatest element, as FP32 -/
  mn : Nat := 0
  mx : Nat := 0
  argmax : Nat := 0
  e : Int := 0
  nanSeen : Bool := false
  deriving DecidableEq, Repr

/-! The anchors of R148. -/
def anchor0 (e : Int) : Int := e - 110
def anchor1 (e : Int) : Int := e - 109
def anchor2 (e : Int) : Int := 2 * e - 108
def anchorQ (e : Int) : Int := 2 * e - 110

/-- R149: the format default of E. -/
def defaultE : Fmt → Option Int
  | .fp16 | .e5m2 => some 16
  | .e4m3 => some 9
  | .int8 => some 8
  | _ => none

/-- The E of an instruction: its field, or the format's default for the code −256. -/
def rangeE (f : Fmt) (e : BitVec 9) : Option Int := if e.toInt = -256 then defaultE f else some e.toInt

/-- The tags of the four sums, ORed (R153). -/
def RowSums.tag (r : RowSums) : BitVec 8 := r.s0.tag ||| r.s1.tag ||| r.s2.tag ||| r.q.tag

/-- The index of the first element that satisfies a test. -/
def firstIdx (p : Val → Bool) : List Val → Nat → Option Nat
  | [], _ => none
  | v :: t, i => if p v then some i else firstIdx p t (i + 1)

/-- R148, R150 to R152: the sums, extremes and position of a row. -/
def rowSums (xs : List Val) (x0 : Nat) (e : Int) (base : Nat) : RowSums :=
  let shift := ofFp32 x0
  let term (a : Int) (v : Val) := Wsf.ofTerm 126 a v
  let sum (a : Int) (f : Val → Val) : Wsf := xs.foldl (fun w x => w.add (term a (f x))) Wsf.zero
  let z : Wsf := Wsf.zero
  let s1 := if isFin shift then sum (anchor1 e) (fun x => x.sub shift) else z
  let s2 := if isFin shift then sum (anchor2 e) (fun x => (x.sub shift).mul (x.sub shift)) else z
  let nanAt := firstIdx Val.isNan xs 0
  let mx := xs.foldl valMax (.inf true)
  let mn := xs.foldl valMin (.inf false)
  let at' := match nanAt with
    | some i => i
    | none => (firstIdx (fun v => !v.rankLt mx) xs 0).getD 0
  { s0 := sum (anchor0 e) id, s1 := s1, s2 := s2, q := sum (anchorQ e) (fun x => x.mul x)
    x0 := x0, count := xs.length, mn := (toFp32 mn).1, mx := (toFp32 mx).1
    argmax := (base + at') % 2 ^ 32, e := e, nanSeen := nanAt.isSome }

/-- R153: two records of one row merged. -/
def RowSums.merge (a b : RowSums) : RowSums :=
  let arg := if a.nanSeen && b.nanSeen then min a.argmax b.argmax
    else if a.nanSeen then a.argmax else if b.nanSeen then b.argmax
    else if (ofFp32 a.mx).rankLt (ofFp32 b.mx) then b.argmax
    else if (ofFp32 b.mx).rankLt (ofFp32 a.mx) then a.argmax else min a.argmax b.argmax
  { s0 := a.s0.add b.s0, s1 := a.s1.add b.s1, s2 := a.s2.add b.s2, q := a.q.add b.q
    x0 := a.x0, count := a.count + b.count
    mn := (toFp32 (valMin (ofFp32 a.mn) (ofFp32 b.mn))).1, mx := (toFp32 (valMax (ofFp32 a.mx) (ofFp32 b.mx))).1
    argmax := arg, e := a.e, nanSeen := a.nanSeen || b.nanSeen }

/-- √v and 1/√v within 1 ulp, by a free value (R151); IEEE 754's results at zero, infinity and below zero. -/
def squareRoot (v : Val) (free : Nat) : Val :=
  match v with
  | .num p n e d => if n = 0 then Val.zero else if p then .nan else ofFp32 (rootNear (ratNum n e) (ratDen e d) free)
  | .inf false => .inf false
  | _ => .nan
def inverseRoot (v : Val) (free : Nat) : Val :=
  match v with
  | .num p n e d => if n = 0 then .inf false else if p then .nan else ofFp32 (rootNear (ratDen e d) (ratNum n e) free)
  | .inf false => Val.zero
  | _ => .nan

/-- The flags of a root of v with result r: INVALID below zero, OVERFLOW_OUT where a positive number's is infinite (R70). -/
def rootFlags (v r : Val) : BitVec 8 :=
  match v, r with
  | .num p n _ _, .inf _ => if n ≠ 0 ∧ !p then flOver else 0#8
  | .num p n _ _, _ => if n ≠ 0 ∧ p then flInvalid else 0#8
  | .inf true, _ => flInvalid
  | _, _ => 0#8

/-- R151, R152: the result record of 64 bytes, and the flags. `dn1` divides the variance by N − 1. -/
def resultRecord (r : RowSums) (dn1 : Bool) (eps : Nat) : List Byte × BitVec 8 :=
  let tag := r.tag
  let hasNan := tag.getLsbD 0
  let pos := tag.getLsbD 1
  let neg := tag.getLsbD 2
  let n : Val := Val.ofInt r.count
  let c0 := r.s0.convert (anchor0 r.e)
  let c1 := r.s1.convert (anchor1 r.e)
  let c2 := r.s2.convert (anchor2 r.e)
  let cq := r.q.convert (anchorQ r.e)
  let x0 := ofFp32 r.x0
  let free (k : Nat) : Nat := Config.rowRoot [k, r.s1.n.toNat, r.s2.n.toNat, r.q.n.toNat, r.count, eps, (r.e + 512).toNat,
    if dn1 then 1 else 0]
  let ev : Val := ofFp32 eps
  let infRow := pos || neg
  let d : Nat := if dn1 then r.count - 1 else r.count
  let mean : Val := if hasNan || (pos && neg) then .nan else if pos then .inf false else if neg then .inf true
    else x0.add (c1.1.div n)
  let var : Val :=
    if hasNan || infRow || !isFin x0 then .nan
    else if d = 0 then .inf false
    else
      let v := (c2.1.sub ((c1.1.mul c1.1).div n)).div (Val.ofInt d)
      if v.isNan then .nan else if Val.zero.lt v then v else Val.zero
  let rstd : Val := if var.isNan then .nan else if d = 0 then Val.zero else inverseRoot (var.add ev) (free 0)
  let rms : Val := if hasNan then .nan else if infRow then .inf false else squareRoot (cq.1.div n) (free 1)
  let rrms : Val := if hasNan then .nan else if infRow then Val.zero else inverseRoot ((cq.1.div n).add ev) (free 2)
  let fs : List (Nat × BitVec 8) := [c0.1, mean, var, rstd, rms, rrms].map toFp32
  let fl := fs.foldl (fun f x => f ||| x.2) 0#8 ||| c0.2 ||| cq.2 |||
    (if hasNan || infRow then 0#8 else c1.2 ||| c2.2) |||
    (if hasNan || infRow || !isFin x0 || ev.isNan then flInvalid else 0#8) |||
    (if infRow || hasNan then 0#8
     else rootFlags (var.add ev) rstd ||| rootFlags (cq.1.div n) rms ||| rootFlags ((cq.1.div n).add ev) rrms) |||
    (if (ofFp32 r.mx).isNan then flNan else 0#8)
  (fs.flatMap (fun x => leBytes 4 x.1) ++ leBytes 4 r.mn ++ leBytes 4 r.mx ++ leBytes 4 r.argmax ++
    leBytes 4 r.count ++ leBytes 24 0, fl)

/-- R153: the partial record of 128 bytes. -/
def partialRecord (r : RowSums) : List Byte :=
  leBytes 16 r.s1.n.toNat ++ leBytes 16 r.s2.n.toNat ++ leBytes 16 r.s0.n.toNat ++ leBytes 16 r.q.n.toNat ++
  leBytes 4 r.x0 ++ leBytes 4 r.count ++ leBytes 4 r.mn ++ leBytes 4 r.mx ++ leBytes 4 r.argmax ++
  leBytes 2 (r.e + 2 ^ 16).toNat ++ leBytes 1 r.tag.toNat ++ leBytes 1 (if r.nanSeen then 1 else 0) ++ leBytes 40 0

/-- A partial record read back: the one TAG byte stands for each of its sums. -/
def readPartial (b : List Byte) : RowSums :=
  let v := leOf b
  let f (off n : Nat) : Nat := bits v (8 * off) (8 * n)
  let w (off : Nat) : Wsf := ⟨BitVec.ofNat 128 (f off 16), BitVec.ofNat 8 (f 0x56 1)⟩
  { s1 := w 0, s2 := w 0x10, s0 := w 0x20, q := w 0x30, x0 := f 0x40 4, count := f 0x44 4, mn := f 0x48 4
    mx := f 0x4C 4, argmax := f 0x50 4, e := toSigned 16 (f 0x54 2), nanSeen := f 0x57 1 % 2 == 1 }

/-- The bytes of one row of an INT8 tensor. -/
def State.rowBytesOf (s : State) (d : Desc) (r : Nat) : List Byte :=
  (List.range d.cols).map (fun j => s.peek (localOf (d.byteAddr r j)))

def State.setRowBytes (s : State) (d : Desc) (r : Nat) (bs : List Byte) : State :=
  (bs.zip (List.range bs.length)).foldl (fun s x => s.poke (localOf (d.byteAddr r x.2)) x.1) s

/-- Steps 4 to 6 for RSTAT (R147, R149, R230). -/
def checkRstat (s : State) (c : Nat) (sl : Slot) (td ta : TReg) (partl : Bool) (e : BitVec 9) : Exit :=
  match sl.td td, sl.td ta with
  | some d, some a => firstOf
    [ fun _ => require (d.fmt == .int8) xFormat 1,
      fun _ => require (a.fmt != .wsf && (rangeE a.fmt e).isSome) xFormat 2,
      fun _ => require (s.inSpad c d && d.rows == a.rows && d.cols == (if partl then 128 else 64)) xShape 1,
      fun _ => require (s.inSpad c a && decide (a.rows ≤ 4096)) xShape 2 ]
  | _, _ => needTds sl [(1, td), (2, ta)]

/-- The records RSTATC merges, in order. -/
def State.partials (s : State) (a : Desc) : List RowSums :=
  (List.range a.rows).map (fun r => readPartial (s.rowBytesOf a r))

/-- Steps 4 to 7 for RSTATC (R153, R230). -/
def checkRstatc (s : State) (c : Nat) (sl : Slot) (td ta : TReg) : Exit :=
  match sl.td td, sl.td ta with
  | some d, some a =>
    let ps := s.partials a
    firstOf
    [ fun _ => require (d.fmt == .int8) xFormat 1,
      fun _ => require (a.fmt == .int8) xFormat 2,
      fun _ => require (s.inSpad c d && d.rows == 1 && d.cols == 64) xShape 1,
      fun _ => require (s.inSpad c a && a.cols == 128) xShape 2,
      fun _ => require (decide ((ps.map RowSums.count).sum ≤ 65536)) xShape 2,
      fun _ => match ps with
        | p :: t => require (t.all (fun r => r.e == p.e && r.x0 == p.x0)) xAnchor 2
        | [] => .go ]
  | _, _ => needTds sl [(1, td), (2, ta)]

/-- Rows `r0` to `r1 - 1` of RSTAT. -/
def State.doRstat (s : State) (sl : Slot) (td ta : TReg) (partl dn1 : Bool) (shs : Option SReg) (se si : SReg)
    (e : BitVec 9) (r0 r1 : Nat) : State × BitVec 8 :=
  match sl.td td, sl.td ta with
  | some d, some a =>
    let ev := (rangeE a.fmt e).getD 0
    (List.range (r1 - r0)).foldl (fun st k =>
      let r := r0 + k
      let xs := (List.range a.cols).map (s.elem a r)
      let x0 : Nat := match shs with
        | some q => (sl.s q).toNat % 2 ^ 32
        | none => (toFp32 (xs.headD Val.zero)).1
      let sums := rowSums xs x0 ev ((sl.s si).toNat)
      let big (v : Val) : Bool := isFin v && !isFin (roundFp32 v)
      let inv := (if xs.any Val.isNan then flInvalid else 0#8) ||| (if xs.any big then flOver else 0#8)
      if partl then (st.1.setRowBytes d r (partialRecord sums), st.2 ||| inv)
      else
        let rec' := resultRecord sums dn1 ((sl.s se).toNat % 2 ^ 32)
        (st.1.setRowBytes d r rec'.1, st.2 ||| inv ||| rec'.2)) (s, 0#8)
  | _, _ => (s, 0#8)

/-- R153: the merge of every record of TA into one result record. -/
def State.doRstatc (s : State) (sl : Slot) (td ta : TReg) (dn1 : Bool) (se : SReg) : State × BitVec 8 :=
  match sl.td td, sl.td ta with
  | some d, some a =>
    match s.partials a with
    | p :: t =>
      let x := resultRecord (t.foldl RowSums.merge p) dn1 ((sl.s se).toNat % 2 ^ 32)
      (s.setRowBytes d 0 x.1, x.2)
    | [] => (s, 0#8)
  | _, _ => (s, 0#8)

end Sys2Proof.Machine
end

