-- ==== Sys2Proof/Machine/AttentionOps.lean ====
section
/-! DEFINITION. The attention-step unit's arithmetic (R159 to R169) and the layout of the key-value cache (R173 to
R177). -/

namespace Sys2Proof.Machine

/-! ### Sequences and pages -/

/-- A sequence descriptor (R174). -/
structure SeqDesc where
  st : Nat
  pageCode : Nat
  fmtK : Nat
  fmtV : Nat
  dK : Nat
  dV : Nat
  hKv : Nat
  flags : Nat
  windowPages : Nat
  length : Nat
  windowTokens : Nat
  near : Nat
  directory : Nat
  far : Nat
  deriving DecidableEq, Repr

/-- A sequence descriptor from the little-endian number of its 64 bytes. -/
def SeqDesc.ofNat (v : Nat) : SeqDesc :=
  let f (off n : Nat) : Nat := bits v (8 * off) (8 * n)
  { st := f 0 1, pageCode := f 1 1, fmtK := f 2 1, fmtV := f 3 1, dK := f 4 2, dV := f 6 2, hKv := f 8 1
    flags := f 9 1, windowPages := f 0xA 2, length := f 0xC 4, windowTokens := f 0x10 4, near := f 0x14 4
    directory := f 0x18 8, far := f 0x20 4 }

/-- R173: the home core of a sequence. -/
def homeOf (q : Nat) : Nat := q / 1024
def SeqDesc.pt (d : SeqDesc) : Nat := 64 * 2 ^ d.pageCode
def SeqDesc.fk (d : SeqDesc) : Fmt := (Fmt.ofCode d.fmtK).getD .fp32
def SeqDesc.fv (d : SeqDesc) : Fmt := (Fmt.ofCode d.fmtV).getD .fp32
def SeqDesc.windowed (d : SeqDesc) : Bool := bit d.flags 1
def SeqDesc.spill (d : SeqDesc) : Bool := bit d.flags 0

/-- R176: bits of one head's K and V data. -/
def SeqDesc.headBits (d : SeqDesc) : Nat := d.pt * (d.dK * d.fk.width + d.dV * d.fv.width)
def SeqDesc.kScales (d : SeqDesc) : Nat := if d.fk.isMx then (d.dK + 31) / 32 * d.pt else 0
def SeqDesc.vScales (d : SeqDesc) : Nat := if d.fv.isMx then d.pt / 32 * d.dV else 0
/-- R176: a page's size in bytes. -/
def SeqDesc.pageBytes (d : SeqDesc) : Nat := d.hKv * d.headBits / 8 + d.hKv * (d.kScales + d.vScales)

/-- Bit offset in the page of element `i` of token `t` of head `h`, in K and in V. -/
def SeqDesc.kBit (d : SeqDesc) (h t i : Nat) : Nat := h * d.headBits + (i * d.pt + t) * d.fk.width
def SeqDesc.vBit (d : SeqDesc) (h t i : Nat) : Nat :=
  h * d.headBits + d.pt * d.dK * d.fk.width + (t * d.dV + i) * d.fv.width
/-- Byte offsets of the scales (DESIGN CHOICE: head by head after the data, K's plane before V's; R176 names the planes
and not their order). -/
def SeqDesc.kScaleOff (d : SeqDesc) (h t i : Nat) : Nat :=
  d.hKv * d.headBits / 8 + h * (d.kScales + d.vScales) + i / 32 * d.pt + t
def SeqDesc.vScaleOff (d : SeqDesc) (h t i : Nat) : Nat :=
  d.hKv * d.headBits / 8 + h * (d.kScales + d.vScales) + d.kScales + t / 32 * d.dV + i

/-- R175, R177: the page slot of a position. -/
def SeqDesc.pageOf (d : SeqDesc) (k : Nat) : Nat :=
  let p := k / d.pt
  if d.windowed then p % d.windowPages else p

/-- R175: an entry's VALID bit, FAR bit and frame address. -/
def entryValid (e : Nat) : Bool := bit e 0
def entryFar (e : Nat) : Bool := bit e 1
def entryFrame (e : Nat) : Nat := bits e 12 32 * 4096
def mkEntry (frame : Nat) (far : Bool) : Nat := frame / 4096 * 4096 % 2 ^ 44 + (if far then 2 else 0) + 1

/-- `w` bits at bit offset `bo` from local address `a`. -/
def State.peekBits (s : State) (a bo w : Nat) : Nat :=
  bits (s.peekLE (a + bo / 8) ((bo % 8 + w + 7) / 8)) (bo % 8) w

def State.pokeBits (s : State) (a bo w v : Nat) : State :=
  let n := (bo % 8 + w + 7) / 8
  s.pokeLE (a + bo / 8) n (putBits (s.peekLE (a + bo / 8) n) (bo % 8) w v)

/-- R177: the resident range of a sequence. -/
def SeqDesc.residentLo (d : SeqDesc) : Nat :=
  if d.windowed && d.length != 0 then ((d.length - 1) / d.pt + 1 - d.windowPages) * d.pt else 0

/-! ### One step's operands -/

/-- The keys and values of one block as a step reads them: widths, codes of keys and values by key index, scales where
the format has them, and which keys are masked as beyond the end (R158, R162). -/
structure KeyBlock where
  dk : Nat
  dv : Nat
  fk : Fmt
  fv : Fmt
  k : Nat → Nat → Nat
  v : Nat → Nat → Nat
  ks : Nat → Nat → Nat
  vs : Nat → Nat → Nat
  valid : Nat → Bool

/-- A step's scalars: qbase, c, k0, B, the window and the masks. -/
structure StepPar where
  qbase : Nat
  scale : Nat
  k0 : Nat
  b : Nat
  causal : Bool
  win : Option Nat
  deriving DecidableEq, Repr

/-- PAGED keys: the sequence's descriptor as snapshotted, and the frame of the page of each key (R183). -/
def State.pagedBlock (s : State) (d : SeqDesc) (frames : List Nat) (h k0 : Nat) : KeyBlock :=
  let fr (j : Nat) : Nat := frames.getD j 0
  let t (j : Nat) : Nat := (k0 + j) % d.pt
  { dk := d.dK, dv := d.dV, fk := d.fk, fv := d.fv
    k := fun j i => s.peekBits (fr j) (d.kBit h (t j) i) d.fk.width
    v := fun j i => s.peekBits (fr j) (d.vBit h (t j) i) d.fv.width
    ks := fun j i => (s.peek (fr j + d.kScaleOff h (t j) i)).toNat
    vs := fun j i => (s.peek (fr j + d.vScaleOff h (t j) i)).toNat
    valid := fun j => decide (k0 + j < d.length) }

/-- DIRECT keys: K dimension-major, V token-major, the first token at position `base` (R158, R176). -/
def State.directBlock (s : State) (dk dv : Desc) (base valid k0 : Nat) : KeyBlock :=
  let t (j : Nat) : Nat := k0 - base + j
  { dk := dk.rows, dv := dv.cols, fk := dk.fmt, fv := dv.fmt
    k := fun j i => s.elemCode dk i (t j)
    v := fun j i => s.elemCode dv (t j) i
    ks := fun j i => s.scaleCode dk i (t j)
    vs := fun j i => s.scaleCode dv (t j) i
    valid := fun j => decide (k0 + j < base + valid) }

/-- R162: key `j` is masked for query row `r`. -/
def masked (p : StepPar) (kb : KeyBlock) (r j : Nat) : Bool :=
  let k := p.k0 + j
  !kb.valid j || (p.causal && decide (p.qbase + r < k)) ||
  (match p.win with | some w => decide (k + w < p.qbase + r + 1) | none => false)

/-- The product of a query row and a key in WSF at the score anchor (R161). -/
def State.qkCell (s : State) (dq : Desc) (kb : KeyBlock) (a : Int) (r j : Nat) : Wsf × BitVec 8 :=
  dotTerms kb.dk (fun i => kb.fk.value (kb.k j i)) (fun i => s.rawElem dq r i)
    (fun g => if kb.fk.isMx then some (kb.ks j (32 * g)) else none)
    (fun g => if dq.fmt.isMx then some (s.scaleCode dq r (32 * g)) else none) a

/-- R161, R162: a score and its flags. -/
def State.score (s : State) (dq : Desc) (kb : KeyBlock) (p : StepPar) (a : Int) (r j : Nat) : Val × BitVec 8 :=
  if masked p kb r j then (.inf true, 0#8)
  else
    let w := s.qkCell dq kb a r j
    let z := w.1.convert a
    match z.1 with
    | .num .. => let q := toFp32 (z.1.mul (ofFp32 p.scale)); (ofFp32 q.1, w.2 ||| z.2 ||| q.2)
    | x => (x, w.2 ||| z.2)

/-- A value rounded once to BF16, and the flag of its overflow (R60, R70). -/
def roundBf16 (v : Val) : Val × BitVec 8 :=
  let x := fpBf16.write false v
  (fpBf16.value x.1, x.2 &&& flOver)

/-- exp2 of a difference that is rounded once to FP32 (R163, R165, R169), with the flags of both. -/
def State.exp2Diff (s : State) (c : Nat) (compat : Bool) (a b : Val) : Val × BitVec 8 :=
  let d := toFp32 (a.sub b)
  let e := s.exp2 c compat (ofFp32 d.1)
  (e.1, e.2 ||| d.2)

/-- R163, R165: the probabilities of a row against a maximum, each +0 where that is −infinity. -/
def State.probs (s : State) (c : Nat) (compat : Bool) (zs : List Val) (m : Val) : List Val × BitVec 8 :=
  if m = .inf true then (zs.map (fun _ => Val.zero), 0#8)
  else
    let l := zs.map (fun z =>
      let e := s.exp2Diff c compat z m
      let p := roundBf16 e.1
      (p.1, e.2 ||| p.2))
    (l.map Prod.fst, l.foldl (fun f x => f ||| x.2) 0#8)

/-- A rounding to FP32 of an expression over `ops`, with its flags (R70). -/
def roundOf (ops : List Val) (r : Val) : Val × BitVec 8 :=
  let x := toFp32 r
  (ofFp32 x.1, x.2 ||| flagOp ops r)

/-- The product of a row of probabilities and the values: one column, in WSF (R163, R165). A key whose score is −infinity adds
nothing, and a scale that covers no other key is not applied (R162). -/
def pvCell (kb : KeyBlock) (zs ps : List Val) (a : Int) (i : Nat) : Wsf × BitVec 8 :=
  let live (j : Nat) : Bool := zs.getD j (.inf true) != .inf true
  dotTerms ps.length (fun j => if live j then kb.fv.value (kb.v j i) else Val.zero) (fun j => ps.getD j Val.zero)
    (fun g => if kb.fv.isMx && (List.range 32).any (fun j => live (32 * g + j)) then some (kb.vs (32 * g) i) else none)
    (fun _ => none) a

/-- One row of a state tile (R164). -/
structure TileRow where
  m : Val
  l : Val
  o : List Val
  deriving DecidableEq, Repr

def State.tileRow (s : State) (d : Desc) (r dv : Nat) : TileRow :=
  { m := s.elem d r 0, l := s.elem d r 1, o := (List.range dv).map (fun i => s.elem d r (4 + i)) }

def State.setTileRow (s : State) (d : Desc) (r : Nat) (t : TileRow) : State :=
  let s := s.setElemCode d r 0 (toFp32 t.m).1
  let s := s.setElemCode d r 1 (toFp32 t.l).1
  let s := (s.setElemCode d r 2 0).setElemCode d r 3 0
  (t.o.zip (List.range t.o.length)).foldl (fun s x => s.setElemCode d r (4 + x.2) (toFp32 x.1).1) s

/-- R163: the update of one query row; the flags are those of its marked roundings. -/
def State.astepRow (s : State) (c : Nat) (compat : Bool) (kb : KeyBlock) (zs : List Val) (ao : Int) (t : TileRow) :
    TileRow × BitVec 8 :=
  let mn := valMax t.m (zs.foldl valMax (.inf true))
  if mn = .inf true then (t, 0#8)
  else
    let ps := s.probs c compat zs mn
    let b := roundOf ps.1 (ps.1.foldl Val.add Val.zero)
    let al := s.exp2Diff c compat t.m mn
    let ob := (List.range kb.dv).map (fun i =>
      let w := pvCell kb zs ps.1 ao i
      let z := w.1.convert ao
      (roundFp32 z.1, w.2 ||| z.2 ||| (toFp32 z.1).2))
    let l := roundOf [al.1, t.l, b.1] ((al.1.mul t.l).add b.1)
    let o := (t.o.zip ob).map (fun x => roundOf [al.1, x.1, x.2.1] ((al.1.mul x.1).add x.2.1))
    ({ m := mn, l := l.1, o := o.map Prod.fst },
      ps.2 ||| al.2 ||| b.2 ||| l.2 ||| ob.foldl (fun f x => f ||| x.2) 0#8 ||| o.foldl (fun f x => f ||| x.2) 0#8 |||
        (if mn.isNan then flInvalid else 0#8))

/-- R169: tiles merged in source-index order. -/
def State.mergeTiles (s : State) (c : Nat) (compat : Bool) (dv : Nat) : List TileRow → TileRow × BitVec 8 :=
  List.foldl (fun acc t =>
    let mn := valMax acc.1.m t.m
    if mn = .inf true then acc
    else
      let a := s.exp2Diff c compat acc.1.m mn
      let g := s.exp2Diff c compat t.m mn
      let l := roundOf [a.1, acc.1.l, g.1, t.l] ((a.1.mul acc.1.l).add (g.1.mul t.l))
      let o := (acc.1.o.zip t.o).map (fun x => roundOf [a.1, x.1, g.1, x.2] ((a.1.mul x.1).add (g.1.mul x.2)))
      ({ m := mn, l := l.1, o := o.map Prod.fst },
        acc.2 ||| a.2 ||| g.2 ||| l.2 ||| o.foldl (fun f x => f ||| x.2) 0#8))
    ({ m := .inf true, l := Val.zero, o := List.replicate dv Val.zero }, 0#8)

end Sys2Proof.Machine
end

