-- ==== Sys2Proof/Machine/NbrOps.lean ====
section
/-! DEFINITION. Near-bank steps: the step word, the run checks, the rows a step reads and the results it forms (R188,
R191 to R197). -/

namespace Sys2Proof.Machine

/-- Local address of the sequence-store window of a channel (R209). -/
def seqStore (c n : Nat) : Nat := 0x0C002000000 + c * 0x10000 + n * 0x800

/-- A step's fields (R192). -/
structure NbStep where
  op : Nat
  nmask : Nat
  fmtM : Nat
  fmtX : Nat
  fmtOut : Nat
  anchor : Int
  sat : Bool
  last : Bool
  k : Nat
  count : Nat
  mbase : Nat
  rstride : Nat
  dest : Nat
  dstride : Nat
  event : Nat
  evEn : Bool
  idxBase : Nat
  reserved : Nat
  deriving DecidableEq, Repr

def NbStep.ofNat (v : Nat) : NbStep :=
  let w (i lo len : Nat) : Nat := bits v (64 * i + lo) len
  { op := w 0 0 4, nmask := w 0 4 4, fmtM := w 0 8 4, fmtX := w 0 12 4, fmtOut := w 0 16 4
    anchor := toSigned 10 (w 0 20 10), sat := w 0 30 1 == 1, last := w 0 31 1 == 1
    k := w 0 32 13, count := w 0 45 19
    mbase := w 1 0 25, rstride := w 1 25 25, dest := w 2 0 64
    dstride := w 3 0 24, event := w 3 24 6, evEn := w 3 30 1 == 1, idxBase := w 3 32 12
    reserved := w 1 50 14 + w 3 31 1 + w 3 44 20 }

def State.nbStep (s : State) (c n i : Nat) : NbStep := NbStep.ofNat (s.peekLE (seqStore c n + 32 * (i % 64)) 32)

def NbStep.fm (t : NbStep) : Fmt := (Fmt.ofCode t.fmtM).getD .wsf
def NbStep.fx (t : NbStep) : Fmt := (Fmt.ofCode t.fmtX).getD .wsf
def NbStep.fo (t : NbStep) : Fmt := (Fmt.ofCode t.fmtOut).getD .wsf
/-- GSUM, GWSUM, GMAX and GCOPY read listed rows. -/
def NbStep.gather (t : NbStep) : Bool := decide (2 ≤ t.op) && decide (t.op ≤ 5)
def NbStep.exec (t : NbStep) (k : Nat) : Bool := bit t.nmask k

/-- R195: the size of a row of `n` elements, MX scales inline. -/
def nbRowSize (f : Fmt) (n : Nat) : Nat := (n * f.width + 7) / 8 + (if f.isMx then (n + 31) / 32 else 0)

/-- The bytes a row, or a load, takes. -/
def NbStep.size (t : NbStep) : Nat :=
  if t.op = 7 then 4 * t.count else if t.op = 6 then nbRowSize t.fx t.k else nbRowSize t.fm t.k

/-- R193: elements and bytes of one NBR's result area. -/
def NbStep.elems (t : NbStep) : Nat := if t.op = 1 then t.count else t.k
def NbStep.area (t : NbStep) : Nat :=
  if t.op = 5 then t.count * t.rstride
  else if 6 ≤ t.op then 0
  else if t.fo = .wsf then (17 * t.elems + 31) / 32 * 32 else t.elems * (t.fo.width / 8)

/-- R194. -/
def NbStep.formatOk (t : NbStep) : Bool :=
  let m := t.fm; let x := t.fx; let o := t.fo
  let gm := (Fmt.ofCode t.fmtM).isSome
  let sumOut := (Fmt.ofCode t.fmtOut).isSome &&
    (o == .fp32 || o == .bf16 || o == .fp16 || o == .e4m3 || o == .e5m2 || o == .wsf)
  match t.op with
  | 1 => gm && mmaFmt m && (Fmt.ofCode t.fmtX).isSome && pairOk m x && sumOut
  | 2 => gm && (m.isFloat || m == .int8) && sumOut
  | 3 => gm && (m.isFloat || m == .int8) && (Fmt.ofCode t.fmtX).isSome && (x == .fp32 || x == .bf16) && sumOut
  | 4 => gm && (m.isFloat || m == .int8) && (Fmt.ofCode t.fmtOut).isSome &&
      (o == .fp32 || o == .bf16 || o == .fp16 || o == .e4m3 || o == .e5m2 || o == .int8)
  | 5 => gm && m != .wsf && t.fmtOut == t.fmtM
  | 6 => (Fmt.ofCode t.fmtX).isSome && x != .wsf && x != .int32 && x != .int64
  | 7 => true
  | _ => false

/-- R192: ranges, alignments and reserved fields. -/
def NbStep.rangesOk (t : NbStep) : Bool :=
  let rows := decide (t.op ≤ 5)
  t.nmask != 0 && t.reserved == 0 && decide (1 ≤ t.k) && decide (t.k ≤ 4096) &&
  (t.op == 6 || decide (1 ≤ t.count)) && (t.op == 1 || t.op == 6 || decide (t.count ≤ 4096)) &&
  t.mbase % 32 == 0 && t.rstride % 32 == 0 && (!rows || decide ((t.size + 31) / 32 * 32 ≤ t.rstride)) &&
  t.dest % 32 == 0 && t.dstride % 32 == 0 && decide (t.area ≤ t.dstride) &&
  (!(t.gather || t.op == 7) || decide (t.idxBase + t.count ≤ 4096)) &&
  (t.op != 1 || decide (t.mbase + (t.count - 1) * t.rstride + t.size ≤ 2 ^ 25)) &&
  (!(t.op == 6 || t.op == 7) || decide (t.mbase + t.size ≤ 2 ^ 25))

/-- The steps of a run, from its start to the first with LAST, at most 64; none where no LAST is reached (R187, R191). -/
def State.runSteps (s : State) (c n start : Nat) : Nat → Option (List NbStep)
  | 0 => none
  | f + 1 =>
    let t := s.nbStep c n start
    if t.last then some [t] else (s.runSteps c n (start + 1) f).map (t :: ·)

/-- R191: the run checks in their order. -/
def checkRun (s : State) (c n start : Nat) : Exit :=
  match s.runSteps c n start 64 with
  | none => .stop (excDetail xShape 2)
  | some ts => firstOf
    [ fun _ => require (ts.all NbStep.formatOk) xFormat 2,
      fun _ => require (ts.all NbStep.rangesOk) xShape 2,
      fun _ => if ts.all (fun t => (List.range 4).all (fun k => !t.exec k || s.nbrUsable c n k)) then .go
        else .stop (unusable 7 n) ]

/-- Local address of a group offset of bank group `k` of a channel (R188, R256). -/
def groupAddr (c n k off : Nat) : Nat := sliceAddr c n (k * 2 ^ 25 + off)

/-- The group offsets of the rows that NBR `k` reads in a step, in order. -/
def State.stepRows (s : State) (c n k : Nat) (t : NbStep) : List Nat :=
  if t.op = 1 then (List.range t.count).map (fun r => t.mbase + r * t.rstride)
  else if t.gather then
    (List.range t.count).map (fun j => t.mbase + tget 0 (s.buf c n k).index (t.idxBase + j) * t.rstride)
  else [t.mbase]

/-- R203: the first listed row that an index places beyond 32 MiB. -/
def State.badIndex (s : State) (c n : Nat) (t : NbStep) : Option Nat :=
  if t.gather then
    (List.range 4).findSome? (fun k =>
      if t.exec k then (s.stepRows c n k t).find? (fun o => decide (2 ^ 25 < o + t.size)) else none)
  else none

/-- The DRAM rows (2 KiB each) that a list of rows visits in order, each with the rows it completes; a row that begins
in the DRAM row at which the previous one ended does not open it again (R188, R205). -/
def visitsOf (size : Nat) : List (Nat × Nat) → Option Nat → List (Nat × List Nat) → List (Nat × List Nat)
  | [], _, acc => acc.reverse
  | (r, o) :: t, prev, acc =>
    let first := o / 2048
    let lastRow := (o + size - 1) / 2048
    let fresh := (List.range (lastRow - first + 1)).map (· + first)
    let fresh := if prev = some first then fresh.drop 1 else fresh
    let acc := fresh.foldl (fun a d => (d, []) :: a) acc
    let acc := match acc with
      | (d, l) :: rest => (d, l ++ [r]) :: rest
      | [] => []
    visitsOf size t (some lastRow) acc

def State.stepVisits (s : State) (c n k : Nat) (t : NbStep) : List (Nat × List Nat) :=
  let rows := s.stepRows c n k t
  visitsOf t.size ((List.range rows.length).zip rows) none []

/-- Row bursts a step takes: the longest of its NBRs'. -/
def State.stepBursts (s : State) (c n : Nat) (t : NbStep) : Nat :=
  (List.range 4).foldl (fun m k => if t.exec k then max m (s.stepVisits c n k t).length else m) 0

/-! ### Elements -/

/-- Element `i` of the row at group offset `o`: its raw value, and its scale where the format has one. -/
def State.bankElem (s : State) (c n k : Nat) (f : Fmt) (o i : Nat) : Val :=
  f.value (s.peekBits (groupAddr c n k o) (i * f.width) f.width)
def State.bankScale (s : State) (c n k : Nat) (f : Fmt) (len o b : Nat) : Nat :=
  (s.peek (groupAddr c n k (o + (len * f.width + 7) / 8 + b))).toNat
def State.bankVal (s : State) (c n k : Nat) (f : Fmt) (len o i : Nat) : Val :=
  let v := s.bankElem c n k f o i
  if f.isMx then scaled (s.bankScale c n k f len o (i / 32)) v else v

def NbrBuf.raw (b : NbrBuf) (f : Fmt) (i : Nat) : Val := f.value (tget 0 b.vec i)
def NbrBuf.val (b : NbrBuf) (f : Fmt) (i : Nat) : Val :=
  let v := b.raw f i
  if f.isMx then scaled (tget 0 b.scales (i / 32)) v else v

/-- R196, R70: one GEMV result and its flags. -/
def State.gemvCell (s : State) (c n k : Nat) (t : NbStep) (o : Nat) : Wsf × BitVec 8 :=
  let b := s.buf c n k
  (dotTerms t.k (fun i => s.bankElem c n k t.fm o i) (fun i => b.raw t.fx i)
    (fun g => if t.fm.isMx then some (s.bankScale c n k t.fm t.k o g) else none)
    (fun g => if t.fx.isMx then some (tget 0 b.scales g) else none) t.anchor)

/-- R197: the terms of one element of a gathered sum, and their flags. -/
def State.gatherCell (s : State) (c n k : Nat) (t : NbStep) (rows : List Nat) (i : Nat) : Wsf × BitVec 8 :=
  let b := s.buf c n k
  (rows.zip (List.range rows.length)).foldl (fun (w : Wsf × BitVec 8) x =>
    let v := s.bankVal c n k t.fm t.k x.1 i
    let y := if t.op = 3 then (b.val t.fx x.2).mul v else v
    (w.1.add (Wsf.ofTerm 126 t.anchor y), w.2 ||| flagOp [] y)) (Wsf.zero, 0#8)

/-- A WSF result as the bytes of FMT_OUT (R69), with the flags of its conversion (R70). -/
def NbStep.outBytes (t : NbStep) (w : Wsf) : List Byte × BitVec 8 :=
  if t.fo = .wsf then (leBytes 16 w.n.toNat, 0#8)
  else
    let x := w.convert t.anchor
    let y := t.fo.write t.sat x.1
    (leBytes (t.fo.width / 8) y.1, x.2 ||| y.2)

/-- The flags of a list of results with their own: those of their terms and of their conversions. -/
def NbStep.flagsOf (t : NbStep) (ws : List (Wsf × BitVec 8)) : BitVec 8 :=
  ws.foldl (fun f w => f ||| w.2 ||| (t.outBytes w.1).2) 0#8

/-- Bytes cut into result writes of at most 32 (R204). -/
def pieces32 (a : Nat) (l : List Byte) : Nat → List (Nat × List Byte)
  | 0 => []
  | f + 1 => if l.isEmpty then [] else (a, l.take 32) :: pieces32 (a + 32) (l.drop 32) f

/-- The result writes of WSF results `ws` from element `i0` of an area, values then tags (R193). -/
def NbStep.areaWrites (t : NbStep) (a i0 : Nat) (ws : List Wsf) : List (Nat × List Byte) :=
  let e := t.fo.width / 8
  pieces32 (a + i0 * e) (ws.flatMap (fun w => (t.outBytes w).1)) (ws.length + 1) ++
    (if t.fo = .wsf then pieces32 (a + 16 * t.elems + i0) (ws.map (fun w => BitVec.ofNat 8 w.tag.toNat)) (ws.length + 1)
     else [])

/-- What NBR `k` forms when the rows `done` of its step are read, GEMV row by row and a gather after its last row: the result
writes, the results, and the flags. -/
def State.stepResults (s : State) (c n k : Nat) (t : NbStep) (done : List Nat) (all : Bool) :
    List (Nat × List Byte) × List Wsf × BitVec 8 :=
  let a := t.dest + k * t.dstride
  let rows := s.stepRows c n k t
  if t.op = 1 then
    let ws := done.map (fun r => (r, s.gemvCell c n k t (rows.getD r 0)))
    (ws.flatMap (fun x => t.areaWrites a x.1 [x.2.1]), ws.map (fun x => x.2.1), t.flagsOf (ws.map Prod.snd))
  else if !all then ([], [], 0#8)
  else if t.op = 2 ∨ t.op = 3 then
    let ws := (List.range t.k).map (s.gatherCell c n k t rows)
    (t.areaWrites a 0 (ws.map Prod.fst), ws.map Prod.fst, t.flagsOf ws)
  else if t.op = 4 then
    let vs := (List.range t.k).map (fun i => (rows.map (fun o => s.bankVal c n k t.fm t.k o i)).foldl valMax (.inf true))
    let bs := vs.map (fun m => t.fo.write t.sat m)
    (pieces32 a (bs.flatMap (fun b => leBytes (t.fo.width / 8) b.1)) (t.k + 1), [],
      bs.foldl (fun f b => f ||| b.2) (flagOp vs Val.zero))
  else if t.op = 5 then
    ((rows.zip (List.range rows.length)).flatMap (fun x =>
      pieces32 (a + x.2 * t.rstride) (s.peeks (groupAddr c n k x.1) t.size) (t.size + 1)), [], 0#8)
  else ([], [], 0#8)

/-- R193: LOADV and LOADI fill the buffers from the banks. -/
def State.stepLoad (s : State) (c n k : Nat) (t : NbStep) : State :=
  let b := s.buf c n k
  if t.op = 6 then
    let v := (List.range t.k).foldl (fun v i =>
      tset 0 v i (s.peekBits (groupAddr c n k t.mbase) (i * t.fx.width) t.fx.width)) b.vec
    let sc := if t.fx.isMx then (List.range ((t.k + 31) / 32)).foldl (fun v i =>
      tset 0 v i (s.bankScale c n k t.fx t.k t.mbase i)) b.scales else b.scales
    s.setBuf c n k { b with vec := v, scales := sc }
  else if t.op = 7 then
    s.setBuf c n k { b with index := (List.range t.count).foldl (fun v i =>
      tset 0 v (t.idxBase + i) (s.peekLE (groupAddr c n k (t.mbase + 4 * i)) 4)) b.index }
  else s

/-- R201: the result areas of a run that lie in a channel, as runs of channel offsets. -/
def State.resultAreas (s : State) (c n start : Nat) : List (Nat × Nat) :=
  match s.runSteps c n start 64 with
  | none => []
  | some ts => ts.flatMap (fun t => (List.range 4).filterMap (fun k =>
      if t.exec k ∧ t.area ≠ 0 then some (t.dest + k * t.dstride, t.area) else none))

end Sys2Proof.Machine
end

