-- ==== Sys2Proof/Machine/Map.lean ====
section
/-! DEFINITION. Updates of the Marquetry map (R15, R17 to R24), its window, and MSI-X messages (R374). -/

namespace Sys2Proof.Machine

/-- A message on vector `v` leaves through the host port (R374). -/
def State.msix (s : State) (v : Nat) : State := { s with out := .msix v :: s.out }

/-! ### Entries shown -/

/-- The units above the one at a map offset: the offsets of its ancestors (R17, R18). -/
def ancestorsOf (o : Nat) : List Nat :=
  if o < 0x80 then []
  else if o < 0x100 then [offDie ((o - 0x80) / 16)]
  else if o < 0x900 then let c := (o - 0x100) / 32; [offCore c, offDie (c / 16)]
  else if o < 0x2900 then let c := (o - 0x900) / 128; [offChan c ((o - 0x900) % 128 / 4), offCore c, offDie (c / 16)]
  else if o < 0x7900 then let c := (o - 0x2900) / 320; [offChan c ((o - 0x2900) % 320 / 10), offCore c, offDie (c / 16)]
  else if o < 0x7940 then let x := (o - 0x7900) / 16; [offDie x, offDie ((x + 1) % 4)]
  else if o < 0x8A40 then
    let x := (o - 0x7940) / 1088
    [offMod x ((o - 0x7940) % 1088 / 68), offDie x, offDie ((x + 1) % 4)]
  else if o < 0x8A80 then let p := (o - 0x8A40) / 8; [offPort p, offDie (p / 2)]
  else if o < 0x8A90 then let f := (o - 0x8A80) / 8; [offPort (8 + f), offDie (portDie (8 + f))]
  else if o < 0x8AA0 then [offPort 10, offDie 0]
  else if o < 0x8AB0 then [offDie (portDie (o - 0x8AA0))]
  else []

/-- The entry byte that the map shows at an offset (R18, R20). -/
def State.shownAt (s : State) (o : Nat) : Byte :=
  if o < 0x40 then 0#8
  else if o < 0x44 then s.dieShown (o - 0x40)
  else if o < 0x80 then 0#8
  else if o < 0xC0 then s.coreShown (o - 0x80)
  else if o < 0x100 then 0#8
  else if o < 0x900 then s.chanShown ((o - 0x100) / 32) ((o - 0x100) % 32)
  else if o < 0x7900 then s.ownAt o
  else if o < 0x7940 then s.modShown ((o - 0x7900) / 16) ((o - 0x7900) % 16)
  else if o < 0x8AA0 then s.ownAt o
  else if o < 0x8AAB then s.portShown (o - 0x8AA0)
  else 0#8

/-- The ancestors that govern a unit's usability: those of `ancestorsOf` but a core, which does not govern its channels (R17). -/
def governorsOf (o : Nat) : List Nat := (ancestorsOf o).filter (fun a => !(decide (0x80 ≤ a) && decide (a < 0xC0)))

/-- R17: the unit at a map offset may be used. -/
def State.usableAt (s : State) (o : Nat) : Bool :=
  usableSt (statusOf (s.shownAt o)) && (governorsOf o).all (fun a => usableSt (statusOf (s.shownAt a)))

/-- The count before agreement is zero (R21, R419). -/
def State.cadence (s : State) : Nat := if s.flag F.cadStatus_agreed then s.get F.cadCount_count else 0

/-! ### Updates (R22, R23) -/

/-- One event's change of the map: `offs` are the entries it names, `f` what it writes. While the map is being built it
is no update; otherwise the generation advances by 2, the last change is noted, CHANGE is set and the vector sent. -/
def State.mapChange (s : State) (offs : List Nat) (f : State → State) : State :=
  let t := f s
  if s.flag F.mqStatus_building then t
  else
    let cand := (offs ++ offs.flatMap ancestorsOf).eraseDups
    let changed := cand.filter (fun o => s.shownAt o != t.shownAt o)
    if changed.isEmpty then t
    else
      let first := (offs.filter (fun o => s.shownAt o != t.shownAt o)).headD (offs.headD 0)
      let t := t.puts
        [(F.mqGeneration_generation, [], t.get F.mqGeneration_generation + 2),
         (F.mqLastChange_offset, [], first), (F.mqLastChange_count, [], min 255 changed.length),
         (F.mqStatus_change, [], 1)]
      let t := { t with mapCadence := t.cadence }
      if t.flag F.mqControl_intEn then t.msix (t.get F.mqControl_vector) else t

def State.setOwns (s : State) (l : List (Nat × Byte)) : State := l.foldl (fun s p => s.setOwn p.1 p.2) s

/-- Own statuses written by one event (R22). -/
def State.mapUpdate (s : State) (l : List (Nat × Byte)) : State := s.mapChange (l.map Prod.fst) (·.setOwns l)

/-- Units made OFFLINE with cause 0x9 by one event, each keeping its entry for its return (R23). Units that are not
usable are not touched. -/
def State.mapOffline (s : State) (offs : List Nat) : State :=
  let l := offs.filter s.usableAt
  let s := { s with mapSaved := l.foldl (fun t o => tset none t o (some (s.ownAt o))) s.mapSaved }
  s.mapUpdate (l.map (fun o => (o, entry stOffline 9)))

/-- Units restored to the entry they held, or set to FAILED with cause 0x6 where `bad` says so (R23, R444). -/
def State.mapRestore (s : State) (offs : List Nat) (bad : Nat → Bool) : State :=
  let l := offs.filterMap (fun o => (tget none s.mapSaved o).map (fun b => (o, if bad o then entry stFailed 6 else b)))
  let s := { s with mapSaved := offs.foldl (fun t o => tset none t o none) s.mapSaved }
  s.mapUpdate l

/-! ### The window (R20, R21) -/

def State.usableCores (s : State) : Nat := ((List.range 64).filter s.coreUsable).length
def State.usableChans (s : State) : Nat := ((List.range 2048).filter (fun i => s.chanUsable (i / 32) (i % 32))).length
def State.usableNbrs (s : State) : Nat :=
  ((List.range 8192).filter (fun i => s.nbrUsable (i / 128) (i % 128 / 4) (i % 4))).length

/-- The header's last completed generation: the value before an update or first build in progress. -/
def State.mapGen (s : State) : Nat :=
  let g := s.get F.mqGeneration_generation
  if g % 2 = 1 then g - 1 else g

/-- The header's bytes but BODY_CRC, as one number. -/
def State.mapHeaderLE (s : State) : Nat :=
  1 + s.mapGen * 2 ^ 32 + s.mapCadence * 2 ^ 64 +
  ((List.range 4).map (fun d => Config.stepping d % 256 * 2 ^ (8 * d))).sum * 2 ^ 128 +
  s.usableCores * 2 ^ 160 + s.usableChans * 2 ^ 176 + s.usableNbrs * 2 ^ 192 + 0x9000 * 2 ^ 224

/-- BODY_CRC over the entries. -/
def State.mapCrc (s : State) : Nat := crc32 ((List.range 0x8FC0).map (fun i => s.shownAt (0x40 + i)))

/-- A byte of the map window. -/
def State.mapByte (s : State) (o : Nat) : Byte :=
  if o < 0x20 then BitVec.ofNat 8 (s.mapHeaderLE / 256 ^ o)
  else if o < 0x24 then BitVec.ofNat 8 (s.mapCrc / 256 ^ (o - 0x20))
  else if o < 0x40 then 0#8
  else s.shownAt o

end Sys2Proof.Machine
end

