-- ==== Sys2Proof/Machine/Fault.lean ====
section
/-! DEFINITION. Fault records and the fault log (R419 to R421), and majority votes (R422). -/

namespace Sys2Proof.Machine

def kCoreFault : Nat := 0x01
def kSpadParity : Nat := 0x02
def kMemUncorr : Nat := 0x03
def kNbrFailed : Nat := 0x04
def kLaneDead : Nat := 0x05
def kChannelFailed : Nat := 0x06
def kJigFailed : Nat := 0x07
def kDieReset : Nat := 0x08
def kMeshLink : Nat := 0x09
def kBennexDiscard : Nat := 0x0A
def kGolfortLoss : Nat := 0x0B
def kFarLost : Nat := 0x0C
def kConsGiveup : Nat := 0x0D
def kVoteFail : Nat := 0x0E
def kAuditFail : Nat := 0x0F
def kWarmRestart : Nat := 0x10

/-- The package as a record's UNIT. -/
def unitPackage : Nat := 0xFFFF

/-- Where the fault log window begins in the local map (R421, R41). -/
def faultLogBase : Nat := 0x0C0000F8000

/-- The 60 bytes of a record before its CRC, as one number. -/
def FltRec.body (r : FltRec) (seq : Nat) : Nat :=
  seq % 2 ^ 32 + r.kind % 256 * 2 ^ 32 + r.action % 256 * 2 ^ 40 + r.unit % 2 ^ 16 * 2 ^ 48 +
  r.cadence % 2 ^ 64 * 2 ^ 64 + r.cores % 2 ^ 64 * 2 ^ 128 + r.discarded % 2 ^ 32 * 2 ^ 192 +
  r.master % 2 ^ 9 * 2 ^ 224 + r.address % 2 ^ 64 * 2 ^ 256 + r.detail % 2 ^ 64 * 2 ^ 320

/-- A record's 64 bytes (R419). -/
def FltRec.bytes (r : FltRec) (seq : Nat) : List Byte :=
  let b := leBytes 60 (r.body seq)
  b ++ leBytes 4 (crc32 b)

/-- R421: a record performed in the log. -/
def State.performFault (s : State) (r : FltRec) : State :=
  let seq := s.get F.fltNextSeq_seq
  let behind := (seq + 2 * 2 ^ 32 - 512 - s.get F.fltAck_seq) % 2 ^ 32
  let s := if 512 ≤ seq ∧ 0 < behind ∧ behind < 2 ^ 31 then s.bump F.fltOverwrites_count [] else s
  let s := s.pokes (faultLogBase + seq % 512 * 64) (r.bytes seq)
  let s := s.puts [(F.fltNextSeq_seq, [], seq + 1), (F.fltStatus_new, [], 1)]
  if s.flag F.fltControl_intEn then s.msix (s.get F.fltControl_vector) else s

/-- Die `d` is in partial reset (R449). -/
def State.dieInReset (s : State) (d : Nat) : Bool := bit (s.get F.bruDieReset_active) d

/-- R421: a record that die `d` writes. While D0 is in partial reset each other die holds up to 16, and D0's own waits
for its return. -/
def State.fault (s : State) (d : Nat) (r : FltRec) : State :=
  if s.dieInReset 0 then
    let l := tget [] s.fltHeld d
    if l.length < 16 then { s with fltHeld := tset [] s.fltHeld d (l ++ [r]) }
    else { s with fltLostBy := tset 0 s.fltLostBy d (tget 0 s.fltLostBy d + 1) }
  else s.performFault r

/-- R421: the held records delivered when D0 returns, in order, and the dropped ones counted. -/
def State.deliverFaults (s : State) : State :=
  let l := (List.range 4).flatMap (fun d => tget [] s.fltHeld d)
  let lost := ((List.range 4).map (fun d => tget 0 s.fltLostBy d)).sum
  let s := { s with fltHeld := [], fltLostBy := [] }
  let s := l.foldl State.performFault s
  s.bump F.fltLost_count [] lost

/-- A record of an event of the model: the count is the one at the event (R419). -/
def State.record (s : State) (kind action unit : Nat) (cores discarded master address detail : Nat := 0) : FltRec :=
  { kind := kind, action := action, unit := unit, cadence := s.cadence, cores := cores, discarded := discarded,
    master := master, address := address, detail := detail }

/-- R422: `n` minority copies of class `k` rewritten; class 0 also counts in MQ_VOTE_CORRECTIONS. -/
def State.voteCorrected (s : State) (k n : Nat) : State :=
  let s := s.bump F.voteCorr_count [k] n
  if k = 0 then s.bump F.mqVoteCorrections_count [] n else s

/-- R422: a word of class `k` of which all three copies differ: the record VOTE_FAIL and FLT_STATUS.VOTE_FAIL. -/
def State.voteFail (s : State) (k : Nat) : State :=
  (s.put F.fltStatus_voteFail [] 1).fault 0 (s.record kVoteFail 0 unitPackage (detail := k))

end Sys2Proof.Machine
end

