-- ==== Sys2Proof/Machine/Slice.lean ====
section
/-! DEFINITION. Channel controllers: decoding a codeword (R260, R261), reads and writes of slice bytes (R263, R264), the
memory-side adder (R270 to R272), lanes and channels that fail (R262, R275), refresh and the scrubber. -/

namespace Sys2Proof.Machine

def State.chan (s : State) (c n : Nat) : Chan := tget {} s.chans (32 * c + n)
def State.setChan (s : State) (c n : Nat) (x : Chan) : State := { s with chans := tset {} s.chans (32 * c + n) x }
def State.modChan (s : State) (c n : Nat) (f : Chan → Chan) : State := s.setChan c n (f (s.chan c n))

/-- The index of the codeword that holds offset `off` of a channel, in units of 256 bytes of the local map. -/
def cwOf (c n off : Nat) : Nat := sliceAddr c n off / 256

/-! ### Decoding -/

inductive Decoded where
  | good | poisoned | uncorrectable
  deriving DecidableEq, Repr

/-- An event offered to the error log (R276). -/
def State.slcLog (s : State) (c n kind symbols lane master : Nat) (scrub : Bool) (off : Nat) : State :=
  let ix := [c, n]
  if s.flag F.slcErrLog_valid ix then s.put F.slcErrLog_overflow ix 1
  else s.puts [(F.slcErrLog_valid, ix, 1), (F.slcErrLog_kind, ix, kind), (F.slcErrLog_symbols, ix, symbols),
    (F.slcErrLog_lane, ix, lane), (F.slcErrLog_masterId, ix, if scrub then 0 else master),
    (F.slcErrLog_scrub, ix, if scrub then 1 else 0), (F.slcErrAddr_offset, ix, off / 256 * 256),
    (F.slcStatus_err, ix, 1)]

/-- The lanes of a codeword in error outside the erasure mask, lowest first. -/
def State.badLanes (s : State) (c n off : Nat) : List Nat :=
  let dead := s.deadLanes c n
  let l := tget [] s.symErrs (cwOf c n off)
  (List.range 144).filter (fun j => l.contains j && !bit dead j)

/-- R260: what the decoder finds, with f erasures and e other symbols in error. -/
def State.decodes (s : State) (c n off : Nat) : Decoded :=
  let ok := decide (2 * (s.badLanes c n off).length + popcount (s.deadLanes c n) 144 ≤ 16)
  if !ok then .uncorrectable else if s.poison.contains (cwOf c n off) then .poisoned else .good

/-- Lanes found in error stay in error until the codeword is written again. -/
def State.addErrs (s : State) (c n off : Nat) (errs : List Nat) : State :=
  { s with symErrs := tset [] s.symErrs (cwOf c n off) (errs.foldl nsIns (tget [] s.symErrs (cwOf c n off))) }

/-- A codeword encoded afresh. -/
def State.encodeCw (s : State) (c n off : Nat) : State :=
  { s with symErrs := tset [] s.symErrs (cwOf c n off) [], poison := nsDel s.poison (cwOf c n off) }

/-- A codeword held as another one: poisoned or with that data, and differing from it in some lanes. -/
def State.otherCw (s : State) (c n off : Nat) (bad : Bool) (data : Nat) (lanes : List Nat) : State :=
  let s := (s.encodeCw c n off).pokes (sliceAddr c n (off / 256 * 256)) ((List.range 256).map (fun i => BitVec.ofNat 8 (data / 256 ^ i)))
  ({ s with poison := if bad then nsIns s.poison (cwOf c n off) else s.poison }).addErrs c n off
    (lanes.filter (fun j => decide (j < 144)))

/-- R260: a received word beyond the bound may lie within the bound of another codeword, and is then that one with other lanes in
error; whether it does, and of which, is a free value. -/
def State.misread (s : State) (c n off : Nat) : State :=
  match s.decodes c n off with
  | .uncorrectable =>
    let f := s.fresh
    match Config.otherCodeword f.1 with
    | none => f.2
    | some x =>
      let t := f.2.otherCw c n off x.1 x.2.1 x.2.2
      if t.decodes c n off = .uncorrectable then f.2 else t
  | _ => s

/-- R260, R263, R264: one decode of a codeword by any reader: corrections and failures counted, logged, and held towards
the limits of R262 and R275; a corrected demand read is queued for repair (R273). -/
def State.decodeCw (s : State) (c n off master : Nat) (scrub : Bool) : State × Decoded :=
  let s := s.misread c n off
  let bad := s.badLanes c n off
  match s.decodes c n off with
  | .good =>
    if bad.isEmpty then (s, .good)
    else
      let s := (s.bump F.slcCorrected_count [c, n]).slcLog c n 0 (min 8 bad.length) (bad.headD 0) master scrub off
      let s := s.modChan c n (fun x =>
        { x with laneHits := bad.foldl (fun t j => tset 0 t j (tget 0 t j + 1)) x.laneHits
                 repair := if scrub || decide (16 ≤ x.repair.length) || x.repair.contains (off / 256 * 256) then x.repair
                           else x.repair ++ [off / 256 * 256] })
      (s, .good)
  | .poisoned => ((s.bump F.slcUncorrectable_count [c, n]).slcLog c n 2 0 0 master scrub off, .poisoned)
  | .uncorrectable =>
    let s := (s.bump F.slcUncorrectable_count [c, n]).slcLog c n 1 0 0 master scrub off
    (s.modChan c n (fun x => { x with uncorr := nsIns x.uncorr (off / 256) }), .uncorrectable)

/-! ### Reads and writes -/

/-- The pieces of `len` bytes from `off` that lie in one codeword each: (offset, length). -/
def cwPieces (off len : Nat) : List (Nat × Nat) :=
  if len = 0 then []
  else (List.range ((off + len - 1) / 256 - off / 256 + 1)).map (fun i =>
    let lo := max off ((off / 256 + i) * 256)
    let hi := min (off + len) ((off / 256 + i + 1) * 256)
    (lo, hi - lo))

/-- R264: bytes of a slice read; none where a codeword fails. -/
def State.sliceRead (s : State) (c n off len master : Nat) : State × Option (List Byte) :=
  let r := (cwPieces off len).foldl (fun (st : State × Bool) p =>
    let d := st.1.decodeCw c n p.1 master false
    (d.1, st.2 && d.2 == .good)) (s, true)
  (r.1, if r.2 then some (r.1.peeks (sliceAddr c n off) len) else none)

/-- The poison word P written to a codeword (R263). -/
def State.writePoison (s : State) (c n off master : Nat) : State :=
  let s := s.pokes (sliceAddr c n (off / 256 * 256)) (List.replicate 256 0#8)
  let s := { s.encodeCw c n off with poison := nsIns s.poison (cwOf c n off) }
  (s.bump F.slcPoisonWrites_count [c, n]).slcLog c n 3 0 0 master false off

/-- R263: a locked read-merge-write of one codeword: `f` writes the merged bytes; a codeword that cannot be decoded becomes
P instead. -/
def State.mergeCw (s : State) (c n off master : Nat) (f : State → State) : State :=
  let d := s.decodeCw c n off master false
  if d.2 = .good then (f d.1).encodeCw c n off else d.1.writePoison c n off master

/-- The writes of one block, in arrival order: a whole block needs no read (R257, R263). -/
def State.writeCw (s : State) (c n master : Nat) (ws : List (Nat × List Byte)) : State :=
  match ws with
  | [] => s
  | (off, _) :: _ =>
    let put (s : State) : State := ws.foldl (fun s w => s.pokes (sliceAddr c n w.1) w.2) s
    let whole := (List.range 256).all (fun i =>
      ws.any (fun w => decide (w.1 ≤ off / 256 * 256 + i) && decide (off / 256 * 256 + i < w.1 + w.2.length)))
    if whole then (put s).encodeCw c n off else s.mergeCw c n off master put

/-- Bytes of a slice written. -/
def State.sliceWrite (s : State) (c n off : Nat) (bs : List Byte) (master : Nat) : State :=
  (cwPieces off bs.length).foldl (fun s p => s.writeCw c n master [(p.1, (bs.drop (p.1 - off)).take p.2)]) s

/-! ### The memory-side adder (R270 to R272) -/

/-- Bytes of an operand by OP. -/
def addSize (op : Nat) : Nat := match op with | 0 => 4 | 1 => 8 | 2 => 4 | 3 => 2 | _ => 16

/-- The sum by OP: integers wrap, floats round once, WSF adds modulo 2^128. -/
def addSum (op a b : Nat) : Nat :=
  match op with
  | 0 => (a + b) % 2 ^ 32
  | 1 => (a + b) % 2 ^ 64
  | 2 => (Fmt.fp32.write false ((Fmt.fp32.value a).add (Fmt.fp32.value b))).1
  | 3 => (Fmt.bf16.write false ((Fmt.bf16.value a).add (Fmt.bf16.value b))).1
  | _ => (a + b) % 2 ^ 128

/-- R271: a request that its channel's adder does not perform. -/
def addInvalid (op addr operand tag tagAddr : Nat) : Bool :=
  decide (4 < op) || addr % addSize op != 0 || decide (2 ^ (8 * addSize op) ≤ operand) || decide (16 ≤ tag) ||
  (tag != 0 && op != 4) ||
  (tag != 0 && (match targetOfLocal (localOf addr), targetOfLocal (localOf tagAddr) with
    | .slice c n _, .slice c' n' _ => !(c == c' && n == n' && chipOf addr == chipOf tagAddr)
    | _, _ => true))

/-- The additions of one locked sequence, all of one block and with their tag bytes in one codeword: one read-merge-write of the
value's codeword, and one of the tags' where it is another (R263, R271, R272). -/
def State.addAll (s : State) (c n : Nat) (l : List AddReq) : State :=
  match l with
  | [] => s
  | r :: _ =>
    let block := r.off / 256
    let tags (s : State) : State := l.foldl (fun s a =>
      if a.tag = 0 then s
      else
        let t := sliceAddr c n a.tagOff
        s.poke t (s.peek t ||| BitVec.ofNat 8 a.tag)) s
    let here := l.all (fun a => a.tag == 0 || a.tagOff / 256 == block)
    let s := s.mergeCw c n r.off r.master (fun s =>
      let s := l.foldl (fun s a =>
        let t := sliceAddr c n a.off
        s.pokeLE t (addSize a.op) (addSum a.op (s.peekLE t (addSize a.op)) a.operand)) s
      if here then tags s else s)
    match l.find? (fun a => a.tag != 0) with
    | some a => if here then s else s.mergeCw c n a.tagOff a.master tags
    | none => s

/-- The requests that one locked sequence applies: those that share the oldest's block, and whose tag
bytes, where they carry tags, lie in one codeword (R272). -/
def addBatch (l : List AddReq) : List AddReq :=
  match l with
  | [] => []
  | r :: _ =>
    let q := l.filter (fun x => x.off / 256 == r.off / 256)
    match q.find? (fun x => x.tag != 0) with
    | none => q
    | some t => q.filter (fun x => x.tag == 0 || x.tagOff / 256 == t.tagOff / 256)

/-! ### Lanes and channels (R261, R262, R275) -/

/-- SLC_STATUS.ERASURES and LIMIT follow the mask. -/
def State.syncErasures (s : State) (c n : Nat) : State :=
  let k := popcount (s.deadLanes c n) 144
  let s := s.put F.slcStatus_erasures [c, n] k
  if erasureLimit < k then s.put F.slcStatus_limit [c, n] 1 else s

/-- Lanes put into the mask, their dowel groups DEGRADED with `cause` in one update, and the lanes saved. -/
def State.killLanes (s : State) (c n mask cause : Nat) : State :=
  let new := (List.range 144).filter (fun j => bit mask j && !bit (s.deadLanes c n) j)
  if new.isEmpty then s
  else
    let m := s.deadLanes c n + (new.map (fun j => 2 ^ j)).sum
    let groups := (new.map (fun j => offDg c n (j / 16))).eraseDups
    let s := s.mapChange groups (fun s =>
      let s := s.puts [(F.slcDeadLanesLo_lanes, [c, n], m), (F.slcDeadLanesMid_lanes, [c, n], m / 2 ^ 64),
        (F.slcDeadLanesHi_lanes, [c, n], m / 2 ^ 128)]
      s.setOwns ((groups.filter (fun o => usableSt (statusOf (s.ownAt o)))).map (fun o => (o, entry stDegraded cause))))
    (s.syncErasures c n).saveSettings

/-- R275: a channel of UNCORR_LIMIT distinct uncorrectable codewords fails. -/
def State.failChannel (s : State) (c n : Nat) : State :=
  let k := (s.chan c n).uncorr.length
  if k < s.get F.slcThresh_uncorrLimit [c] ∨ k = 0 ∨ !usableSt (statusOf (s.ownAt (offChan c n))) then s
  else
    let s := s.mapUpdate [(offChan c n, entry stFailed 5)]
    let s := s.modChan c n (fun x => { x with uncorr := [] })
    s.fault (c / 16) (s.record kChannelFailed 0 (offChan c n) (detail := k))

/-! ### Refresh (R265 to R268) -/

/-- R265: the rate for layer estimate `t` in eighths of a degree, from the rate in force; codes 0, 1, 2 for 1, 2, 4. -/
def rateFor (m t : Nat) : Nat :=
  match m with
  | 0 => if 760 < t then 2 else if 680 < t then 1 else 0
  | 1 => if 760 < t then 2 else if t < 664 then 0 else 1
  | _ => if t < 664 then 0 else if t < 744 then 1 else 2

/-- The rate in force after a change of the layer estimate or of RATE_FLOOR. -/
def State.setRate (s : State) (c n : Nat) : State :=
  let m := rateFor (s.get F.slcStatus_rate [c, n]) (s.get F.slcLayerTemp_temp [c, n])
  s.put F.slcStatus_rate [c, n] (max m (min 2 (s.get F.slcRefreshCtl_rateFloor [c, n])))

/-- Refreshes issued: every row of the channel closes. -/
def State.issueRefresh (s : State) (c n k : Nat) : State :=
  (s.bump F.slcRefreshes_count [c, n] k).modChan c n (fun x =>
    { x with refreshing := x.refreshing + k, openRow := [] })

end Sys2Proof.Machine
end

