-- ==== Sys2Proof/Machine/Arb.lean ====
section
/-! DEFINITION. The channel arbiter (R277 to R293) and the network regulator (R294 to R296). -/

namespace Sys2Proof.Machine

/-! Requester codes (R277). -/
def rqProc : Nat := 0
def rqDma : Nat := 1
def rqNbr : Nat := 2
def rqRemote : Nat := 3
def rqAtomic : Nat := 4
def rqNbWrite : Nat := 7

/-! Channel modes (R97, class 0x07). -/
def modeMemory : Nat := 0
def modeProcessor : Nat := 1
def modeShared : Nat := 2
def modeSwitching : Nat := 3

def State.chanMode (s : State) (c n : Nat) : Nat := s.get F.nbMode_state [c, n]

/-- The mode whose rule new accesses follow: in SWITCHING that of the target (R198). -/
def State.accessMode (s : State) (c n : Nat) : Nat :=
  if s.chanMode c n = modeSwitching then s.get F.nbMode_target [c, n] else s.chanMode c n

/-- R200: ordinary accesses are parked. -/
def State.chanParks (s : State) (c n : Nat) : Bool := s.accessMode c n == modeProcessor

/-! ### The live table -/

/-- The entry of a slot in four words (R285). -/
def tableEntry (ws : List Nat) (slot : Nat) : Nat := bits (ws.getD (slot / 16) 0) (4 * (slot % 16)) 4

def State.liveTable (s : State) (c n : Nat) : List Nat := (List.range 4).map (fun k => s.reg .arbLive [c, n, k])

/-- The owner of a live slot (R287). -/
def State.slotOwner (s : State) (c n slot : Nat) : Option Nat :=
  let e := tableEntry (s.liveTable c n) slot
  let x := s.chan c n
  if e ≤ 4 ∧ !x.withdrawn.contains slot ∧ !x.blocked.contains slot then some e else none

/-- The position of a requester in ARB_RANK. -/
def State.rankOf (s : State) (c n r : Nat) : Nat :=
  let o := s.get F.arbRank_order [c, n]
  ((List.range 5).find? (fun i => bits o (3 * i) 3 == r)).getD 5

def State.tokens (s : State) (c n r : Nat) : Nat := bits (s.get F.arbTokens_current [c, n]) (8 * r) 8
def State.setTokens (s : State) (c n r v : Nat) : State :=
  s.put F.arbTokens_current [c, n] (putBits (s.get F.arbTokens_current [c, n]) (8 * r) 8 v)

/-- R289: a requester of a nonzero quota that holds no token. -/
def State.masked (s : State) (c n r : Nat) : Bool :=
  bits (s.chan c n).quota (8 * r) 8 != 0 && s.tokens c n r == 0

/-- R282: the place of a requester in the order at a slot: (order, rank); none where it is not eligible. -/
def State.orderOf (s : State) (c n slot r : Nat) : Option (Nat × Nat) :=
  let blocked := (s.chan c n).blocked.contains slot
  if s.slotOwner c n slot = some r then some (2, 0)
  else if blocked then none
  else if r = rqNbWrite then some (3, 0)
  else if 4 < r then none
  else if !s.masked c n r then some (4, s.rankOf c n r)
  else if s.flag F.arbCtl_softMask [c, n] then some (5, s.rankOf c n r)
  else none

def before (a b : Nat × Nat) : Bool := decide (a.1 < b.1) || (a.1 == b.1 && decide (a.2 < b.2))

/-- R201: an access overlaps a result area, in its own channel, of the run in the run slot or in the next slot. -/
def State.resultHeld (s : State) (c n off len : Nat) : Bool :=
  let areas (r : Option NbRun) : List (Nat × Nat) :=
    match r with
    | some r => s.resultAreas c n r.start
    | none => []
  (areas (s.run c n) ++ areas (s.nextRun c n)).any (fun a =>
    match s.target a.1 with
    | .slice c' n' o => c' == c && n' == n && sameBlock (o, a.2) (off, len)
    | _ => false)

/-- The oldest request of a requester that the arbiter may grant: parked, or at its first boundary (R291); one held by a
result area waits (R201). -/
def State.oldestReq (s : State) (c n r : Nat) : Option ChanReq :=
  let x := s.chan c n
  let free (q : ChanReq) : Bool := q.requester == r && (r == rqNbWrite || r == rqNbr || r == rqAtomic || !s.resultHeld c n q.off q.len)
  match x.pend.find? free with
  | some q => some q
  | none => x.net.find? (fun q => q.waited == 0 && free q)

/-- The requester that the arbiter picks at a slot, with its place in the order. In PROCESSOR mode only result writes of
NBRs are served (R198, R284). -/
def State.pick (s : State) (c n slot : Nat) : Option (Nat × (Nat × Nat)) :=
  let cand := ([rqProc, rqDma, rqNbr, rqRemote, rqAtomic, rqNbWrite].filter (fun r => (s.oldestReq c n r).isSome)).filterMap
    (fun r =>
      if s.chanParks c n then (if r = rqNbWrite then some (r, (3, 0)) else none)
      else (s.orderOf c n slot r).map (fun o => (r, o)))
  cand.foldl (fun b x => match b with
    | none => some x
    | some y => if before x.2 y.2 then some x else some y) none

/-! ### The pending queue -/

/-- Removes the first occurrence that a test accepts. -/
def dropFirst {α : Type} (p : α → Bool) : List α → List α
  | [] => []
  | x :: t => if p x then t else x :: dropFirst p t

def State.pendCap (s : State) (c n : Nat) : Nat := max 1 (min 16 (s.get F.arbCtl_pendCap [c, n]))

/-- R291, R292: requests in the network enter the queue while it has room and their requester is below its cap. -/
def State.parkArrivals (s : State) (c n : Nat) : State :=
  let x := s.chan c n
  let cap := s.pendCap c n
  let r := x.net.foldl (fun (st : List ChanReq × List ChanReq) q =>
    if st.1.length < 16 ∧ (q.requester = rqNbWrite ∨ (st.1.filter (fun y => y.requester == q.requester)).length < cap)
    then (st.1 ++ [q], st.2) else (st.1, st.2 ++ [q])) (x.pend, [])
  (s.setChan c n { x with pend := r.1, net := r.2 }).put F.arbStatus_pending [c, n] r.1.length

/-- An abandoned request goes back to the head of its requester's entries (R279). -/
def pushHead (q : ChanReq) : List ChanReq → List ChanReq
  | [] => [q]
  | y :: t => if y.requester = q.requester then q :: y :: t else y :: pushHead q t

/-- A write that covers less than its block, and so is performed as a locked sequence (R263). -/
def ChanReq.narrow (q : ChanReq) : Bool :=
  match q.wr with
  | some bs => bs.length != 256
  | none => false

/-- The row and bank of a channel offset (R256). -/
def bankOf (off : Nat) : Nat := 4 * bits off 25 2 + bits off 11 2
def rowOf (off : Nat) : Nat := bits off 13 12

/-- Slot boundaries from a grant until the burst has begun: 14 ns of column read, 14 of activate, 14 of precharge (R257). -/
def Chan.toBurst (x : Chan) (off : Nat) : Nat :=
  match tget 0 x.openRow (bankOf off) with
  | 0 => 3
  | r + 1 => if r = rowOf off then 2 else 5

/-- The request that holds the channel is abandoned (R279, R281, R290): its token returns, its restarts are counted. -/
def State.abandon (s : State) (c n : Nat) : State :=
  let x := s.chan c n
  match x.holder with
  | none => s
  | some h =>
    let q := { h.req with restarts := h.req.restarts + 1 }
    let s := s.setChan c n { x with holder := none, pend := pushHead q x.pend }
    let s := s.put F.arbStatus_pending [c, n] (x.pend.length + 1)
    let s := s.bump F.arbReqRestarts_count [c, n, q.requester]
    if h.token then
      (s.setTokens c n q.requester (s.tokens c n q.requester + 1)).put F.tokReturned_count [c, n]
        (s.get F.tokReturned_count [c, n] + 1)
    else s

/-- A grant (R281, R289, R293): counted, its token consumed at order 4 or 5 where the requester holds one. -/
def State.grant (s : State) (c n r : Nat) (order : Nat) : State :=
  let x := s.chan c n
  match s.oldestReq c n r with
  | none => s
  | some q =>
    let eq (y : ChanReq) : Bool := y == q
    let x := if x.pend.any eq then { x with pend := dropFirst eq x.pend } else { x with net := dropFirst eq x.net }
    let limit := s.get F.arbCtl_restartLimit [c, n]
    let token := (order == 4 || order == 5) && bits x.quota (8 * r) 8 != 0 && s.tokens c n r != 0
    let locked := q.narrow || r == rqNbr || r == rqAtomic || (limit != 0 && decide (limit ≤ q.restarts))
    let s := s.setChan c n { x with holder := some { req := q, locked := locked, token := token } }
    let s := s.put F.arbStatus_pending [c, n] x.pend.length
    let s := s.bump F.arbReqGrants_count [c, n, r]
    let s := if q.waited = 0 then s else s.bump F.arbReqWaits_count [c, n, r]
    let s := s.put F.arbReqMaxWait_count [c, n, r] (sat 32 (max (10 * q.waited) (s.get F.arbReqMaxWait_count [c, n, r])))
    if token then
      (s.setTokens c n r (s.tokens c n r - 1)).put F.tokConsumed_count [c, n] (s.get F.tokConsumed_count [c, n] + 1)
    else s

/-- The run in the run slot has a row burst to read. -/
def State.wantsBurst (s : State) (c n : Nat) : Bool :=
  match s.run c n with
  | some r => r.code.isNone && !r.read
  | none => false

/-- A requester other than a master's, the NBR sequencer or the adder, asks for the channel with at most one request, and asks
for none where it has no work. -/
def State.ask (s : State) (c n r : Nat) (wants : Bool) (master tc : Nat) : State :=
  let x := s.chan c n
  let other (q : ChanReq) : Bool := q.requester != r
  if wants then
    if (x.pend ++ x.net ++ (x.holder.map Holder.req).toList).all other then
      s.setChan c n { x with net := x.net ++ [{ requester := r, master := master, tc := tc, off := 0, len := 0, who := .nobody }] }
    else s
  else if (x.pend ++ x.net).all other then s
  else s.setChan c n { x with pend := x.pend.filter other, net := x.net.filter other }

/-- R201: outside PROCESSOR mode the NBR sequencer asks the arbiter for its next row burst. -/
def State.askBurst (s : State) (c n : Nat) : State :=
  let tc := match s.run c n with | some r => r.tc | none => 0
  s.ask c n rqNbr (s.wantsBurst c n && s.chanMode c n != modeProcessor) (0x140 + c) tc

/-- The requests of the adder's queue, of 16 entries, that may be performed: one over a result area waits (R201). -/
def State.addable (s : State) (c n : Nat) : List AddReq :=
  ((s.chan c n).adder.take 16).filter (fun a => !s.resultHeld c n a.off (addSize a.op))

/-- R277: the adder asks for the channel while requests wait in its queue. -/
def State.askAdder (s : State) (c n : Nat) : State :=
  let l := s.addable c n
  s.ask c n rqAtomic (!l.isEmpty) ((l.map AddReq.master).headD 0) ((l.map AddReq.tc).headD 0)

/-- The channel's lanes are taken by a refresh, or by a near-bank load in MEMORY mode, a locked sequence (R190, R265). -/
def State.lanesTaken (s : State) (c n : Nat) : Bool :=
  (s.chan c n).refreshing != 0 || ((tget none (s.core c).nbloads n).isSome && s.chanMode c n == modeMemory)

/-- R279, R282: the decision at the boundary of the channel's next slot. -/
def State.arbitrate (s : State) (c n : Nat) : State :=
  let s := (s.askBurst c n).askAdder c n
  let x := s.chan c n
  let slot := x.slot
  let s := if s.lanesTaken c n then s else match x.holder with
    | none => match s.pick c n slot with
      | none => s
      | some p => s.grant c n p.1 p.2.1
    | some h =>
      if h.locked || decide (x.toBurst h.req.off ≤ h.age) then s
      else match s.pick c n slot, s.orderOf c n slot h.req.requester with
        | some p, o =>
          if p.1 != h.req.requester && (match o with | some o => before p.2 o | none => true)
          then (s.abandon c n).grant c n p.1 p.2.1 else s
        | none, _ => s
  let s := s.parkArrivals c n
  s.modChan c n (fun x =>
    { x with slot := (slot + 1) % 64, holder := x.holder.map (fun h => { h with age := h.age + 1 })
             pend := x.pend.map (fun q => { q with waited := q.waited + 1 })
             net := x.net.map (fun q => { q with waited := q.waited + 1 }) })

/-! ### Table loads, slot 0 and windows (R285 to R290) -/

/-- R285: the checks of a staged table: 3 INVALID, 2 OVERCOMMIT, 1 OK. -/
def loadResult (ws : List Nat) : Nat :=
  let es := (List.range 64).map (tableEntry ws)
  if es.any (fun e => decide (4 < e) && e != 15) then 3
  else if 58 < (es.filter (fun e => e != 15)).length then 2 else 1

def State.arbLoadTable (s : State) (c n : Nat) : State :=
  let ws := (List.range 4).map (fun k => s.reg .arbStage [c, n, k])
  let r := loadResult ws
  let s := s.put F.arbStatus_loadResult [c, n] r
  if r = 1 then (s.put F.arbStatus_loadPending [c, n] 1).modChan c n (fun x => { x with loaded := some ws }) else s

/-- The withdrawal order of R288. -/
def withdrawOrder : List Nat := [rqDma, rqRemote, rqNbr, rqAtomic, rqProc]

/-- R288: the slots withdrawn and blocked for a table and a blocked count. -/
def deriveSlots (ws : List Nat) (b : Nat) : List Nat × List Nat :=
  let owned (r : Nat) : List Nat := ((List.range 64).filter (fun i => tableEntry ws i == r)).reverse
  let k := ((List.range 64).filter (fun i => decide (tableEntry ws i ≤ 4))).length
  let keep := min k ((64 - b) * 91808 / 100000)
  let withdrawn := (withdrawOrder.flatMap owned).take (k - keep)
  let free := ((List.range 64).filter (fun i => decide (4 < tableEntry ws i) || withdrawn.contains i)).reverse
  (withdrawn, free.take b)

/-- R285, R288: slot 0: an accepted table becomes live, and slots are withdrawn and blocked for it. -/
def State.slotZero (s : State) (c n : Nat) : State :=
  let x := s.chan c n
  let s := match x.loaded with
    | none => s
    | some ws =>
      ((List.range 4).foldl (fun (s : State) k => s.put F.arbLive_entries [c, n, k] (ws.getD k 0)) s).put
        F.arbStatus_loadPending [c, n] 0
  let ws := s.liveTable c n
  let w := deriveSlots ws (s.get F.arbThrottle_b [c, n])
  let k := ((List.range 64).filter (fun i => decide (tableEntry ws i ≤ 4))).length
  let s := s.setChan c n { x with loaded := none, slot := 0, withdrawn := w.1, blocked := w.2 }
  let s := s.puts [(F.arbStatus_reservedSlots, [c, n], k - w.1.length), (F.arbStatus_withdrawn, [c, n], w.1.length),
    (F.arbStatus_blocked, [c, n], w.2.length), (F.arbStatus_breachActive, [c, n], if w.1.isEmpty then 0 else 1)]
  if w.1.isEmpty then s else s.put F.arbStatus_breach [c, n] 1

/-- R290: a window begins: the quotas written take effect, and tokens are minted up to them. -/
def State.mint (s : State) (c n : Nat) : State :=
  let q := s.get F.arbQuota_quota [c, n]
  let s := s.modChan c n (fun x => { x with quota := q })
  (List.range 5).foldl (fun s r =>
    let v := bits q (8 * r) 8
    if v = 0 then s
    else
      let t := s.tokens c n r
      (s.setTokens c n r v).put F.tokMinted_count [c, n] (s.get F.tokMinted_count [c, n] + 2 ^ 32 + v - t)) s

/-! Master IDs (R42). -/
def mCore (c : Nat) : Nat := c
def mDma (c e : Nat) : Nat := 0x40 + 4 * c + e
def mNbr (c : Nat) : Nat := 0x140 + c
def mColl (d : Nat) : Nat := 0x180 + d
def mHostIo : Nat := 0x188
def mHostMem : Nat := 0x189
def mMgmt : Nat := 0x18A
def mPeer : Nat := 0x1FF

/-- The die on which a master lies; a peer's requests are taken to enter at D0 (DESIGN CHOICE). -/
def masterDie (m : Nat) : Nat :=
  if m < 0x40 then m / 16 else if m < 0x140 then (m - 0x40) / 64 else if m < 0x180 then (m - 0x140) / 16
  else if m < 0x184 then m - 0x180 else 0

/-! ### The regulator (R294) -/

/-- The lower of two budgets, 0 meaning unlimited in each. -/
def lowerBudget (a b : Nat) : Nat := if a = 0 then b else if b = 0 then a else min a b

/-- R294: the transactions of class `t` that masters of die `d` have outstanding: requests to peer chips, and requests that wait at
channels and beside the machine. -/
def State.outstanding (s : State) (d t : Nat) : Nat :=
  let mine (m tc : Nat) : Bool := m != mPeer && masterDie m == d && tc == t
  let at' (x : Chan) : Nat :=
    ((x.pend ++ x.net ++ (x.holder.map Holder.req).toList).filter (fun q =>
      q.requester != rqNbr && q.requester != rqAtomic && mine q.master q.tc)).length +
    (x.adder.filter (fun a => mine a.master a.tc)).length
  (s.txns.filter (fun x => x.die == d && x.tc == t)).length + (s.heldAcc.filter (fun a => mine a.master a.tc)).length +
    (s.chans.map (fun e => at' e.2)).sum

/-- R294: isOver(t) and the effective priority before urgency follow the class's outstanding transactions. -/
def State.regulate (s : State) (d t : Nat) : State :=
  let o := s.outstanding d t
  let b := lowerBudget (s.get F.netTcCfg_budget [d, t]) (s.get F.netTcClamp_budget [d, t])
  let h := s.get F.netTcCfg_hyst [d, t]
  let over0 := s.get F.netTcState_over [d, t]
  let isOver := if b = 0 then 0 else if b < o then 1 else if o + h < b then 0 else over0
  let p := if isOver = 1 then 3 else s.get F.netTcCfg_base [d, t]
  let s := s.puts [(F.netTcState_over, [d, t], isOver), (F.netTcState_effective, [d, t], p)]
  if over0 = 0 ∧ isOver = 1 then s.put F.netTcState_wasOver [d, t] 1 else s

/-- What a master has outstanding in a class has changed; peers' requests are not the die's masters'. -/
def State.regulated (s : State) (m tc : Nat) : State := if m = mPeer then s else s.regulate (masterDie m) tc

end Sys2Proof.Machine
end

