-- ==== Sys2Proof/Machine/Golfort.lean ====
section
/-! DEFINITION. The Golfort fabric (R307 to R329): flits and messages, retry, biscuits, routing, and the states of a port. -/

namespace Sys2Proof.Machine

def State.gfPort (s : State) (p : Nat) : GfPort := tget {} s.gf p
def State.setGf (s : State) (p : Nat) (x : GfPort) : State := { s with gf := tset {} s.gf p x }
def State.modGf (s : State) (p : Nat) (f : GfPort → GfPort) : State := s.setGf p (f (s.gfPort p))

/-! Port states (R323). -/
def gfDisabled : Nat := 0
def gfSeeking : Nat := 1
def gfTraining : Nat := 2
def gfQualifying : Nat := 3
def gfUp : Nat := 4
def gfRetraining : Nat := 5
def gfExcluded : Nat := 6
def gfFailed : Nat := 7

def State.gfState (s : State) (p : Nat) : Nat := s.get F.gfStatus_state [p]

/-- R323, R27: a port is trained in QUALIFYING, UP and RETRAINING. -/
def State.gfTrained (s : State) (p : Nat) : Bool :=
  s.gfState p == gfQualifying || s.gfState p == gfUp || s.gfState p == gfRetraining
def State.anyTrained (s : State) : Bool := (List.range 8).any s.gfTrained

/-! ### Flits (R309) -/

/-- One byte into CRC-64 with the ECMA-182 polynomial, most significant bit first. -/
def crc64Byte (c b : Nat) : Nat :=
  (List.range 8).foldl (fun c _ =>
    if c / 2 ^ 63 = 1 then Nat.xor (c * 2 % 2 ^ 64) 0x42F0E1EBA9EA3693 else c * 2 % 2 ^ 64) (Nat.xor c (b * 2 ^ 56))

def crc64 (l : List Byte) : Nat := l.foldl (fun c b => crc64Byte c b.toNat) 0

def Flit.header (f : Flit) : Nat :=
  1 + f.vc % 4 * 2 ^ 4 + f.dclass % 2 * 2 ^ 6 + f.tc % 8 * 2 ^ 7 + f.seq % 2 ^ 12 * 2 ^ 10 + f.dst % 2 ^ 20 * 2 ^ 22 +
  f.src % 2 ^ 20 * 2 ^ 42 + f.hops % 2 ^ 8 * 2 ^ 62 + f.units % 8 * 2 ^ 70 + f.age % 2 ^ 16 * 2 ^ 73

/-- The 256 bytes of a data flit. -/
def Flit.encode (f : Flit) : List Byte :=
  let b := leBytes 16 f.header ++ (f.payload ++ List.replicate 224 0#8).take 224 ++ List.replicate 8 0#8
  b ++ leBytes 8 (crc64 b)

/-- A received data flit whose CRC is good; none otherwise. TYPE 0x0 and the reserved types are no data flits. -/
def Flit.decode (l : List Byte) : Option Flit :=
  let h := leOf (l.take 16)
  if l.length ≠ 256 ∨ leOf (l.drop 248) ≠ crc64 (l.take 248) ∨ bits h 0 4 ≠ 1 then none
  else some { vc := bits h 4 2, dclass := bits h 6 1, tc := bits h 7 3, seq := bits h 10 12, dst := bits h 22 20,
              src := bits h 42 20, hops := bits h 62 8, units := bits h 70 3, age := bits h 73 16,
              payload := (l.drop 16).take 224 }

/-- R310: the header unit of a message. -/
def msgHeader (op ndata bytes txn master addr : Nat) (status atomOp tag aux : Nat := 0) : List Byte :=
  leBytes 32 (op + ndata * 2 ^ 8 + bytes * 2 ^ 16 + txn * 2 ^ 32 + master * 2 ^ 48 + addr % 2 ^ 64 * 2 ^ 64 +
    status * 2 ^ 128 + atomOp * 2 ^ 136 + tag * 2 ^ 144 + aux % 2 ^ 64 * 2 ^ 192)

/-- Bytes padded to whole 32-byte units. -/
def padUnits (l : List Byte) : List Byte := l ++ List.replicate ((32 - l.length % 32) % 32) 0#8

def chunks (n : Nat) (l : List Byte) : List (List Byte) :=
  (List.range ((l.length + n - 1) / n)).map (fun i => (l.drop (i * n)).take n)

/-! ### Pools and biscuits (R313, R314) -/

def pool (vc dclass : Nat) : Nat := 2 * vc + dclass

def State.bisc (s : State) (f0 f1 : Fld) (p k : Nat) : Nat := s.get (if k % 2 = 0 then f0 else f1) [p, k / 2]
def State.setBisc (s : State) (f0 f1 : Fld) (p k v : Nat) : State := s.put (if k % 2 = 0 then f0 else f1) [p, k / 2] v

def State.avail (s : State) (p k : Nat) : Nat := s.bisc F.gfBiscAvail_class0 F.gfBiscAvail_class1 p k
def State.setAvail (s : State) (p k v : Nat) : State := s.setBisc F.gfBiscAvail_class0 F.gfBiscAvail_class1 p k v
def State.used (s : State) (p k : Nat) : Nat := s.bisc F.gfBufUsed_class0 F.gfBufUsed_class1 p k
def State.setUsed (s : State) (p k v : Nat) : State := s.setBisc F.gfBufUsed_class0 F.gfBufUsed_class1 p k v
def State.biscTotal (s : State) (p k : Nat) : Nat := s.bisc F.gfBiscTotal_class0 F.gfBiscTotal_class1 p k

/-- SEQ and retry buffer by version (R311, R322). -/
def State.seqMod (s : State) (p : Nat) : Nat := if s.get F.gfStatus_version [p] = 1 then 1024 else 4096
def State.retryMax (s : State) (p : Nat) : Nat := if s.get F.gfStatus_version [p] = 1 then 512 else 2048

/-- A receive buffer entry freed (R313). -/
def State.freeEntry (s : State) (p k : Nat) : State :=
  let s := s.setUsed p k (s.used p k - 1)
  s.modGf p (fun x => { x with freed := tset 0 x.freed k ((tget 0 x.freed k + 1) % 2 ^ 16) })

def State.canSend (s : State) (p : Nat) (f : Flit) : Bool :=
  s.gfState p == gfUp && s.avail p (pool f.vc f.dclass) != 0 && decide ((s.gfPort p).retry.length < s.retryMax p)

/-- R311, R313: a flit sent for the first time: a biscuit spent, its SEQ given, kept in the retry buffer. -/
def State.sendFlit (s : State) (p : Nat) (f : Flit) : State :=
  let x := s.gfPort p
  let k := pool f.vc f.dclass
  let f := { f with seq := x.txSeq, tc := if s.get F.gfStatus_version [p] = 1 then 0 else f.tc }
  let s := s.setAvail p k (s.avail p k - 1)
  let s := s.setGf p { x with retry := x.retry ++ [f], txSeq := (x.txSeq + 1) % s.seqMod p }
  { s with out := .dataFlit p f.encode :: s.out }

/-- Queued flits leave in order while biscuits and the retry buffer last. -/
def State.pump (s : State) (p : Nat) : State :=
  let q := (s.gfPort p).queue
  let r := q.foldl (fun (st : State × List Flit) f =>
    if st.2.isEmpty && st.1.canSend p f then (st.1.sendFlit p f, []) else (st.1, st.2 ++ [f])) (s, [])
  r.1.modGf p (fun x => { x with queue := r.2 })

def State.enqueue (s : State) (p : Nat) (f : Flit) : State :=
  (s.modGf p (fun x => { x with queue := x.queue ++ [f] })).pump p

def State.dropped (s : State) (n : Nat) : State := s.bump F.gfDropCount_count [] n

/-! ### Routing (R315 to R319) -/

/-- The BAR0 offset of the entry that routes to a chip. -/
def State.routeEntry (s : State) (dst : Nat) : Nat :=
  let me := s.get F.glbChipId_id
  if dst / 1024 ≠ me / 1024 then regAddr .gfRouteRegion [dst / 1024] else regAddr .gfRouteLocal [dst % 1024]

/-- R315: the port an entry selects, with its dateline bit. -/
def State.selects (s : State) (e : Nat) : Option (Nat × Bool) :=
  let v := tget 0 s.regs e
  if bit v 3 && s.gfState (bits v 0 3) == gfUp then some (bits v 0 3, bit v 8)
  else if bit v 7 && s.gfState (bits v 4 3) == gfUp then some (bits v 4 3, bit v 9)
  else none

def State.route (s : State) (dst : Nat) : Option (Nat × Bool) := s.selects (s.routeEntry dst)

def State.maxAge (s : State) : Nat := max 1 (s.get F.gfGlobalCtl_maxAge)
def State.hopLimit (s : State) : Nat := max 1 (s.get F.gfGlobalCtl_hopLimit)

/-- R316, R317: a flit as it leaves a port `us` µs after it entered the chip. -/
def Flit.leaving (f : Flit) (dateline : Bool) (us : Nat) (forwarded : Bool) : Flit :=
  { f with dclass := if dateline then 1 else f.dclass, hops := if forwarded then f.hops - 1 else f.hops
           age := min 0xFFFF (f.age + us + 1) }

/-- The route entries written so far. -/
def State.routeEntries (s : State) : List Nat :=
  (s.regs.filter (fun e => (decide (0xC8000 ≤ e.1) && decide (e.1 < 0xC9000)) ||
    (decide (0xC9000 ≤ e.1) && decide (e.1 < 0xCA000)))).map Prod.fst

/-- R318: a change that may alter which port an entry selects: the entries it alters settle. -/
def State.reroute (s : State) (f : State → State) : State :=
  let t := f s
  let moved := (s.routeEntries ++ t.routeEntries).eraseDups.filter (fun e => s.selects e != t.selects e)
  { t with settling := moved.foldl nsIns t.settling }

/-- A port's state changed: R318 applies to the entries that selected it, or now do. -/
def State.setGfState (s : State) (p v : Nat) : State := s.reroute (·.put F.gfStatus_state [p] v)

/-- Flits of this chip's own message to `dst` leave, wait for a settling route, or find none (R315, R318); false where
there is no route. -/
def State.sendMessage (s : State) (dst vc tc : Nat) (msg : List Byte) : State × Bool :=
  match s.route dst with
  | none => (s, false)
  | some (p, dl) =>
    let mk (b : List Byte) : Flit :=
      { vc := vc, dclass := 0, tc := tc, seq := 0, dst := dst, src := s.get F.glbChipId_id, hops := s.hopLimit,
        units := b.length / 32, age := 0, payload := b }
    let fs := (chunks 224 (padUnits msg)).map mk
    if s.settling.contains (s.routeEntry dst) then ({ s with gfHeld := s.gfHeld ++ fs }, true)
    else (fs.foldl (fun s f => s.enqueue p (f.leaving dl 0 false)) s, true)

/-- R318: SETTLE has passed: the entry's held flits leave on its port in arrival order; those with no route are dropped. -/
def State.settle (s : State) (e us : Nat) : State :=
  let mine (f : Flit) : Bool := s.routeEntry f.dst == e
  let l := s.gfHeld.filter mine
  let s := { s with settling := nsDel s.settling e, gfHeld := s.gfHeld.filter (fun f => !mine f) }
  l.foldl (fun s f => match s.selects e with
    | none => s.dropped 1
    | some (p, dl) =>
      let g := f.leaving dl us false
      if s.maxAge < g.age then s.dropped 1 else s.enqueue p g) s

/-! Transactions (R294, R310, R319). -/

/-- A request to a peer chip: READ 1, WRITE 2, ADD 3. Its tag is the next number that no outstanding request uses. -/
def State.sendRequest (s : State) (op addr len die tc master : Nat) (data : List Byte) (who : Waiter)
    (atomOp tag aux : Nat := 0) : State × Bool :=
  let t := ((List.range (s.txns.length + 1)).map (fun i => (s.nextTag + i) % 65536)).find? (fun t => s.txns.all (fun x => x.tag != t))
  let t := t.getD s.nextTag
  let msg := msgHeader op ((data.length + 31) / 32) len t master addr 0 atomOp tag aux ++ padUnits data
  let r := s.sendMessage (chipOf addr) 0 tc msg
  if !r.2 then (s, false)
  else
    let x : Txn := { tag := t, dst := chipOf addr, die := die, tc := tc, master := master, write := op != 1,
                     addr := addr, who := who }
    (({ r.1 with txns := r.1.txns ++ [x], nextTag := (t + 1) % 65536 } : State).regulate die tc, true)

/-- The request of a tag, taken out of those outstanding. -/
def State.takeTxn (s : State) (tag : Nat) : Option (Txn × State) :=
  (s.txns.find? (fun x => x.tag == tag)).map (fun x =>
    (x, ({ s with txns := s.txns.filter (fun y => y.tag != tag) } : State).regulate x.die x.tc))

/-- READ_RESP 4 or WRITE_ACK 5 sent to a peer. -/
def State.sendResponse (s : State) (src txn tc : Nat) (read : Bool) (status : Nat) (data : List Byte) : State :=
  let data := if status = 0 then data else []
  (s.sendMessage src 1 tc (msgHeader (if read then 4 else 5) ((data.length + 31) / 32) data.length txn 0 0 status ++
    padUnits data)).1

/-! ### Receiving (R311 to R314) -/

/-- The partner's SEQ is asked for again and the discard begins. -/
def State.badFlit (s : State) (p : Nat) : State :=
  (s.bump F.gfCrcErr_count [p]).modGf p (fun x => { x with discarding := true })

/-- R311, R313, R317: a data flit received: accepted only in SEQ order. A flit for this chip is delivered, which frees its
entry at once; one that would be delivered too old is dropped; any other waits in its buffer. -/
def State.receiveFlit (s : State) (p : Nat) (l : List Byte) : State :=
  if s.gfState p ≠ gfUp then s
  else if l.length = 256 ∧ leOf (l.drop 248) = crc64 (l.take 248) ∧ bits (leOf (l.take 16)) 0 4 ≠ 1 then s
  else match Flit.decode l with
  | none => s.badFlit p
  | some f =>
    let x := s.gfPort p
    if f.seq ≠ x.rxSeq then s.modGf p (fun x => { x with discarding := true })
    else
      let f := if s.get F.gfStatus_version [p] = 1 then { f with tc := 0 } else f
      let k := pool f.vc f.dclass
      let s := s.setGf p { x with rxSeq := (x.rxSeq + 1) % s.seqMod p, discarding := false }
      let s := s.setUsed p k (s.used p k + 1)
      if f.dst = s.get F.glbChipId_id then
        let s := s.freeEntry p k
        if s.maxAge < f.age then s.dropped 1 else s
      else s.modGf p (fun x => { x with rx := x.rx ++ [f] })

/-- The state of a port that enters RETRAINING (R312, R323, R325): its retry buffer stays. -/
def State.enterRetraining (s : State) (p : Nat) : State :=
  if s.gfState p ≠ gfUp then s
  else
    let s := (s.put F.gfStatus_retrained [p] 1).bump F.gfRetrains_count [p]
    let s := s.modGf p (fun x => { x with naks := 0, retraining := true })
    (s.setGfState p gfRetraining).mapOffline [offPort p]

/-- Flits acknowledged up to SEQ `ack` leave the retry buffer. -/
def ackRetry (m ack : Nat) (l : List Flit) : List Flit :=
  match l with
  | [] => []
  | f :: t =>
    let n := (ack + m - f.seq) % m + 1
    if n ≤ (f :: t).length then (f :: t).drop n else f :: t

/-- R312, R314: a control flit received. -/
def State.receiveControl (s : State) (p : Nat) (good : Bool) (ack : Nat) (nak : Option Nat) (freed : List Nat) : State :=
  if s.gfState p ≠ gfUp then s
  else if !good then s.bump F.gfCrcErr_count [p]
  else
    let s := s.modGf p (fun x => { x with retry := ackRetry (s.seqMod p) ack x.retry })
    let s := (List.range 8).foldl (fun s k =>
      let x := s.gfPort p
      let n := freed.getD k (tget 0 x.returns k)
      let s := s.setAvail p k (s.avail p k + (n + 2 ^ 16 - tget 0 x.returns k) % 2 ^ 16)
      s.modGf p (fun x => { x with returns := tset 0 x.returns k n })) s
    match nak with
    | none => (s.modGf p (fun x => { x with naks := 0 })).pump p
    | some q =>
      let x := s.gfPort p
      let naks := if x.naks ≠ 0 ∧ x.nakSeq = q then x.naks + 1 else 1
      let s := s.setGf p { x with nakSeq := q, naks := naks }
      if 8 ≤ naks then s.enterRetraining p
      else
        let again := x.retry.dropWhile (fun f => f.seq != q)
        let s := s.bump F.gfReplays_count [p] again.length
        ({ s with out := (again.map (fun f => Out.dataFlit p f.encode)).reverse ++ s.out } : State).pump p

/-- R314: BISCUIT_SYNC: acknowledged flits leave the retry buffer, a differing total is taken and noted, AVAIL is rebuilt,
the freed counts adopted, and the flits not acknowledged are replayed. -/
def State.biscuitSync (s : State) (p : Nat) (total used freed : List Nat) (ack : Nat) : State :=
  if s.gfState p ≠ gfUp then s
  else
    let s := s.modGf p (fun x => { x with retry := ackRetry (s.seqMod p) ack x.retry })
    let retry := (s.gfPort p).retry
    let s := (List.range 8).foldl (fun s k =>
      let t := total.getD k 0
      let s := if t = s.biscTotal p k then s
        else (s.setBisc F.gfBiscTotal_class0 F.gfBiscTotal_class1 p k t).put F.gfStatus_totalMismatch [p] 1
      let again := (retry.filter (fun f => pool f.vc f.dclass == k)).length
      let s := s.setAvail p k (t - used.getD k 0 - again)
      s.modGf p (fun x => { x with returns := tset 0 x.returns k (freed.getD k 0) })) s
    let s := s.bump F.gfReplays_count [p] retry.length
    ({ s with out := (retry.map (fun f => Out.dataFlit p f.encode)).reverse ++ s.out } : State).pump p

/-- The oldest flit of a receive buffer whose route does not settle. -/
def State.oldestRx (s : State) (p k : Nat) : Option Flit :=
  (s.gfPort p).rx.find? (fun f => pool f.vc f.dclass == k && !s.settling.contains (s.routeEntry f.dst))

def State.dropRx (s : State) (p : Nat) (f : Flit) : State :=
  (s.modGf p (fun x => { x with rx := dropFirst (fun y => y == f) x.rx })).freeEntry p (pool f.vc f.dclass)

/-- R315 to R317: the oldest flit of a buffer is forwarded or dropped; it stays while its next port has no biscuit. -/
def State.forward (s : State) (p k us : Nat) : State :=
  match s.oldestRx p k with
  | none => s
  | some f =>
    if f.hops = 0 then (s.dropRx p f).dropped 1
    else match s.route f.dst with
    | none => (s.dropRx p f).dropped 1
    | some (q, dl) =>
      let g := f.leaving dl us true
      if s.maxAge < g.age then (s.dropRx p f).dropped 1
      else if s.canSend q g then (s.sendFlit q g).dropRx p f
      else s

/-! ### Port states (R321 to R327) -/

def State.gfLanes (p : Nat) (f : Nat → Byte) : List (Nat × Byte) := (List.range 8).map (fun l => (offGfLane p l, f l))

/-- R326, R327: the partner's signal is lost: the retry buffer goes, queued flits are dropped and counted, received flits
stay to be forwarded. -/
def State.clearSend (s : State) (p : Nat) : State :=
  let n := (s.gfPort p).queue.length
  let s := s.modGf p (fun x => { x with queue := [], retry := [], txSeq := 0, rxSeq := 0, discarding := false,
                                         naks := 0, attempts := 0, retraining := false })
  s.dropped n

/-- A port's map entry, freed of what it held for its return. -/
def State.portEntry (s : State) (p : Nat) (b : Byte) : State :=
  ({ s with mapSaved := tset none s.mapSaved (offPort p) none }).mapUpdate [(offPort p, b)]

/-- R323: ENABLE: DISABLED to SEEKING; and from every other state back to DISABLED. R440: in a chip that is HALTED
the ports stay DISABLED. -/
def State.gfEnable (s : State) (p : Nat) (en : Bool) : State :=
  let s0 := s
  let s := s.put F.gfControl_enable [p] (if en then 1 else 0)
  if en && s0.gfState p == gfDisabled && s.get F.bruStatus_phase != 10 then
    (s.setGfState p gfSeeking).portEntry p (entry stUnconn 0)
  else if !en && s0.gfState p != gfDisabled then
    ((s.clearSend p).setGfState p gfDisabled).portEntry p (entry stUnconn 0) |>.puts
      [(F.gfStatus_width, [p], 0), (F.gfStatus_halfHigh, [p], 0), (F.gfStatus_version, [p], 0)]
  else s

/-- R321: the versions both offer. -/
def State.commonVersion (s : State) (p mask : Nat) : Nat :=
  let m := s.get F.gfControl_versionMask [p]
  let m := Nat.land (if m = 0 then 3 else m) mask
  if bit m 1 then 2 else if bit m 0 then 1 else 0

def State.foundPartner (s : State) (p : Nat) (q : GfPartner) : State :=
  if s.gfState p ≠ gfSeeking then s
  else
    let v := s.commonVersion p q.mask
    if v = 0 then s.put F.gfStatus_noCommon [p] 1
    else
      let s := s.puts [(F.gfStatus_noCommon, [p], 0), (F.gfStatus_version, [p], v),
        (F.gfPartner_chipId, [p], q.chip.toNat), (F.gfPartner_port, [p], q.port), (F.gfPartner_device, [p], q.device.toNat)]
      let s := s.modGf p (fun x => { x with attempts := 0, retraining := false })
      (s.setGfState p gfTraining).portEntry p (entry stUnconn 6)

/-- R308, R323: one training ends: QUALIFYING at the width trained, or after the third failure FAILED. Half width counts
only where HALF_OK allows it. -/
def State.trainingDone (s : State) (p : Nat) (r : GfTrained) (rtt : Nat) : State :=
  if s.gfState p ≠ gfTraining ∧ s.gfState p ≠ gfRetraining then s
  else
    let width := match r with | .full => 8 | .half _ => if s.flag F.gfControl_halfOk [p] then 4 else 0 | .fail => 0
    let high := match r with | .half h => h | _ => false
    if width = 0 then
      if s.gfState p = gfRetraining then s
      else
        let n := (s.gfPort p).attempts + 1
        let s := s.modGf p (fun x => { x with attempts := n })
        if n < 3 then s else (s.setGfState p gfFailed).portEntry p (entry stFailed 6)
    else
      let s := s.puts [(F.gfStatus_width, [p], width), (F.gfStatus_halfHigh, [p], if high then 1 else 0),
        (F.gfRtt_ns, [p], rtt)]
      s.setGfState p gfQualifying

/-- R324: the window ends: UP, with the lanes and pools as they trained (after a retrain the pools wait for BISCUIT_SYNC),
or EXCLUDED. -/
def State.qualified (s : State) (p lanes : Nat) (uncorr crc : Bool) : State :=
  if s.gfState p ≠ gfQualifying then s
  else
    let s := s.puts [(F.gfQualResult_laneFail, [p], lanes), (F.gfQualResult_uncorr, [p], if uncorr then 1 else 0),
      (F.gfQualResult_crc, [p], if crc then 1 else 0)]
    let w := s.get F.gfStatus_width [p]
    let high := s.flag F.gfStatus_halfHigh [p]
    let trained (l : Nat) : Bool := w == 8 || (if high then decide (4 ≤ l) else decide (l < 4))
    let bad := (List.range 8).any (fun l => trained l && bit lanes l)
    if uncorr || crc || bad then (s.setGfState p gfExcluded).portEntry p (entry stExcluded 6)
    else
      let port := if w = 8 then entry stGood 0 else entry stDegraded 6
      let s := { s with mapSaved := tset none s.mapSaved (offPort p) none }
      let s := s.mapUpdate ((offPort p, port) ::
        State.gfLanes p (fun l => if trained l then entry stGood 0 else entry stExcluded 6))
      let s := if (s.gfPort p).retraining then s
        else (List.range 8).foldl (fun s k => s.setAvail p k (s.biscTotal p k)) s
      let s := s.modGf p (fun x => { x with attempts := 0, retraining := false })
      (s.setGfState p gfUp).pump p

/-- R323: a retrain not done in 2 ms: TRAINING, the retrain being its first failed attempt; the map stays OFFLINE. -/
def State.retrainLate (s : State) (p : Nat) : State :=
  if s.gfState p ≠ gfRetraining then s
  else (s.modGf p (fun x => { x with attempts := 1 })).setGfState p gfTraining

/-- R326: the signal is lost for 10 µs: SEEKING, queued flits dropped, the record GOLFORT_LOSS with their number. -/
def State.lossOfSignal (s : State) (p : Nat) : State :=
  if s.gfState p < gfTraining ∨ gfRetraining < s.gfState p then s
  else
    let n := (s.gfPort p).queue.length
    let s := s.put F.gfStatus_los [p] 1
    let s := (s.clearSend p).setGfState p gfSeeking
    let s := s.portEntry p (entry stUnconn 6)
    let s := s.puts [(F.gfStatus_width, [p], 0), (F.gfStatus_halfHigh, [p], 0)]
    s.fault (p / 2) (s.record kGolfortLoss 0 (offPort p) (detail := n))

end Sys2Proof.Machine
end

