-- ==== Sys2Proof/Machine/Bennex.lean ====
section
/-! DEFINITION. The Bennex links (R353 to R368): the link layer, training, sparing, capability words, and routing round the
ring. -/

namespace Sys2Proof.Machine

/-! States of an endpoint (R368). -/
def bxDown : Nat := 0
def bxLocking : Nat := 1
def bxAgreeing : Nat := 3
def bxUp : Nat := 4
def bxRetraining : Nat := 5
def bxFailed : Nat := 6

def State.bxState (s : State) (x e : Nat) : Nat := s.get F.bxStatus_state [x, e]
def State.bxEnd (s : State) (x e : Nat) : BxEnd := tget {} s.bx (2 * x + e)
def State.setBx (s : State) (x e : Nat) (b : BxEnd) : State := { s with bx := tset {} s.bx (2 * x + e) b }
/-- The die of an endpoint. -/
def bxDie (x e : Nat) : Nat := (x + e) % 4

/-- A link is UP when both its endpoints are; BX_ROUTE.LINK_UP shows it, and a link that returns to UP, the first training of the
start being over, holds new traffic for SETTLE (R365, R367). -/
def State.syncLink (s : State) (x : Nat) : State :=
  let up := s.bxState x 0 == bxUp && s.bxState x 1 == bxUp
  let was := bit (s.get F.bxRoute_linkUp) x
  let s := s.put F.bxRoute_linkUp [] (putBits (s.get F.bxRoute_linkUp) x 1 (if up then 1 else 0))
  if up && !was && s.get F.bxCapRunning_word [0] != 0 then { s with bxHeld := nsIns s.bxHeld x } else s

def State.setBxState (s : State) (x e v : Nat) : State := (s.put F.bxStatus_state [x, e] v).syncLink x

def State.linkUp (s : State) (x : Nat) : Bool := bit (s.get F.bxRoute_linkUp) x

/-- The links on the way from die `a` in the direction of increasing index to die `b` (R367). -/
def upWay (a b : Nat) : List Nat := (List.range ((b + 4 - a) % 4)).map (fun i => (a + i) % 4)
def downWay (a b : Nat) : List Nat := (List.range ((a + 4 - b) % 4)).map (fun i => (a + 3 - i) % 4)

/-- R367: the links that traffic from die `a` to die `b` crosses; none where no way is UP. -/
def State.diePath (s : State) (a b : Nat) : Option (List Nat) :=
  let u := upWay a b
  let w := downWay a b
  let ps := if u.length ≤ w.length then [u, w] else [w, u]
  ps.find? (fun p => p.all s.linkUp)

/-- A link one of whose endpoints is FAILED. -/
def State.bxLost (s : State) (x : Nat) : Bool := s.bxState x 0 == bxFailed || s.bxState x 1 == bxFailed

/-- R367: new traffic between two dies is held where its way has a link that has just returned to UP. -/
def State.dieHolds (s : State) (a b : Nat) : Bool :=
  a != b && ((s.diePath a b).map (fun p => p.any s.bxHeld.contains)).getD false

/-- The status of an access from die `a` to die `b`: 0 where a way is UP; ADDR_UNUSABLE once both links of the die are
FAILED, ADDR_OFFLINE before that. -/
def State.dieReach (s : State) (a b : Nat) : Nat :=
  if a = b ∨ (s.diePath a b).isSome then 0
  else
    if (s.bxLost b && s.bxLost ((b + 3) % 4)) || (s.bxLost a && s.bxLost ((a + 3) % 4)) then 0x20 else 0x21

/-! ### The link layer (R357, R358) -/

/-- R357: a data flit received: accepted only in sequence with a good CRC, and handed on at once. -/
def State.bxReceive (s : State) (x e seq : Nat) (good : Bool) : State :=
  if s.bxState x e ≠ bxUp then s
  else
    let b := s.bxEnd x e
    if !good then (s.bump F.bxCrcErr_count [x, e]).setBx x e { b with discarding := true }
    else if seq ≠ b.rxSeq then s.setBx x e { b with discarding := true }
    else s.setBx x e { b with rxSeq := (seq + 1) % 1024, discarding := false }

/-- R359: both ends of a link in UP enter RETRAINING together. -/
def State.bxRetrain (s : State) (x e : Nat) : State :=
  if s.bxState x e ≠ bxUp then s
  else [0, 1].foldl (fun s e =>
    ((s.put F.bxStatus_retrained [x, e] 1).bump F.bxRetrains_count [x, e]).setBxState x e bxRetraining) s

def modOffs (x : Nat) : List Nat := (List.range 16).map (offMod x)

/-- R362: the link drops: both ends go DOWN, `n` flits are discarded, the modules become OFFLINE with cause 0x9. -/
def State.bxDrop (s : State) (x n : Nat) : State :=
  let s := [0, 1].foldl (fun s e =>
    let s := (s.bump F.bxRestarts_count [x, e]).bump F.bxDiscarded_count [x, e] n
    let s := s.setBx x e { reported := some (n + ((s.bxEnd x e).reported.getD 0)) }
    let s := (List.range 4).foldl (fun s v => s.puts [(F.bxBisc_avail, [x, e, v], 0), (F.bxBisc_used, [x, e, v], 0)]) s
    s.setBxState x e bxDown) s
  s.mapOffline (modOffs x)

/-- R368: this end trains from scratch; the partner follows under R362. -/
def State.bxRestart (s : State) (x e n : Nat) : State :=
  let s := (s.bump F.bxRestarts_count [x, e]).bump F.bxDiscarded_count [x, e] n
  let s := s.setBx x e { reported := some (n + ((s.bxEnd x e).reported.getD 0)) }
  s.setBxState x e bxLocking

/-! ### Sparing (R354) -/

def State.usableLanes (s : State) (x m : Nat) : List Nat :=
  (List.range 68).filter (fun l => usableSt (statusOf (s.ownAt (offLane x m l))))

/-- BX_SPARE: the physical lanes of logical lanes 60 to 63. -/
def State.setSpares (s : State) (x e m : Nat) : State :=
  let l := s.usableLanes x m
  [(F.bxSpare_lane0, F.bxSpare_moved0, 60), (F.bxSpare_lane1, F.bxSpare_moved1, 61),
   (F.bxSpare_lane2, F.bxSpare_moved2, 62), (F.bxSpare_lane3, F.bxSpare_moved3, 63)].foldl (fun s f =>
    let p := l.getD f.2.2 0
    s.puts [(f.1, [x, e, m], p), (f.2.1, [x, e, m], if p = f.2.2 then 0 else 1)]) s

/-! ### Capability words (R363 to R366) -/

def capField (w lo : Nat) : Nat := bits w lo 8

/-- A word at or above the running word: no running feature missing and no field lower. -/
def capAdmits (w0 w1 r0 r1 : Nat) : Bool :=
  Nat.land w1 r1 == r1 && decide (capField r0 0 ≤ capField w0 0) && decide (capField r0 8 ≤ capField w0 8) &&
  decide (capField r0 16 ≤ capField w0 16)

/-- R365: the running word of the usable dies: the lowest STEPPING, ISA_LEVEL, SPL_REV and BENNEX_VER, and the AND of
FEATURES with bit 8 cleared. -/
def runningWord (dies : List Nat) : Nat × Nat :=
  match dies with
  | [] => (0, 0)
  | d :: t =>
    let low (lo : Nat) : Nat :=
      t.foldl (fun m k => min m (capField (Config.fusedCap k 0) lo)) (capField (Config.fusedCap d 0) lo)
    let feat := t.foldl (fun m k => Nat.land m (Config.fusedCap k 1)) (Config.fusedCap d 1)
    (low 0 + low 8 * 2 ^ 8 + low 16 * 2 ^ 16 + low 24 * 2 ^ 24, putBits feat 8 1 0)

/-- R365, R366: the running word formed, SPL_REVISION.RUNNING and BX_MIXED following it. -/
def State.formRunning (s : State) : State :=
  let dies := (List.range 4).filter s.dieUsable
  let w := runningWord dies
  let w0 (d : Nat) : Nat := putBits (Config.fusedCap d 0) 32 2 0
  let w1 (d : Nat) : Nat := Config.fusedCap d 1
  let mixed := dies.any (fun d => dies.any (fun k => w0 d != w0 k || w1 d != w1 k))
  let diff := dies.any (fun d => dies.any (fun k => capField (w0 d) 16 != capField (w0 k) 16 || bit (w1 d) 7 != bit (w1 k) 7))
  let newer := ((dies.filter (fun d => w0 d != w.1 || w1 d != w.2)).map (fun d => 2 ^ d)).sum
  let s := s.puts [(F.bxCapRunning_word, [0], w.1), (F.bxCapRunning_word, [1], w.2),
    (F.bxMixed_mixed, [], if mixed then 1 else 0), (F.bxMixed_resultDiff, [], if diff then 1 else 0),
    (F.bxMixed_newer, [], newer)]
  (List.range 64).foldl (fun s c => s.put F.splRevision_running [c] (capField w.1 16)) s

/-! ### Training (R360, R361) -/

def maskOf (l : List Nat) : Nat := (l.map (fun m => 2 ^ m)).sum

def State.minModules (s : State) (x e : Nat) : Nat := max 1 (min 16 (s.get F.bxControl_minModules [x, e]))

/-- R360, R361: an endpoint trains. A lane with a bit error is unusable: a start-up test's finding while the map is built,
a failure after that. -/
def State.bxTrain (s : State) (x e : Nat) (badLanes : List (Nat × Nat)) (partner cap0 cap1 : Nat) : State :=
  if s.bxState x e = bxUp ∨ s.bxState x e = bxFailed then s
  else
    let retrain := s.bxState x e == bxRetraining
    let bad := entry (if s.flag F.mqStatus_building then stDefect else stFailed) 6
    let lanes := (badLanes.map (fun p => offLane x p.1 p.2)).filter (fun o => usableSt (statusOf (s.ownAt o)))
    let s := s.mapUpdate (lanes.map (fun o => (o, bad)))
    let good := maskOf ((List.range 16).filter (fun m => decide (64 ≤ (s.usableLanes x m).length)))
    let trained := Nat.land good partner
    let w := popcount trained 16
    let s := (List.range 16).foldl (fun s m => s.setSpares x e m) s
    let s := s.puts [(F.bxModules_good, [x, e], good), (F.bxModules_partner, [x, e], partner),
      (F.bxModules_trained, [x, e], trained), (F.bxStatus_width, [x, e], w),
      (F.bxCapPartner_word, [x, e, 0], cap0), (F.bxCapPartner_word, [x, e, 1], cap1),
      (F.bxStatus_savedUsed, [x, e],
        if s.flag F.bxControl_reuseSaved [x, e] && s.get F.bruStatus_start == 1 && !retrain then 1 else 0)]
    let r0 := s.get F.bxCapRunning_word [0]
    let r1 := s.get F.bxCapRunning_word [1]
    if r0 ≠ 0 ∧ !capAdmits cap0 cap1 r0 r1 then
      ((s.put F.bxStatus_capRefused [x, e] 1).setBxState x e bxAgreeing).mapUpdate
        [(offDie (bxDie x (1 - e)), entry stFailed 6)]
    else if w < s.minModules x e then
      let s := (s.setBxState x e bxFailed).mapUpdate ((modOffs x).map (fun o => (o, entry stFailed 6)))
      -- a die both of whose links are FAILED cannot be reached any more; in partial reset its return finds that
      let lost := [x, (x + 1) % 4].filter (fun d => s.bxLost d && s.bxLost ((d + 3) % 4) && !s.dieInReset d && s.dieUsable d)
      if lost.isEmpty then s else s.mapUpdate (lost.map (fun d => (offDie d, entry stFailed 6)))
    else
      let s := if retrain then s
        else (List.range 4).foldl (fun s v => s.put F.bxBisc_avail [x, e, v] (s.get F.bxBisc_total [x, e, v])) s
      let s := s.setBxState x e bxUp
      match (s.bxEnd x e).reported with
      | none => s
      | some n =>
        let s := s.setBx x e { s.bxEnd x e with reported := none }
        let s := s.put F.bxStatus_widthDisagree [x, e] 1
        let s := s.mapRestore (modOffs x) (fun _ => false)
        if e = 0 then s.fault x (s.record kBennexDiscard 0 (offMod x 0) (detail := n)) else s

/-- R364: a lane fails while the link is UP: a free spare takes it where both ends carry BX_LIVE_SPARE, else the link
retrains. -/
def State.bxLiveSpare (s : State) (x e m l : Nat) : State :=
  if s.bxState x e ≠ bxUp ∨ !usableSt (statusOf (s.ownAt (offLane x m l))) then s
  else
    let live := bit (Config.fusedCap (bxDie x 0) 1) 8 && bit (Config.fusedCap (bxDie x 1) 1) 8
    let free := decide (64 < (s.usableLanes x m).length)
    if live && free then
      let s := s.mapUpdate [(offLane x m l, entry stFailed 6)]
      [0, 1].foldl (fun s e => s.setSpares x e m) s
    else s.bxRetrain x e

end Sys2Proof.Machine
end

