-- ==== Sys2Proof/Machine/Far.lean ====
section
/-! DEFINITION. The far ports (R299 to R306). -/

namespace Sys2Proof.Machine

def State.farPort (s : State) (f : Nat) : FarPort := tget {} s.far f
def State.setFar (s : State) (f : Nat) (x : FarPort) : State := { s with far := tset {} s.far f x }

/-- Where the window of port `f` begins in the local map (R39). -/
def farBase (f : Nat) : Nat := 0x40000000000 * (f + 1)
def farDie (f : Nat) : Nat := 2 * f + 1

/-- R45, R301: the status of an access to window offset `x`; 0 where it is served. -/
def State.farStatus (s : State) (f x len : Nat) : Nat :=
  let st := addrStatus (statusOf (s.portShown (8 + f))) (s.dieSt (farDie f))
  if st ≠ 0 then st else if s.get F.fpCapacity_bytes [f] < x + len then 0x20 else 0

/-- The pieces of an access that lie in one 64-byte line each (R301). -/
def linePieces (off len : Nat) : List (Nat × Nat) :=
  if len = 0 then []
  else (List.range ((off + len - 1) / 64 - off / 64 + 1)).map (fun i =>
    let lo := max off ((off / 64 + i) * 64)
    let hi := min (off + len) ((off / 64 + i + 1) * 64)
    (lo, hi - lo))

def accessLen : MemAccess → Nat
  | .read n => n.val
  | .write bs => bs.length

/-- R302, R304: the requests that a port may issue now, in order: at most 256 are outstanding, and none to a line to which an
earlier one waits. The queue after it, and what leaves. -/
def farIssued (earlier : List FarReq) : List FarReq → List FarReq × List FarReq
  | [] => (earlier.reverse, [])
  | r :: t =>
    if r.issued ∨ earlier.any (fun e => e.off / 64 == r.off / 64) ∨ 256 ≤ ((earlier ++ t).filter FarReq.issued).length then
      farIssued (r :: earlier) t
    else
      let x := farIssued ({ r with issued := true } :: earlier) t
      (x.1, r :: x.2)

/-- R301: a read is a MemRd (0), a write of a whole line a MemWr (1), a narrower write a MemWrPtl (2). -/
def FarReq.opcode (r : FarReq) : Nat := match r.wr with | none => 0 | some _ => if r.len = 64 then 1 else 2

def State.farIssue (s : State) (f : Nat) : State :=
  let x := s.farPort f
  let q := farIssued [] x.queue
  { s.setFar f { x with queue := q.1 } with out := (q.2.map (fun r => Out.cxlMem f r.opcode (r.off / 64))).reverse ++ s.out }

/-- R301: the requests of one access of master `m`, one for each line. -/
def State.farRequest (s : State) (f m off : Nat) (a : MemAccess) : State :=
  let rs := (linePieces off (accessLen a)).map (fun p => ({ master := m, off := p.1, len := p.2, wr := match a with
    | .read _ => none
    | .write bs => some ((bs.drop (p.1 - off)).take p.2) } : FarReq))
  let x := s.farPort f
  (s.setFar f { x with queue := x.queue ++ rs }).farIssue f

/-- Every outstanding request fails: each is a failed access (R45, R47, R306). -/
def State.farFailAll (s : State) (f status : Nat) : State :=
  let x := s.farPort f
  let s := x.queue.foldl (fun (s : State) (r : FarReq) => s.addrError status r.master r.wr.isSome (0xFFFFF * 2 ^ 44 + farBase f + r.off)) s
  let s := { s with out := x.queue.map (fun _ => Out.answer status []) ++ s.out }
  s.setFar f { x with queue := [] }

/-- Far bytes written in one operation: a whole line replaces poisoned data. -/
def State.farWrite (s : State) (f off : Nat) (bs : List Byte) : State :=
  let s := s.pokes (farBase f + off) bs
  let whole := (linePieces off bs.length).filter (fun p => p.2 == 64)
  { s with farPoison := whole.foldl (fun l p => nsDel l ((farBase f + p.1) / 64)) s.farPoison }

/-- A poisoned line among those read (R303). -/
def State.farPoisoned (s : State) (f off len : Nat) : Bool :=
  (linePieces off len).any (fun p => s.farPoison.contains ((farBase f + p.1) / 64))

/-- R302, R303: the device completes the oldest request to a line. -/
def State.farRespond (s : State) (f line : Nat) (poison : Bool) : State :=
  let x := s.farPort f
  match x.queue.find? (fun r => r.issued && r.off / 64 == line) with
  | none => s
  | some r =>
    let s := (s.setFar f { x with queue := x.queue.erase r }).farIssue f
    match r.wr with
    | some bs => s.farWrite f r.off bs
    | none =>
      let s := if poison then { s with farPoison := nsIns s.farPoison ((farBase f + r.off) / 64) } else s
      if s.farPoisoned f r.off r.len then
        { s.bump F.fpPoisonCount_count [f] with out := .answer 0x28 [] :: s.out }
      else { s with out := .answer 0 (s.peeks (farBase f + r.off) r.len) :: s.out }

/-- The map entry of a far port and its lanes after training (R300): lanes beyond the width are excluded. -/
def farEntries (f : Nat) (port : Byte) (width : Nat) : List (Nat × Byte) :=
  (offPort (8 + f), port) ::
    (if port = entry stUnconn 0 then (List.range 8).map (fun l => (offFarLane f l, entry stUnconn 0))
     else (List.range 8).map (fun l => (offFarLane f l, if l < width then entry stGood 0 else entry stExcluded 6)))

/-- R300: the phases Release, Train, Identify, Decode and Open, to the first that fails. `C` is the device's size up to
4 TiB in multiples of 256 MiB. A port that is FUSED_OFF, FAILED or RETIRED stays as it is until readmission. -/
def State.farBringup (s : State) (f : Nat) (o : FarOutcome) : State :=
  let cap := min (2 ^ 42) o.size / 2 ^ 28 * 2 ^ 28
  let x := s.farPort f
  let down (s : State) (b : Byte) (phase : Nat) : State :=
    (s.mapUpdate (farEntries f b 0)).puts [(F.fpStatus_phase, [f], phase), (F.fpCapacity_bytes, [f], 0)]
  let own := statusOf (s.ownAt (offPort (8 + f)))
  if own = stFused ∨ own = stFailed ∨ own = stRetired then s
  else
  let s := s.setFar f { x with kept := none }
  if !o.partner then down s (entry stUnconn 0) 2
  else if o.width = 0 then (down s (entry stFailed 6) 2)
  else if !o.type3 then down s (entry stUnconn 0) 3
  else if !o.decodes then down s (entry stFailed 6) 4
  else if x.kept.isSome ∧ x.kept ≠ some cap then down s (entry stFailed 6) 4
  else
    let full := o.width == 8 && o.rate == 3
    let s := s.mapUpdate (farEntries f (if full then entry stGood 0 else entry stDegraded 6) o.width)
    s.puts [(F.fpStatus_phase, [f], 5), (F.fpStatus_width, [f], o.width), (F.fpStatus_rate, [f], o.rate),
      (F.fpCapacity_bytes, [f], cap)]

/-- R305: a far device lost in service: the port FAILED with cause 0x6, the record FAR_LOST with FP_STATUS. -/
def State.farLost (s : State) (f : Nat) (timeout : Bool) : State :=
  if s.get F.fpStatus_phase [f] ≠ 5 then s
  else
    let s := s.put (if timeout then F.fpStatus_timeout else F.fpStatus_linkDown) [f] 1
    let s := s.puts [(F.fpStatus_phase, [f], 6), (F.fpCapacity_bytes, [f], 0)]
    let s := s.farFailAll f 0x20
    let s := s.mapUpdate [(offPort (8 + f), entry stFailed 6)]
    s.fault (farDie f) (s.record kFarLost 0 (offPort (8 + f)) (detail := s.reg .fpStatus [f] % 256))

/-- R306: FP_PERST_N low for 100 ms: the window closes until R300 has run again; what the device then holds is its own. -/
def State.farPerst (s : State) (f : Nat) : State :=
  let s := s.farFailAll f 0x20
  let s := s.puts [(F.fpStatus_phase, [f], 0), (F.fpStatus_width, [f], 0), (F.fpStatus_rate, [f], 0),
    (F.fpCapacity_bytes, [f], 0)]
  let x := s.farPort f
  let here (l : Nat) : Bool := decide (farBase f ≤ l) && decide (l < farBase f + 2 ^ 42)
  { s.setFar f { x with gen := x.gen + 1, kept := none } with
    farMem := s.farMem.filter (fun e => !here e.1), farPoison := s.farPoison.filter (fun l => !here (64 * l)) }

/-- R306: a retrain without PERST: outstanding requests fail with ADDR_OFFLINE. -/
def State.farRetrain (s : State) (f : Nat) : State :=
  (s.farFailAll f 0x21).bump F.fpRetrainCount_count [f]

end Sys2Proof.Machine
end

