-- ==== Sys2Proof/Machine/Cadence.lean ====
section
/-! DEFINITION. The master tick counter and count agreement (R331 to R337), group entries (R340) and group words (R345). -/

namespace Sys2Proof.Machine

/-! States of the counter (R332). -/
def cadFree : Nat := 0
def cadAcquiring : Nat := 1
def cadLocked : Nat := 2
def cadHoldover : Nat := 3

def State.cadState (s : State) : Nat := s.get F.cadStatus_state

/-- The counter counts for the chip's groups: agreed, and LOCKED or in HOLDOVER (R339). -/
def State.cadServes (s : State) : Bool :=
  s.flag F.cadStatus_agreed && (s.cadState == cadLocked || s.cadState == cadHoldover)

/-! ### Group entries -/

/-! States of class 0x09 (R97). -/
def grNone : Nat := 0
def grForming : Nat := 1
def grFormed : Nat := 2
def grRunning : Nat := 3
def grReforming : Nat := 4

/-- The entry that holds a group: engine and entry. -/
def State.findGroup (s : State) (g : Nat) : Option (Nat × Nat × Group) :=
  (s.groups.filterMap (fun e => e.2.map (fun x => (e.1 / 64, e.1 % 64, x)))).find? (fun e =>
    s.get F.collEntry_group [e.1, e.2.1] == g)

def State.setGroup (s : State) (d i : Nat) (x : Option Group) : State :=
  { s with groups := tset none s.groups (64 * d + i) x }

def State.groupState (s : State) (d i : Nat) : Nat := s.get F.collEntry_state [d, i]

/-- The state of a group by number; NONE where no entry holds it. -/
def State.stateOfGroup (s : State) (g : Nat) : Nat :=
  match s.findGroup g with
  | some e => s.groupState e.1 e.2.1
  | none => grNone

/-- An entry returned to NONE. -/
def State.clearGroup (s : State) (d i : Nat) : State :=
  (s.setGroup d i none).puts [(F.collEntry_group, [d, i], 0), (F.collEntry_state, [d, i], grNone),
    (F.collEntry_leader, [d, i], 0), (F.collEntry_index, [d, i], 0), (F.collEntry_n, [d, i], 0),
    (F.collEntryTick_next, [d, i], 0)]

/-- A group word leaves on every UP port but one (R345). -/
def State.spreadWord (s : State) (kind group value ttl : Nat) (except : Option Nat) : State :=
  let ports := (List.range 8).filter (fun p => s.gfState p == gfUp && some p != except)
  let s := { s with words := (kind, group, value) :: s.words.filter (fun w => w != (kind, group, value)) }
  { s with out := (ports.map (fun p => Out.groupWord p kind group value ttl)).reverse ++ s.out }

/-- R345: a word received: relayed once, with its TTL lowered, while the TTL is above 0; whether it is new. -/
def State.hearWord (s : State) (port kind group value ttl : Nat) : State × Bool :=
  if s.words.contains (kind, group, value) then (s, false)
  else if ttl = 0 then ({ s with words := (kind, group, value) :: s.words }, true)
  else (s.spreadWord kind group value (ttl - 1) (some port), true)

/-! ### Ticks (R331, R332) -/

/-- R335, R351: the count at an edge: an adopted count applies here, and the root takes CAD_SET at its first edge in
LOCKED. -/
def State.edge (s : State) : State :=
  let c := match s.cad.adopted with
    | some v => v + 1
    | none => s.get F.cadCount_count + 1
  let s := (s.put F.cadCount_count [] c).put F.cadPhase_ns [] 0
  let s := match s.cad.adopted with
    | some _ => { s.put F.cadStatus_agreed [] 1 with cad := { s.cad with adopted := none } }
    | none => s
  if s.cadState = cadLocked ∧ s.flag F.cadCtl_root ∧ !s.flag F.cadStatus_agreed then
    (s.put F.cadCount_count [] (s.get F.cadSet_count)).put F.cadStatus_agreed [] 1
  else s

/-- The counter enters FREE: AGREED falls; the groups go to NONE in the operation that ends their collectives (R340). -/
def State.cadToFree (s : State) : State :=
  ({ s with cad := {} }).puts [(F.cadStatus_state, [], cadFree), (F.cadStatus_agreed, [], 0)]

def State.cadTo (s : State) (v : Nat) : State := ({ s with cad := { s.cad with inRow := 0, missed := 0 } }).put F.cadStatus_state [] v

/-- R332: what a tick `err` ns from its predicted edge does to the counter's state; true where it enters FREE. -/
def State.tickState (s : State) (err : Int) : State × Bool :=
  let n := s.cad.inRow
  let inRow (k : Nat) : State := { s with cad := { s.cad with inRow := k, missed := 0 } }
  let st := s.cadState
  if st = cadFree then
    (if err.natAbs ≤ 2 then (if n + 1 < 64 then inRow (n + 1) else s.cadTo cadAcquiring) else inRow 0, false)
  else if st = cadAcquiring then
    (if err.natAbs ≤ 10 then (if n + 1 < 1000 then inRow (n + 1) else s.cadTo cadLocked) else inRow 0, false)
  else if st = cadLocked then (inRow 0, false)
  else if err.natAbs ≤ 250 then (if n + 1 < 16 then inRow (n + 1) else s.cadTo cadLocked, false)
  else (s.cadToFree, true)

/-! ### Count agreement (R335, R336) -/

/-- The count that a word implies for this chip's latest edge; none where the two edges are ambiguous. In units of
half a nanosecond: x = (2 phase + rtt − 2 own) / 2000, rounded, at most 0.4 from a whole number. -/
def wordCount (w : CadWord) (rtt : Nat) : Option Nat :=
  let num : Int := 2 * (w.phase : Nat) + rtt - 2 * (w.ownPhase : Nat)
  let r : Int := (num + 1000).fdiv 2000
  if (num - 2000 * r).natAbs > 800 then none
  else some ((((w.count.toNat : Nat) : Int) + r).emod (2 ^ 64)).toNat

/-- R335, R336: a Cadence word at a port in UP. -/
def State.hearCadence (s : State) (p : Nat) (w : CadWord) : State :=
  if !w.agreed || s.gfState p != gfUp then s
  else match wordCount w (s.get F.gfRtt_ns [p]) with
  | none => s
  | some v =>
    if s.flag F.cadStatus_agreed then
      if v = s.get F.cadCount_count then s
      else s.puts [(F.cadStatus_mismatch, [], 1),
        (F.cadMismatchPorts_ports, [], Nat.lor (s.get F.cadMismatchPorts_ports) (2 ^ p))]
    else if (s.cadState = cadLocked ∨ s.cadState = cadHoldover) ∧ !s.flag F.cadCtl_root ∧ s.cad.adopted = none then
      { s with cad := { s.cad with adopted := some v } }
    else s

end Sys2Proof.Machine
end

