-- ==== Sys2Proof/Machine/Thermal.lean ====
section
/-! DEFINITION. Sensors, the thermal model, the Clamp, coolant reports, power and supply alerts (R393 to R410). -/

namespace Sys2Proof.Machine

def State.modPower (s : State) (f : Power → Power) : State := { s with power := f s.power }

/-! ### Sensors (R394, R395) -/

/-- The neighbours of a hot spot: the adjacent cores of the 4 × 4 grid, or the two that TH_HOTSPOT fixes (R394). -/
def State.neighbours (s : State) (d i : Nat) : List Nat :=
  if i < 16 then
    (if i % 4 = 0 then [] else [i - 1]) ++ (if i % 4 = 3 then [] else [i + 1]) ++
    (if i < 4 then [] else [i - 4]) ++ (if 12 ≤ i then [] else [i + 4])
  else [s.get F.thHotspot_nbrA [d, i], s.get F.thHotspot_nbrB [d, i]]

def gap (a b : Nat) : Nat := if a < b then b - a else a - b

/-- R394: a reading is implausible, against the model's estimate and the neighbours' previous fused values. -/
def implausible (r est : Nat) (nbrs : List Nat) : Bool :=
  let lo := nbrs.foldl min (nbrs.headD 0)
  let hi := nbrs.foldl max 0
  decide (64 < gap r est) && (decide (r + 32 < lo) || decide (hi + 96 < r))

/-- R395: the fused value and SRC of two readings. -/
def fuse (a b est : Nat) (ia ib : Bool) : Nat × Nat :=
  if ia && ib then (est + 40, 3)
  else if ia then (b, 2)
  else if ib then (a, 2)
  else if 32 < gap a b then (max a b, 1)
  else ((a + b + 1) / 2, 0)

/-- One sample of a die. -/
def State.sample (s : State) (d : Nat) (rs : List (Nat × Nat)) : State :=
  let prev (i : Nat) : Nat := s.get F.thHotspot_fused [d, i]
  (rs.zipIdx.take 20).foldl (fun t x =>
    let i := x.2
    let a := x.1.1
    let b := x.1.2
    let est := tget 0 s.power.estimate (20 * d + i)
    let nb := (s.neighbours d i).map prev
    let ia := implausible a est nb
    let ib := implausible b est nb
    let f := fuse a b est ia ib
    let t := t.puts [(F.thHotspot_fused, [d, i], sat 11 f.1), (F.thHotspot_src, [d, i], f.2),
      (F.thHotspot_aImpl, [d, i], if ia then 1 else 0), (F.thHotspot_bImpl, [d, i], if ib then 1 else 0)]
    let t := if 32 < gap a b then t.bump F.thDisagreeCount_count [d] else t
    let t := if f.2 = 3 then t.bump F.thModelSubCount_count [d] else t
    let run := if f.2 = 3 then tget 0 t.power.substituted (20 * d + i) + 1 else 0
    t.modPower (fun p => { p with substituted := tset 0 p.substituted (20 * d + i) run })) s

/-! ### The model (R396 to R398) -/

/-- An offset clamped to −30 K and +10 K (R397). -/
def clampOffset (o : Int) : Int := max (-240) (min 80 o)

/-- A model update: estimates and predictions taken, layer estimates formed and reported to the channels, whose refresh
rates follow (R265, R397, R398). -/
def State.modelUpdate (s : State) (d : Nat) (spots : List (Nat × Nat)) (offsets : List Int) (layerPred : List Nat) : State :=
  let s := (spots.zipIdx.take 20).foldl (fun t x =>
    (t.put F.thHotspot_pred [d, x.2] x.1.2).modPower (fun p =>
      { p with estimate := tset 0 p.estimate (20 * d + x.2) x.1.1 })) s
  let s := (layerPred.zipIdx.take 64).foldl (fun t x =>
    t.modPower (fun p => { p with layerPred := tset 0 p.layerPred (64 * d + x.2) x.1 })) s
  (List.range 64).foldl (fun t i =>
    let k := i / 4
    let j := i % 4
    let e := ((t.get F.thHotspot_fused [d, k] : Int) + clampOffset (offsets.getD i 0)).toNat
    let t := t.put F.thLayer_est [d, k] (putBits (t.get F.thLayer_est [d, k]) (11 * j) 11 (sat 11 e))
    (List.range 8).foldl (fun t n =>
      let c := 16 * d + k
      (t.put F.slcLayerTemp_temp [c, 8 * j + n] (sat 11 e)).setRate c (8 * j + n)) t) s

/-! ### The Clamp (R399 to R401) -/

/-- Collectives that run on the chip. -/
def State.runs (s : State) : List CollRun := s.groups.filterMap (fun e => e.2.bind Group.run)

def State.logicTarget (s : State) (d : Nat) : Nat := 8 * min 100 (s.get F.thTargets_logic [d])
def State.layerTarget (s : State) (d : Nat) : Nat := 8 * min 95 (s.get F.thTargets_layer [d])

/-- Gain × excess in 64ths, from 0 to 63. -/
def throttle (gain excess8 : Nat) : Nat := min 63 (gain * excess8 / 8)

/-- The slew limits of R399. -/
def slew (new old : Nat) : Nat := if old < new then min new (old + 8) else max new (old - 1)

/-- R400: the network budgets of a die's classes for its greatest throttle; the collective classes are spared in stage 1
and cut hardest in stage 2 (R401). -/
def State.setBudgets (s : State) (d theta : Nat) : State :=
  let base := max 1 (s.get F.thNetBase_base [d])
  let coll := s.runs.map CollRun.tc
  let stage := s.get F.thStatus_stage [d]
  (List.range 8).foldl (fun t k =>
    let b := if coll.contains k then (if stage = 2 then (base + 63) / 64 else 0)
      else if theta = 0 then 0 else max 1 ((base * (64 - theta) + 63) / 64)
    (t.put F.netTcClamp_budget [d, k] b).regulate d k) s

/-- R406: the limiter's duty in 64ths. -/
def State.dutyP (s : State) : Nat := s.get F.pwrMeasured_dP

/-! Predicted excesses of R399 in eighths of a kelvin: of hot spot `i`, of the greatest of H16 to H19, of layer `j` above core
`k`, and of its greatest layer. -/
def State.logicExcess (s : State) (d i : Nat) : Nat := s.get F.thHotspot_pred [d, i] - s.logicTarget d
def State.edgeExcess (s : State) (d : Nat) : Nat := ([16, 17, 18, 19].map (s.logicExcess d)).foldl max 0
def State.layerExcess (s : State) (d k j : Nat) : Nat := tget 0 s.power.layerPred (64 * d + 4 * k + j) - s.layerTarget d
def State.stackExcess (s : State) (d k : Nat) : Nat := ((List.range 4).map (s.layerExcess d k)).foldl max 0

/-- R399, R400: one update of a die's Clamp. -/
def State.clampUpdate (s : State) (d : Nat) : State :=
  let gain := max 1 (s.get F.thTargets_gain [d])
  let edge := s.edgeExcess d
  let hs := s.logicExcess d
  let lay := s.layerExcess d
  let ls := s.stackExcess d
  let s := (List.range 16).foldl (fun t k =>
    let eh := hs k
    let el := ls k
    let new := throttle gain (max (max eh edge) el)
    let th := slew new (t.get F.thClamp_theta [d, k])
    let cause := if th = 0 then 0 else if el ≤ max eh edge then (if edge ≤ eh then 1 else 3) else 2
    let t := t.puts [(F.thClamp_theta, [d, k], th), (F.thClamp_cause, [d, k], cause),
      (F.thClamp_duty, [d, k], max 1 (min (64 - th) t.dutyP))]
    (List.range 32).foldl (fun t n =>
      let c := 16 * d + k
      let tn := slew (throttle gain (lay k (n / 8))) (tget 0 t.power.thetaN (32 * c + n))
      (t.modPower (fun p => { p with thetaN := tset 0 p.thetaN (32 * c + n) tn })).put F.arbThrottle_b [c, n] tn) t) s
  let thetas := (List.range 16).map (fun k => s.get F.thClamp_theta [d, k])
  let top := thetas.foldl max 0
  let chans := (List.range 512).any (fun i => tget 0 s.power.thetaN (512 * d + i) != 0)
  let hot := if top = 63 then tget 0 s.power.hot d + 1 else 0
  let cool := if top = 63 then 0 else tget 0 s.power.cool d + 1
  let s := s.modPower (fun p => { p with hot := tset 0 p.hot d hot, cool := tset 0 p.cool d cool })
  let stage := s.get F.thStatus_stage [d]
  let running := !s.runs.isEmpty
  let stage := if stage = 3 then 3
    else if stage = 2 ∧ running ∧ tget 0 s.power.cool d < 10 then 2
    else if running && (top != 0 || chans) then 1 else 0
  let s := s.puts [(F.thStatus_clampActive, [d], if top != 0 || chans then 1 else 0), (F.thStatus_stage, [d], stage)]
  s.setBudgets d top

/-- R401: a throttle of the die is at its greatest while its predicted excess is above 0. -/
def State.overheats (s : State) (d : Nat) : Bool :=
  (List.range 16).any (fun k => s.get F.thClamp_theta [d, k] == 63 &&
    decide (0 < max (max (s.logicExcess d k) (s.edgeExcess d)) (s.stackExcess d k)))

/-- R401: stage 2 is entered while a collective runs, once the die has overheated for 1 ms. -/
def State.enterStage2 (s : State) (d : Nat) : State :=
  if s.runs.isEmpty || !s.overheats d || decide (tget 0 s.power.hot d < 10) || decide (2 ≤ s.get F.thStatus_stage [d]) then s
  else ((s.put F.thStatus_stage [d] 2).bump F.thStage2Count_count [d]).setBudgets d 63

/-! ### Power (R405 to R409) -/

/-- Issue is halted: THERMTRIP, ride-through or a coolant stop (R402, R404, R409). -/
def State.issueHalted (s : State) : Bool := s.power.tripped || s.power.ride || s.power.stopped

/-- The Clamp holds collectives (R347, R401, R409). -/
def State.clampHolds (s : State) : Bool :=
  s.issueHalted || (List.range 4).any (fun d => s.get F.thStatus_stage [d] == 2)

/-- PWR_STATUS.STATE from the conditions that hold; ride-through governs a sag (R409). -/
def State.syncPower (s : State) : State :=
  let p := s.power
  let v := if p.tripped then 4 else if p.ride then 2 else if p.stopped then 3 else if p.sag then 1
    else if p.inService then 0 else 5
  s.puts [(F.pwrStatus_state, [], v), (F.pwrMeasured_pAW, [], sat 16 (p.allowed / 10))]

def State.floorTenths (s : State) : Nat := 10 * s.get F.pwrFloor_w

/-- P_a at the floor at once, and no rise in progress (R404, R409). -/
def State.shed (s : State) : State :=
  (s.modPower (fun p => { p with allowed := s.floorTenths })).put F.pwrStatus_rising [] 0

/-- R402: THERMTRIP_N asserted. -/
def State.trip (s : State) (d : Nat) : State :=
  let s := (List.range 4).foldl (fun s k => s.put F.thStatus_trip [k] 1) s
  ((s.put F.thStatus_stage [d] 3).modPower (fun p => { p with tripped := true })).syncPower

/-- R400, R411: the duty that a core runs at: the lower of the Clamp's and the limiter's. -/
def State.setDuty (s : State) (d k : Nat) : State :=
  s.put F.thClamp_duty [d, k] (max 1 (min (64 - s.get F.thClamp_theta [d, k]) s.dutyP))

/-- R405, R406: a measurement and the limiter's duty, which every core follows. -/
def State.measure (s : State) (p glue : Nat) : State :=
  let dp := s.dutyP
  let pa := s.power.allowed
  let dp := if pa < 10 * p then dp * pa / (10 * p) else min 64 (dp + 1)
  let s := s.puts [(F.pwrMeasured_pW, [], p), (F.pwrMeasured_glueW, [], glue), (F.pwrMeasured_dP, [], dp)]
  let s := (List.range 64).foldl (fun s i => s.setDuty (i / 16) (i % 16)) s
  let s := if 2200 < p then s.put F.pwrStatus_excursion [] 1 else s
  let s := if 2200 < p ∧ !s.power.above then s.bump F.pwrExcursions_count [] else s
  s.modPower (fun q => { q with above := decide (2200 < p) })

/-- R471: P_a at most 1,200 W while the regulator has not acknowledged the last AVSBus write. -/
def State.avsLimit (s : State) : State :=
  if s.avsHold then s.modPower (fun q => { q with allowed := min 12000 q.allowed }) else s

/-- R406: P_a at a tick, in tenths of a watt; it holds in ride-through and after THERMTRIP, and at the floor or below in
a sag or a coolant stop. -/
def State.powerTick (s : State) : State :=
  let q := s.power
  if q.tripped || q.ride || q.stopped || q.sag then s
  else
    let p := s.get F.pwrMeasured_pW
    let dp := s.dutyP
    let d := if dp < 64 then (if dp = 0 then 26000 else 10 * p * 64 / dp) else 10 * (p - s.get F.pwrMeasured_glueW)
    let up := max 1 (s.get F.pwrRamp_up)
    let dn := s.get F.pwrRamp_down
    let per := max 1 (s.get F.pwrStagger_period)
    let s := if q.allowed < d then
        if s.flag F.pwrStatus_rising || s.get F.cadCount_count % per == s.get F.pwrStagger_offset then
          (s.put F.pwrStatus_rising [] 1).modPower (fun q =>
            { q with allowed := min d (min (q.allowed + up) (10 * s.get F.pwrCap_w)) })
        else s
      else
        (s.put F.pwrStatus_rising [] 0).modPower (fun q =>
          { q with allowed := max d (max (q.allowed - dn) s.floorTenths) })
    s.avsLimit.syncPower

/-! ### Coolant (R403, R404) -/

/-- One byte into CRC-8 with polynomial x^8 + x^2 + x + 1. -/
def crc8Byte (c b : Nat) : Nat :=
  (List.range 8).foldl (fun c _ => if 128 ≤ c then Nat.xor (c * 2 % 256) 7 else c * 2) (Nat.xor c b)
def crc8 (l : List Byte) : Nat := l.foldl (fun c b => crc8Byte c b.toNat) 0

/-- FLOW in mL/min is below the minimum flow at inlet temperature `t` in 0.01 °C (R404). -/
def belowMin (flow : Nat) (t : Int) : Bool := decide ((23 * flow : Int) < 46000 + 10 * (t - 1700))

/-- R403, R404: a coolant report. -/
def State.coolant (s : State) (l : List Byte) : State :=
  let v := leOf l
  let seq := bits v 0 16
  if l.length ≠ 12 ∨ crc8 (l.take 11) ≠ bits v 88 8 ∨ s.power.seq = some seq ∨ bits v 65 7 ≠ 0 ∨ bits v 72 16 ≠ 0 then s
  else
    let flow := bits v 48 16
    let fault := bit v 64
    let low := belowMin flow (toSigned 16 (bits v 16 16))
    let halved := s.power.flows.any (fun f => decide (2 * flow < f))
    let s := s.puts [(F.pwrCoolant_inlet, [], bits v 16 16), (F.pwrCoolant_outlet, [], bits v 32 16),
      (F.pwrCoolant_flow, [], flow), (F.pwrCoolant_ageMs, [], 0)]
    let good := if low || fault then 0 else s.power.good + 1
    let s := s.modPower (fun p => { p with seq := some seq, flows := (flow :: p.flows).take 2, good := good })
    if s.power.stopped then
      (if 10 ≤ good then (s.modPower (fun p => { p with stopped := false })).syncPower else s)
    else if low || halved || fault then
      let s := (s.bump F.pwrStopCount_count []).modPower (fun p => { p with stopped := true, good := 0 })
      s.shed.syncPower
    else s

end Sys2Proof.Machine
end

