-- ==== Sys2Proof/Machine/Store.lean ====
section
/-! DEFINITION. Accesses to storage by any master: where an address leads, whether its target serves it (R45), whether it is
held (R36, R198, R201), and the bytes read or written. Registers are Machine/Regs.lean's. -/

namespace Sys2Proof.Machine

/-- What an access does: it reads a number of bytes, or writes bytes. -/
inductive MemOp where
  | rd (n : Nat)
  | wr (bs : List Byte)
  deriving DecidableEq, Repr

def MemOp.len : MemOp → Nat
  | .rd n => n
  | .wr bs => bs.length

def MemOp.isWrite : MemOp → Bool
  | .rd _ => false
  | .wr _ => true

def MemOp.ofAccess : MemAccess → MemOp
  | .read n => .rd n.val
  | .write bs => .wr bs

/-- How an access ends: its bytes (none for a write), a status of R482, held until later, or at the CXL component
registers. -/
inductive Ans where
  | ok (bs : List Byte)
  | fail (status : Nat)
  | hold
  | cxl
  deriving DecidableEq, Repr

/-! Status codes of R482. -/
def stUnusable : Nat := 0x20
def stAddrOffline : Nat := 0x21
def stNoRoute : Nat := 0x22
def stMemData : Nat := 0x28
def stParity : Nat := 0x29
def stAtomInvalid : Nat := 0x2A

/-- The requester of a master at a channel of core `c` (R277). -/
def requesterOf (c m : Nat) : Nat :=
  if m = mCore c then rqProc
  else if mDma c 0 ≤ m ∧ m ≤ mDma c 3 then rqDma
  else if 0x140 ≤ m ∧ m < 0x180 then rqNbWrite else rqRemote

/-! ### Whether the target serves (R45) -/

def firstNonzero : List Nat → Nat
  | [] => 0
  | x :: t => if x = 0 then firstNonzero t else x

def State.coreStatusOf (s : State) (c : Nat) : Nat := addrStatus (statusOf (s.ownAt (offCore c))) (s.dieSt (c / 16))
def State.chanStatusOf (s : State) (c n : Nat) : Nat := addrStatus (statusOf (s.chanShown c n)) (s.dieSt (c / 16))

/-- The host window: ADDR_OFFLINE while the link is down (DESIGN CHOICE: the spec names no status). -/
def State.hostStatusOf (s : State) : Nat :=
  firstNonzero [addrStatus (statusOf (s.portShown 10)) (s.dieSt 0), if s.flag F.hifLink_up then 0 else stAddrOffline]

/-- The status with which an access to a target ends where the target cannot serve it; 0 where it can. -/
def State.targetStatus (s : State) (m : Nat) (t : Target) (len : Nat) : Nat :=
  let reach (d : Nat) : Nat := s.dieReach (masterDie m) d
  match t with
  | .slice c n _ => firstNonzero [s.chanStatusOf c n, reach (c / 16)]
  | .spad c _ | .acc c _ => firstNonzero [s.coreStatusOf c, reach (c / 16)]
  | .far f x => firstNonzero [s.farStatus f x len, reach (farDie f)]
  | .host _ => firstNonzero [s.hostStatusOf, reach 0]
  | .noRoute => stNoRoute
  | .peer chip => if (s.route chip).isSome then 0 else stNoRoute
  | .reg _ | .door _ | .reserved => 0

/-! ### Holds -/

def writesAcc : Instr → Bool
  | .mma .. | .macc .. | .mzero .. | .astep .. | .amax .. | .aexp .. => true
  | _ => false

/-- R36: a matrix or attention-step instruction of the core is writing its accumulator store. -/
def State.accBusy (s : State) (c : Nat) : Bool :=
  let busy (u : UnitId) : Bool :=
    match (s.core c).runs u with
    | some r => writesAcc r.entry.instr
    | none => false
  busy .matrix || busy .attention

/-- The die at which a target of this chip lies. -/
def Target.die : Target → Option Nat
  | .slice c _ _ | .spad c _ | .acc c _ => some (c / 16)
  | .far f _ => some (farDie f)
  | .host _ => some 0
  | _ => none

/-- R367: a link on the access's way between dies holds new traffic. -/
def State.linkHolds (s : State) (m : Nat) (t : Target) : Bool :=
  !s.bxHeld.isEmpty && (t.die.map (s.dieHolds (masterDie m))).getD false

/-- Whether an access waits: for a link that has just returned, at a channel in PROCESSOR mode or over a result area, at an
accumulator store being written, behind a request to its line at a far port. -/
def State.held (s : State) (m : Nat) (t : Target) (len : Nat) : Bool :=
  s.linkHolds m t ||
  match t with
  | .slice c n off => !(decide (0x140 ≤ m) && decide (m < 0x180)) && (s.chanParks c n || s.resultHeld c n off len)
  | .acc c _ => m != mCore c && s.accBusy c
  | .far f x => (linePieces x len).any (fun p => (s.farPort f).queue.any (fun r => r.off / 64 == p.1 / 64))
  | _ => false

/-! ### Windows of the BAR0 image (R7, R37) -/

def winMap (o : Nat) : Bool := decide (0x48000 ≤ o) && decide (o < 0x51000)
def winReq (o : Nat) : Bool := decide (0x101000 ≤ o) && decide (o < 0x111000)
def winResp (o : Nat) : Bool := decide (0x111000 ≤ o) && decide (o < 0x121000)
def winLog (o : Nat) : Bool := decide (0xF8000 ≤ o) && decide (o < 0x100000)
def winNbr (o : Nat) : Bool := decide (0x2000000 ≤ o) && decide (o < 0x2400000)
/-- The MSI-X table and its pending-bit array (R374). -/
def winMsix (o : Nat) : Bool := (decide (0xB8000 ≤ o) && decide (o < 0xC0000)) || (decide (0xB4000 ≤ o) && decide (o < 0xB4100))
def winCxl (o : Nat) : Bool := decide (0xA0000 ≤ o) && decide (o < 0xB0000)
def isWindow (o : Nat) : Bool := winMap o || winReq o || winResp o || winLog o || winNbr o || winMsix o

/-- The die that a BAR0 offset lies on (R481). -/
def regDie (o : Nat) : Nat :=
  if 0x2000000 ≤ o then (o - 0x2000000) / 0x10000 / 16 % 4
  else if 0x1000000 ≤ o then (o - 0x1000000) / 0x40000 / 16 % 4
  else if 0x70000 ≤ o ∧ o < 0x74000 then (o - 0x70000) / 0x1000
  else if 0x80000 ≤ o ∧ o < 0x84000 then ((o - 0x80000) / 0x1000 + (o % 0x1000) / 0x800) % 4
  else if 0x90000 ≤ o ∧ o < 0x94000 then (o - 0x90000) / 0x1000
  else if 0xC0000 ≤ o ∧ o < 0xC8000 then (o - 0xC0000) / 0x2000
  else if 0xD0000 ≤ o ∧ o < 0xD0800 then (if o < 0xD0400 then 1 else 3)
  else if 0xE0000 ≤ o ∧ o < 0xE1000 then (o - 0xE0000) / 0x400
  else 0

/-- R481: the block of an offset is available: its die is in service and reachable. -/
def State.regServed (s : State) (m o : Nat) : Bool :=
  let d := regDie o
  !s.dieInReset d && s.dieSt d != stFailed && s.dieReach (masterDie m) d == 0

/-- R209: a write to a sequence-store window, ignored and counted while the channel has a run. -/
def State.nbWindowWrite (s : State) (c n o : Nat) (bs : List Byte) : State :=
  if (s.run c n).isSome || (s.nextRun c n).isSome then s.bump F.nbIgnored_count [c, n]
  else s.pokes (seqStore c n + o) bs

def regLocal (o : Nat) : Nat := 0x0C000000000 + o

/-- A read or write of a window; pieces of 64 bytes are each performed wholly (R7). -/
def State.windowAccess (s : State) (o : Nat) (op : MemOp) : State × List Byte :=
  match op with
  | .rd n => (s, if winMap o then (List.range n).map (fun i => s.mapByte (o - 0x48000 + i)) else s.peeks (regLocal o) n)
  | .wr bs =>
    if winNbr o then (s.nbWindowWrite ((o - 0x2000000) / 0x10000) ((o - 0x2000000) % 0x10000 / 0x800) (o % 0x800) bs, [])
    else if winReq o || winMsix o then (s.pokes (regLocal o) bs, [])
    else (s, [])

/-! ### Performing an access -/

/-- The host physical address of a window offset (R40). -/
def State.hostPhys (s : State) (x : Nat) : Nat := s.get F.glbHostWindowBase_base * 2 ^ 42 + x

/-- R371, R370: the requests of one host-window access, one for each 64-byte line. -/
def State.hostRequests (s : State) (x : Nat) (op : MemOp) : State :=
  let code (l : Nat) : Nat :=
    match op, s.flag F.hifLink_cxl with
    | .rd _, true => 0 | .wr _, true => if l = 64 then 1 else 2
    | .rd _, false => 3 | .wr _, false => 4
  let ls := linePieces (s.hostPhys x) op.len
  { s with out := (ls.map (fun p => Out.hostMem (code p.2) (p.1 / 64))).reverse ++ s.out }

/-- The self alias of a local address (R25). -/
def selfAddr (l : Nat) : Nat := 0xFFFFF * 2 ^ 44 + l

/-- R249: a read by master `m` finds bad parity at the scratchpad byte at local address `l`: counted, and captured where the log
is free. -/
def State.parityFound (s : State) (l m : Nat) (dmaSide persistent : Bool) : State :=
  let c := (l - spadBase) / 2 ^ 24
  let off := (l - spadBase) % 2 ^ 24
  let s := s.bump F.spadParityCount_count [c]
  if s.flag F.spadParityLog_valid [c] then s
  else s.puts [(F.spadParityLog_valid, [c], 1), (F.spadParityLog_persistent, [c], if persistent then 1 else 0),
    (F.spadParityLog_dmaSide, [c], if dmaSide then 1 else 0), (F.spadParityLog_bank, [c], off / 2 ^ 19),
    (F.spadParityLog_offset, [c], off % 2 ^ 19), (F.spadParityLog_masterId, [c], m)]

/-- The bytes read or written at a target that serves the access. -/
def State.perform (s : State) (m : Nat) (t : Target) (op : MemOp) : State × Ans :=
  match t, op with
  | .slice c n off, .rd len =>
    let r := s.sliceRead c n off len m
    (r.1, match r.2 with | some bs => .ok bs | none => .fail stMemData)
  | .slice c n off, .wr bs => (s.sliceWrite c n off bs m, .ok [])
  | .spad c off, .rd len =>
    let l := spadBase + c * 2 ^ 24 + off
    match s.parityHit [(l, len)] with
    | some a => (s.parityFound a m (m != mCore c) true, .fail stParity)
    | none => (s, .ok (s.peeks l len))
  | .spad c off, .wr bs => (s.pokes (spadBase + c * 2 ^ 24 + off) bs, .ok [])
  | .acc c off, .rd len => (s, .ok (s.peeks (accBase + c * 2 ^ 21 + off) len))
  | .acc c off, .wr bs => (s.pokes (accBase + c * 2 ^ 21 + off) bs, .ok [])
  | .far f x, .rd len =>
    if s.farPoisoned f x len then (s.bump F.fpPoisonCount_count [f], .fail stMemData)
    else (s, .ok (s.peeks (farBase f + x) len))
  | .far f x, .wr bs => (s.farWrite f x bs, .ok [])
  | .host x, .rd len => (s.hostRequests x op, .ok (readBytes s.hostMem (s.hostPhys x) len))
  | .host x, .wr bs => ({ s.hostRequests x op with hostMem := writeBytes s.hostMem (s.hostPhys x) bs }, .ok [])
  | .reg o, op =>
    if winCxl o then (s, .cxl)
    else if isWindow o && decide (op.len ≤ 64) && s.regServed m o then
      let r := s.windowAccess o op
      (r.1, .ok r.2)
    else (s.unmapped, .ok (match op with | .rd n => List.replicate n 0#8 | .wr _ => []))
  | .door _, op | .reserved, op => (s.unmapped, .ok (match op with | .rd n => List.replicate n 0#8 | .wr _ => []))
  | .peer _, .rd len =>
    let x := s.fresh
    (x.2, .ok ((List.range len).map (fun i => BitVec.ofNat 8 (Config.peerByte x.1 i))))
  | .peer _, .wr _ => (s, .ok [])
  | .noRoute, _ => (s, .fail stNoRoute)

/-- One access of a master to storage: a target that cannot serve it fails it, counted and captured (R45, R47); a hold
leaves everything unchanged; the host's own access to the host window is one to an undefined offset (R40). -/
def State.storeAccess (s : State) (m tc addr : Nat) (op : MemOp) : State × Ans :=
  let t := s.target addr
  let t := match t with
    | .host x => if m = mHostIo ∨ m = mHostMem then .reserved else .host x
    | t => t
  let st := s.targetStatus m t op.len
  if st ≠ 0 then (s.addrError st m op.isWrite addr, .fail st)
  else if s.held m t op.len then (s, .hold)
  else
    match t, op with
    | .peer chip, .wr bs =>
      ((s.sendMessage chip 0 tc (msgHeader 2 ((bs.length + 31) / 32) bs.length s.nextTag m addr ++ padUnits bs)).1, .ok [])
    | _, _ => s.perform m t op

/-- A held access is kept where it waits: bytes of one block at their channel, any other, and one that a link holds, beside the
machine's held accesses;
`who` is answered later. -/
def State.parkAccess (s : State) (m tc addr : Nat) (op : MemOp) (who : Waiter) : State :=
  let wr := match op with | .rd _ => none | .wr bs => some bs
  let aside : State :=
    ({ s with heldAcc := s.heldAcc ++ [{ addr := localOf addr, len := op.len, wr := wr, master := m, tc := tc, who := who }] } :
      State).regulated m tc
  match s.target addr with
  | .slice c n off =>
    if off / 256 = (off + op.len - 1) / 256 ∧ !s.linkHolds m (.slice c n off) then
      ((s.modChan c n (fun x => { x with net := x.net ++
        [{ requester := requesterOf c m, master := m, tc := tc, off := off, len := op.len, wr := wr, who := who }] })).parkArrivals
        c n).regulated m tc
    else aside
  | _ => aside

end Sys2Proof.Machine
end

