-- ==== Sys2Proof/Machine/Queue.lean ====
section
/-! DEFINITION. Queues: their states (R89), doorbells and ring pointers (R375, R377), completion records (R379 to R382), and
the start of a command (R78, R81, R82, R378). -/

namespace Sys2Proof.Machine

/-! States of a queue (R89). -/
def qDisabled : Nat := 0
def qIdle : Nat := 1
def qPending : Nat := 2
def qRunning : Nat := 3
def qParked : Nat := 4
def qStopped : Nat := 5
def qHeld : Nat := 6

/-- The indices of queue `q`'s registers: its core and local index (R86). -/
def qx (q : Nat) : List Nat := [q / 64, q % 64]

def State.qState (s : State) (q : Nat) : Nat := s.get F.qState_state (qx q)
def State.setQState (s : State) (q v : Nat) : State := s.put F.qState_state (qx q) v

/-- R391: sizes below 2 are treated as 2, above 16 as 16. -/
def ringLog (n : Nat) : Nat := max 2 (min 16 n)
def State.ringSize (s : State) (q : Nat) : Nat := 2 ^ ringLog (s.get F.qRingCfg_log2Size (qx q))
def State.cqSize (s : State) (q : Nat) : Nat := 2 ^ ringLog (s.get F.qRingCfg_cqLog2Size (qx q))
def State.qHead (s : State) (q : Nat) : Nat := s.get F.qPtr_head (qx q)
def State.qTail (s : State) (q : Nat) : Nat := s.get F.qPtr_tail (qx q)

/-- Commands posted and not begun or running: (TAIL − HEAD) mod size. -/
def State.ringCount (s : State) (q : Nat) : Nat := (s.qTail q + s.ringSize q - s.qHead q) % s.ringSize q

/-- The core of a queue has failed or is retired. -/
def State.coreGone (s : State) (c : Nat) : Bool :=
  let st := statusOf (s.ownAt (offCore c))
  st == stFailed || st == stRetired

/-- The state of a queue whose command has left its slot, or that is enabled or readmitted (R89). -/
def State.restState (s : State) (q : Nat) : Nat :=
  if s.get F.qSched_enable (qx q) = 0 then qDisabled
  else if s.coreGone (q / 64) then qHeld
  else if s.ringCount q = 0 then qIdle else qPending

def State.restQueue (s : State) (q : Nat) : State := s.setQState q (s.restState q)

/-- R89: every enabled queue of a core that has failed or is retired enters HELD. -/
def State.holdQueues (s : State) (c : Nat) : State :=
  (List.range 64).foldl (fun s j =>
    if s.qState (64 * c + j) = qDisabled then s else s.setQState (64 * c + j) qHeld) s

/-- R89: the queues of a readmitted core leave HELD. -/
def State.releaseQueues (s : State) (c : Nat) : State :=
  (List.range 64).foldl (fun s j =>
    if s.qState (64 * c + j) = qHeld then s.restQueue (64 * c + j) else s) s

/-! ### Doorbells and ring configuration -/

/-- R377: a doorbell write of TAIL. -/
def State.writeTail (s : State) (q v : Nat) : State :=
  let n := s.ringSize q
  let new := (v + n - s.qHead q) % n
  if n ≤ v ∨ new < s.ringCount q then (s.bump F.hifDbIgnored_count []).put F.hifStatus_dbIgnored [] 1
  else
    let s := { s with posted := tset 0 s.posted q (tget 0 s.posted q + (new - s.ringCount q)) }
    let s := s.put F.qPtr_tail (qx q) v
    if s.qState q = qIdle ∧ s.ringCount q ≠ 0 then s.setQState q qPending else s

def State.writeCqHead (s : State) (q v : Nat) : State := s.put F.qCqHead_cqHead (qx q) v

/-- R375: Q_RING_CFG, Q_RING_BASE and Q_CQ_BASE are writable only while the queue is DISABLED and not enabled. -/
def State.ringWritable (s : State) (q : Nat) : Bool :=
  s.get F.qSched_enable (qx q) == 0 && s.qState q == qDisabled

def State.ctrlIgnored (s : State) (c : Nat) : State := s.bump F.coreCtrlIgnored_count [c]

def State.writeRingCfg (s : State) (q v : Nat) : State :=
  if s.ringWritable q then
    { s.puts [(F.qRingCfg_log2Size, qx q, bits v 0 5), (F.qRingCfg_cqLog2Size, qx q, bits v 8 5),
        (F.qPtr_head, qx q, 0), (F.qPtr_tail, qx q, 0), (F.qPtr_cqTail, qx q, 0), (F.qPtr_phase, qx q, 1),
        (F.qCqHead_cqHead, qx q, 0)]
      with posted := tset 0 s.posted q (tget 0 s.finals q) }
  else s.ctrlIgnored (q / 64)

/-- R89, R105: a write of Q_SCHED. -/
def State.writeSched (s : State) (q v : Nat) : State :=
  let was := s.get F.qSched_enable (qx q)
  let s := s.puts [(F.qSched_enable, qx q, bits v 0 1), (F.qSched_priority, qx q, bits v 1 2),
    (F.qSched_tc, qx q, bits v 3 3), (F.qSched_splCompat, qx q, bits v 6 1)]
  let st := s.qState q
  if was = 0 ∧ v % 2 = 1 then (if st = qDisabled then s.restQueue q else s)
  else if v % 2 = 0 ∧ (st = qIdle ∨ st = qPending) then { s.setQState q qDisabled with hostWait := nsDel s.hostWait q }
  else s

/-! ### Completion records -/

/-- A record's 32 bytes (R379). -/
def recordBytes (tag : Nat) (q : Nat) (r : CqRec) (phase : Nat) : List Byte :=
  leBytes 8 tag ++ leBytes 4 r.epoch ++ leBytes 2 q ++ leBytes 1 r.status ++ leBytes 1 r.aflags ++
  leBytes 6 r.detail ++ leBytes 2 (phase + (if r.final then 4 else 2)) ++ leBytes 8 r.pc

/-- R382: the message of a record that is performed. -/
def State.recordIrq (s : State) (q : Nat) (flags : Nat) (r : CqRec) : State :=
  if !s.flag F.qIrq_en (qx q) || !(!r.final || bit flags 1 || r.status != 0) then s
  else if s.get F.qIrq_holdoffUs (qx q) = 0 then s.msix (s.get F.qIrq_vector (qx q))
  else if tget 0 s.holdoff q = 0 then
    { s.msix (s.get F.qIrq_vector (qx q)) with holdoff := tset 0 s.holdoff q 1 }
  else { s with holdoff := tset 0 s.holdoff q 2 }

/-- R382: a hold-off ends: the message that covers its records goes out and begins the next. -/
def State.holdoffEnds (s : State) (q : Nat) : State :=
  if tget 0 s.holdoff q = 2 then
    { s.msix (s.get F.qIrq_vector (qx q)) with holdoff := tset 0 s.holdoff q 1 }
  else { s with holdoff := tset 0 s.holdoff q 0 }

/-- R381: the pointers after a record: CQ_TAIL advances, PHASE inverts at the wrap. -/
def State.advanceCq (s : State) (q : Nat) : State :=
  let t := (s.get F.qPtr_cqTail (qx q) + 1) % s.cqSize q
  let s := s.put F.qPtr_cqTail (qx q) t
  if t = 0 then s.put F.qPtr_phase (qx q) (1 - s.get F.qPtr_phase (qx q)) else s

/-- A command's slot is freed; the queue goes on (R89). -/
def State.freeSlot (s : State) (c k q : Nat) : State := (s.setSlot c k none).restQueue q

/-- What a written record brings about: the stop of the queue, or the end of the command (R87, R380). -/
def State.recordWritten (s : State) (c k : Nat) (sl : Slot) (r : CqRec) : State :=
  let q := sl.queue
  let s := (s.recordIrq q sl.flags r).advanceCq q
  if r.final then
    let s := s.put F.qPtr_head (qx q) ((s.qHead q + 1) % s.ringSize q)
    let s := { s with finals := tset 0 s.finals q (tget 0 s.finals q + 1) }
    let s := if r.status = 1 ∨ r.status = 2 then s.bump F.qDiscards_discarded (qx q)
      else if r.status = 3 then s.bump F.qDiscards_stale (qx q) else s
    s.freeSlot c k q
  else
    (s.setSlot c k (some { sl with phase := .stopped, cq := none })).setQState q qStopped

/-- A record goes out, or waits: for ring space (R381), for the host link (R378), or at a channel that holds it. -/
def State.emitRecord (s : State) (c k : Nat) (r : CqRec) : State :=
  match s.slot c k with
  | none => s
  | some sl =>
    let q := sl.queue
    let n := s.cqSize q
    let t := s.get F.qPtr_cqTail (qx q)
    if (t + 1) % n = s.get F.qCqHead_cqHead (qx q) then
      let s := if r.waited then s else (s.bump F.hifCqWaits_count []).put F.hifStatus_cqWait [] 1
      s.setSlot c k (some { sl with cq := some { r with waited := true } })
    else
      let addr := s.get F.qCqBase_base (qx q) * 32 + 32 * t
      let x := s.storeAccess (mCore c) sl.tc addr (.wr (recordBytes sl.tag q r (s.get F.qPtr_phase (qx q))))
      let waits (s : State) : State := s.setSlot c k (some { sl with cq := some r })
      match x.2 with
      | .hold => waits s
      | .fail _ =>
        (match s.target addr with
        | .host _ => if s.flag F.hifLink_up then x.1.recordWritten c k sl r else waits (x.1.put F.hifStatus_hostWait [] 1)
        | _ => x.1.recordWritten c k sl r)
      | _ => x.1.recordWritten c k sl r

/-- The final record of a command that leaves its slot for a reason other than END. -/
def State.finalRecord (s : State) (c k status : Nat) : State :=
  match s.slot c k with
  | none => s
  | some sl =>
    let s := s.setSlot c k (some { sl with phase := .recording })
    s.emitRecord c k { status := status, final := true, epoch := sl.epoch, aflags := sl.aflags.toNat }

/-! ### The start of a command -/

/-- The header checks of R82 in their order: the status of the first that fails. -/
def State.headerCheck (s : State) (hdr : Nat) (b : List Byte) : Option Nat :=
  let f (o n : Nat) : Nat := leOf ((b.drop o).take n)
  let entry := f 8 4
  let codeBytes := f 0xC 4
  let level := f 4 1
  if hdr % 64 ≠ 0 ∨ f 0 4 ≠ 0x4D4C5047 ∨ f 5 1 ≠ 1 ∨ f 6 2 ≠ 0 ∨ f 0x18 4 ≠ 0 then some 0x08
  else if f 0x1C 4 ≠ crc32 (b.take 28) then some 0x08
  else if level = 0 then some 0x08
  else if 4 ≤ level then some 0x09
  else if entry % 8 ≠ 0 ∨ entry < 0x20 ∨ codeBytes % 8 ≠ 0 ∨ codeBytes ≤ entry then some 0x08
  else if Nat.land (f 0x10 8) (s.get F.bxCapRunning_word [1]) ≠ f 0x10 8 then some 0x0A
  else none

/-- A stop found at issue, with its Q_STOP_PC (R99). -/
def stopAt (d : Detail) (pc seq : Nat) : StopRec := { detail := { d with pc := pc }, seq := seq, entry := none }

/-- R82: the header of a slot's command is read and checked: the context it gives, or a stop at the header. A status that
names data rather than an address stops the command too (DEDUCED from R378's check 1). -/
def State.checkHeader (s : State) (c k : Nat) : State :=
  match s.slot c k with
  | none => s
  | some sl =>
    let x := s.storeAccess (mCore c) sl.tc sl.hdr (.rd 32)
    let stop (s : State) (status : Nat) : State :=
      let r := stopAt { status := status } sl.hdr sl.seq
      s.setSlot c k (some { sl with phase := .stopping, pc := sl.hdr, stop := some r })
    match x.2 with
    | .ok b =>
      (match s.headerCheck sl.hdr b with
      | some st => stop x.1 st
      | none =>
        let f (o n : Nat) : Nat := leOf ((b.drop o).take n)
        let lo := sl.hdr + f 8 4
        let hi := sl.hdr + f 0xC 4
        x.1.setSlot c k (some
          { sl with phase := .issuing, pc := lo % 2 ^ 64, level := f 4 1, codeLo := lo, codeHi := hi }))
    | .fail st => stop x.1 st
    | .hold | .cxl => s

/-- A slot as a command's start sets it (R78), from its descriptor. -/
def State.freshSlot (s : State) (q : Nat) (b : List Byte) : Slot :=
  let f (o n : Nat) : Nat := leOf ((b.drop o).take n)
  let regs := (List.range 4).foldl (fun t i => tset 0#64 t (1 + i) (BitVec.ofNat 64 (f (0x18 + 8 * i) 8))) []
  { queue := q, sregs := regs, epoch := s.get F.qEpoch_epoch (qx q), hdr := f 0x10 8
    prio := s.get F.qSched_priority (qx q), tc := s.get F.qSched_tc (qx q), compat := s.flag F.qSched_splCompat (qx q)
    tag := f 8 8, flags := f 0 4 }

/-- R378: the descriptor's own checks: DESC_INVALID 0x04, STALE_EPOCH 0x03. -/
def State.descCheck (s : State) (q : Nat) (b : List Byte) : Option Nat :=
  let f (o n : Nat) : Nat := leOf ((b.drop o).take n)
  let check := bit (f 0 4) 0
  if 4 ≤ f 0 4 ∨ f 0x38 8 ≠ 0 ∨ (!check ∧ f 4 4 ≠ 0) then some 0x04
  else if check ∧ f 4 4 ≠ s.get F.qEpoch_epoch (qx q) then some 0x03
  else none

/-- R88, R378: the command at HEAD of queue `q` starts in slot `k`: its descriptor is read and checked, then its header. A
descriptor that fails leaves only its final record to write. -/
def State.startCommand (s : State) (c k q : Nat) : State :=
  let addr := s.get F.qRingBase_base (qx q) * 64 + 64 * s.qHead q
  let x := s.storeAccess (mCore c) (s.get F.qSched_tc (qx q)) addr (.rd 64)
  let last (s : State) : State :=
    s.modCore c (fun y => { y with lastStarted := tset 0 y.lastStarted (s.get F.qSched_priority (qx q)) (q % 64 + 1) })
  let refuse (s : State) (b : List Byte) (status : Nat) : State :=
    let sl := s.freshSlot q b
    let r : CqRec := { status := status, final := true, epoch := sl.epoch }
    (((last s).setSlot c k (some { sl with phase := .recording, cq := some r })).setQState q qRunning).put F.qState_slot (qx q) k
  match x.2 with
  | .ok b =>
    (match s.descCheck q b with
    | some st => refuse x.1 b st
    | none => ((((last x.1).setSlot c k (some (s.freshSlot q b))).setQState q qRunning).put F.qState_slot (qx q) k).checkHeader
        c k)
  | .fail st =>
    (match s.target addr with
    | .host _ => if s.flag F.hifLink_up then refuse x.1 [] st
      else { x.1.put F.hifStatus_hostWait [] 1 with hostWait := nsIns x.1.hostWait q }
    | _ => refuse x.1 [] st)
  | .hold | .cxl => s

end Sys2Proof.Machine
end

