-- ==== Sys2Proof/Machine/Sync.lean ====
section
/-! DEFINITION. Semaphores and event flags of a core: signals, grants in the order of issue, and waits that are given up
(R90 to R95), with the sums that the audit keeps (R425). -/

namespace Sys2Proof.Machine

/-- A grant: the slot's wait is satisfied (R90). -/
def State.granted (s : State) (c k : Nat) : State := s.modSlot c k (fun sl => { sl with granted := true })

/-- A wait of n granted: n leaves the value in the same operation (R92). -/
def State.takeSem (s : State) (c i n : Nat) : State :=
  let v := s.get F.semValue_value [c, i]
  (s.put F.semValue_value [c, i] (v - n)).modCore c (fun x => { x with semOut := (x.semOut + n) % 2 ^ 64 })

/-- R93: the waits on a semaphore in the order issued: a wait that cannot be granted blocks those behind it. -/
def grantSems (c i : Nat) : List Nat → State → State
  | [], s => s.modCore c (fun x => { x with semQ := tset [] x.semQ i [] })
  | k :: t, s =>
    match (s.slot c k).bind Slot.wait with
    | some (.sem j n) =>
      if j ≠ i then grantSems c i t s
      else if n ≤ s.get F.semValue_value [c, i] then grantSems c i t ((s.takeSem c i n).granted c k)
      else s.modCore c (fun x => { x with semQ := tset [] x.semQ i (k :: t) })
    | _ => grantSems c i t s

def State.grantSem (s : State) (c i : Nat) : State := grantSems c i (tget [] (s.core c).semQ i) s

/-- R92, R94: a signal of n: added, or discarded and counted where it would carry the value above 0xFFFF_FFFF. -/
def State.signal (s : State) (c i n : Nat) : State :=
  let v := s.get F.semValue_value [c, i]
  if 2 ^ 32 ≤ v + n then (s.bump F.semOverflowCount_count [c]).put F.coreStatus_semOvf [c] 1
  else
    ((s.put F.semValue_value [c, i] (v + n)).modCore c (fun x => { x with semIn := (x.semIn + n) % 2 ^ 64 })).grantSem c i

/-- R92, R425: a write of SEM_VALUE sets the value, counted as an increase or a decrease; waits are then granted (R105). -/
def State.setSem (s : State) (c i n : Nat) : State :=
  let v := s.get F.semValue_value [c, i]
  let s := s.put F.semValue_value [c, i] n
  (s.modCore c (fun x =>
    { x with semIn := (x.semIn + (n - v)) % 2 ^ 64
             semOut := (x.semOut + (v - n)) % 2 ^ 64 })).grantSem c i

/-- Event flag `i` of a core. -/
def State.event (s : State) (c i : Nat) : Bool := bit (s.get F.evSet_flags [c]) i
def State.putEvent (s : State) (c i : Nat) (v : Bool) : State :=
  s.put F.evSet_flags [c] (putBits (s.get F.evSet_flags [c]) i 1 (if v then 1 else 0))

/-- R95: a flag is set; the first wait on it is granted, which clears it in the same operation. -/
def State.setEvent (s : State) (c i : Nat) : State :=
  let s := s.putEvent c i true
  match tget [] (s.core c).evQ i with
  | [] => s
  | k :: t => ((s.modCore c (fun x => { x with evQ := tset [] x.evQ i t })).putEvent c i false).granted c k

/-- A write of EV_SET: every flag whose bit is 1. -/
def State.setEvents (s : State) (c mask : Nat) : State :=
  (List.range 64).foldl (fun s i => if bit mask i then s.setEvent c i else s) s

/-- A write of EV_CLR (R105). -/
def State.clearEvents (s : State) (c mask : Nat) : State :=
  (List.range 64).foldl (fun s i => if bit mask i then s.putEvent c i false else s) s

/-- The wait of slot `k` is given up, before it is granted: later waits that it blocked may then be granted (R93). -/
def State.unwait (s : State) (c k : Nat) : State :=
  match s.slot c k with
  | none => s
  | some sl =>
    let s' := s.setSlot c k (some { sl with wait := none, granted := false })
    match sl.wait with
    | some (.sem i _) =>
      (s'.modCore c (fun x => { x with semQ := tset [] x.semQ i ((tget [] x.semQ i).filter (fun j => j != k)) })).grantSem c i
    | some (.ev i) =>
      s'.modCore c (fun x => { x with evQ := tset [] x.evQ i ((tget [] x.evQ i).filter (fun j => j != k)) })
    | _ => s'

/-- A slot's wait is satisfied: granted, or a tick that the count has reached (R90, R235). -/
def State.ready (s : State) (sl : Slot) : Bool :=
  match sl.wait with
  | some (.tick n) => decide (n ≤ s.get F.cadCount_count)
  | some _ => sl.granted
  | none => true

end Sys2Proof.Machine
end

