-- ==== Sys2Proof/Machine/DmaQueue.lean ====
section
/-! DEFINITION. The queues of the DMA engines (R250, R253) and the handover of scratchpad banks (R247). -/

namespace Sys2Proof.Machine

/-! States of class 0x06 (R97). -/
def dmaIdle : Nat := 0
def dmaActive : Nat := 1
def dmaStopped : Nat := 2
def dmaFaulted : Nat := 3

def State.dmaState (s : State) (c e : Nat) : Nat := s.get F.dmaStatus_state [c, e]

/-- The engine's descriptor is read and not yet completed. -/
def DmaEng.loaded (x : DmaEng) : Bool := x.image != 0 || x.code.isSome

/-- An engine between descriptors: what it ran is put away. -/
def DmaEng.put (x : DmaEng) : DmaEng := { queue := x.queue }

/-- Capacity of an engine's descriptor queue (R250). -/
def dmaCap : Nat := 16

def State.spadIgnored (s : State) (c : Nat) : State := s.bump F.spadIgnored_count [c]

/-- R250, R253, R255: a write of DMA_SUBMIT; only a 64-bit write acts. -/
def State.dmaSubmit (s : State) (c e v : Nat) (wide : Bool) : State :=
  let st := s.dmaState c e
  let x := s.eng c e
  if !wide || st == dmaStopped || st == dmaFaulted || decide (dmaCap ≤ x.queue.length) then s.spadIgnored c
  else s.setEng c e { x with queue := x.queue ++ [{ addr := v / 64 * 64, tc := v % 8, owner := none, event := none }] }

/-- R253: RESTART returns a STOPPED engine to ACTIVE with its next queued descriptor; with none queued it is IDLE. -/
def State.dmaRestart (s : State) (c e : Nat) : State :=
  if s.dmaState c e = dmaStopped then
    s.put F.dmaStatus_state [c, e] (if (s.eng c e).queue.isEmpty then dmaIdle else dmaActive)
  else s

/-- The event of a chain that has ended (R252). -/
def State.chainEvent (s : State) (c : Nat) (r : DmaReq) : State :=
  match r.event with
  | some i => s.setEvent c i
  | none => s

/-- R252, R253: FLUSH: every queued descriptor goes, its event set; the one that runs completes and ends its chain. A FAULTED
engine stays FAULTED until its core returns. -/
def State.dmaFlush (s : State) (c e : Nat) : State :=
  let x := s.eng c e
  let s := x.queue.foldl (fun s r => s.chainEvent c r) s
  if x.loaded then s.setEng c e { x with queue := [], flush := true }
  else
    let s := match x.req with
      | some r => s.chainEvent c r
      | none => s
    let s := s.setEng c e {}
    if s.dmaState c e = dmaFaulted then s else s.put F.dmaStatus_state [c, e] dmaIdle

/-- A write of DMA_CONTROL: with both bits set, FLUSH acts (R255). -/
def State.dmaControl (s : State) (c e v : Nat) : State :=
  if bit v 1 then s.dmaFlush c e else if bit v 0 then s.dmaRestart c e else s

/-- The descriptors that a test accepts by their owner leave an engine: those queued, and the one that runs with ABORTED
(R254's discard). A chain between two descriptors ends there. -/
def State.dmaAbort (s : State) (c e : Nat) (p : Option UEntry → Bool) : State :=
  let x := s.eng c e
  let x := { x with queue := x.queue.filter (fun r => !p r.owner) }
  match x.req with
  | none => s.setEng c e x
  | some r =>
    if !p r.owner then s.setEng c e x
    else if x.loaded then s.setEng c e { x with code := some (x.code.getD 1) }
    else
      let s := s.setEng c e x.put
      if x.queue.isEmpty ∧ s.dmaState c e = dmaActive then s.put F.dmaStatus_state [c, e] dmaIdle else s

/-- A core fault removes every descriptor; an engine that was not FAULTED is IDLE after it (R253). -/
def State.dmaClear (s : State) (c e : Nat) : State :=
  let s := s.dmaAbort c e (fun _ => true)
  let st := s.dmaState c e
  if st = dmaFaulted ∨ (st = dmaActive ∧ (s.eng c e).loaded) then s else s.put F.dmaStatus_state [c, e] dmaIdle

/-! ### Handover -/

/-- R247: a write of SPAD_HANDOVER. A bank in HANDOVER is ignored and counted; the DMA bit of one names where it came from. -/
def State.handover (s : State) (c mask : Nat) (target : Bool) : State :=
  (List.range 32).foldl (fun s b =>
    if !bit mask b then s
    else
      let hand := s.get F.spadOwner_handover [c]
      if bit hand b then s.spadIgnored c
      else if bit (s.get F.spadOwner_dma [c]) b == target then s
      else s.put F.spadOwner_handover [c] (putBits hand b 1 1)) s

/-- A bank's handover ends: it has its new owner. -/
def State.handoverEnds (s : State) (c b : Nat) : State :=
  let dma := s.get F.spadOwner_dma [c]
  let hand := s.get F.spadOwner_handover [c]
  if !bit hand b then s else s.puts [(F.spadOwner_handover, [c], putBits hand b 1 0),
    (F.spadOwner_dma, [c], putBits dma b 1 (if bit dma b then 0 else 1))]

end Sys2Proof.Machine
end

