-- ==== Sys2Proof/Machine/NbRuns.lean ====
section
/-! DEFINITION. Channel modes (R198, R199) and the start and the end of near-bank runs (R187, R203, R207). -/

namespace Sys2Proof.Machine

/-- End codes of R203. -/
def nbOk : Nat := 0
def nbAborted : Nat := 1
def nbDataError : Nat := 2
def nbFault : Nat := 3
def nbIndexRange : Nat := 7

/-- R199: a request in a channel that is not SWITCHING: none where the table does not allow it. -/
def State.requestMode (s : State) (c n req : Nat) : Option State :=
  let cur := s.chanMode c n
  if req = cur then some s
  else if (cur = modeMemory ∧ (req = modeProcessor ∨ req = modeShared)) ∨ (req = modeMemory ∧ cur ≠ modeSwitching) then
    some (s.puts [(F.nbMode_state, [c, n], modeSwitching), (F.nbMode_target, [c, n], req)])
  else none

def State.nbIgnored (s : State) (c n : Nat) : State := s.bump F.nbIgnored_count [c, n]

/-- A write of NB_MODE.REQ: ignored and counted while SWITCHING, or where the table does not allow it (R199, R209). -/
def State.writeMode (s : State) (c n req : Nat) : State :=
  if s.chanMode c n = modeSwitching then s.nbIgnored c n
  else (s.requestMode c n req).getD (s.nbIgnored c n)

/-- What SWITCHING waits for has come about (R199). -/
def State.switchReady (s : State) (c n : Nat) : Bool :=
  if s.get F.nbMode_target [c, n] = modeMemory then (s.run c n).isNone && (s.nextRun c n).isNone
  else (s.chan c n).holder.isNone

def State.switched (s : State) (c n : Nat) : State :=
  if s.chanMode c n = modeSwitching ∧ s.switchReady c n then s.put F.nbMode_state [c, n] (s.get F.nbMode_target [c, n]) else s

/-- A channel set back to MEMORY: through SWITCHING (R207). -/
def State.backToMemory (s : State) (c n : Nat) : State :=
  if s.chanMode c n = modeMemory then s
  else s.puts [(F.nbMode_state, [c, n], modeSwitching), (F.nbMode_target, [c, n], modeMemory)]

/-- A run enters the run slot. -/
def State.startRun (s : State) (c n : Nat) (r : NbRun) : State :=
  (s.setRun c n (some r)).puts [(F.nbStatus_running, [c, n], 1), (F.nbStatus_step, [c, n], r.start)]

/-- R203: the end of the run in the run slot with a code, in the order of its actions; its flags join its command's (R70); the run in the next slot starts, or
after a code other than OK ends ABORTED in turn. -/
def State.endRun (s : State) (c n : Nat) (r : NbRun) (code : Nat) : State :=
  let s := s.puts [(F.nbStatus_code, [c, n], code), (F.nbStatus_step, [c, n], r.step), (F.nbStatus_running, [c, n], 0),
    (F.nbStatus_done, [c, n], 1),
    (F.nbDoneSummary_done, [c], putBits (s.get F.nbDoneSummary_done [c]) n 1 1)]
  let s := (s.setRun c n none).setEvent c r.event
  let s := s.modSlot c r.slot.val (fun sl => { sl with aflags := sl.aflags ||| r.aflags })
  match s.nextRun c n with
  | none => s
  | some t => (s.setNextRun c n none).startRun c n (if code = nbOk then t else { t with code := some nbAborted })

/-- A run that is to end with a code: it sends no further write (R203). -/
def NbRun.failed (r : NbRun) (code : Nat) : NbRun := { r with code := some (r.code.getD code), writes := [], aflags := if code = nbAborted then 0#8 else r.aflags }

/-- R207: the runs of a channel that a test accepts by slot end with ABORTED, with them the run behind, and the channel goes
back to MEMORY. -/
def State.abortRuns (s : State) (c n : Nat) (p : Nat → Bool) : State :=
  let mine (r : Option NbRun) : Bool :=
    match r with
    | some r => p r.slot.val
    | none => false
  let a := mine (s.run c n)
  let b := a || mine (s.nextRun c n)
  let s := if a then s.setRun c n ((s.run c n).map (·.failed nbAborted)) else s
  let s := if b then s.setNextRun c n ((s.nextRun c n).map (·.failed nbAborted)) else s
  if a || b then s.backToMemory c n else s

/-- The channel is set OFFLINE: its runs end ABORTED, and it leaves OFFLINE in MEMORY mode. -/
def State.offlineRuns (s : State) (c n : Nat) : State :=
  let one (s : State) : State :=
    match s.run c n with
    | some r => s.endRun c n { r with writes := [] } nbAborted
    | none => s
  (one (one s)).puts [(F.nbMode_state, [c, n], modeMemory), (F.nbMode_target, [c, n], modeMemory)]

end Sys2Proof.Machine
end

