-- ==== Sys2Proof/Machine/CollEnd.lean ====
section
/-! DEFINITION. Signals to any address, with the conserved messages among them (R92, R424), and the end of a collective
(R346). -/

namespace Sys2Proof.Machine

/-- A posted write: performed, or kept where it is held; a failure is captured (R47) and otherwise lost. -/
def State.postWrite (s : State) (m tc addr : Nat) (bs : List Byte) : State :=
  let x := s.storeAccess m tc addr (.wr bs)
  match x.2 with
  | .hold => s.parkAccess m tc addr (.wr bs) .nobody
  | _ => x.1

/-! ### Signals -/

def State.consOf (s : State) (d : Nat) : Cons := tget {} s.cons d
def State.setCons (s : State) (d : Nat) (x : Cons) : State := { s with cons := tset {} s.cons d x }

/-- Entries of a die's buffer of conserved messages (R424). -/
def consCap : Nat := 256

/-- A conserved message sent: it stays in its die's buffer until it is acknowledged. -/
def State.conserve (s : State) (d chip addr n : Nat) : State :=
  let x := s.consOf d
  s.setCons d { x with buffer := x.buffer ++ [{ num := x.sent, chip := chip, addr := addr, n := n }], sent := x.sent + 1 }

/-- The semaphore of a SEM_SIGNAL register's offset. -/
def semAt (o : Nat) : Option (Nat × Nat) :=
  match regAt o with
  | some (.semSignal, [c, i], 0) => some (c, i)
  | _ => none

/-- A die takes conserved messages: in service and reachable from the source's die. -/
def State.dieTakes (s : State) (a b : Nat) : Bool := !s.dieInReset b && s.dieSt b != stFailed && s.dieReach a b == 0

/-- R92, R424: a signal of n by a J20 master, at a global address. On the master's own die it is performed at once; across a
Bennex link it is a conserved message, acknowledged at once where the die is reached; across Golfort it is acknowledged by
the peer. `other` performs the write at an address of anything else. -/
def State.signalTo (s : State) (m tc addr n : Nat) (other : State → State × Ans) : State × Ans :=
  let d := masterDie m
  match s.target addr with
  | .reg o =>
    (match semAt o with
    | none => other s
    | some (c, i) =>
      if c / 16 = d then (if s.regServed m o then (s.signal c i n, .ok []) else other s)
      else if consCap ≤ (s.consOf d).buffer.length then (s, .hold)
      else if s.dieTakes d (c / 16) then
        let x := s.consOf d
        ((s.setCons d { x with sent := x.sent + 1, acked := x.acked + 1 }).signal c i n, .ok [])
      else (s.conserve d (s.get F.glbChipId_id) addr n, .ok []))
  | .peer chip =>
    if s.route chip = none then (s.addrError stNoRoute m true addr, .fail stNoRoute)
    else if consCap ≤ (s.consOf d).buffer.length then (s, .hold)
    else
      let num := (s.consOf d).sent
      let s := s.conserve d chip addr n
      ((s.sendRequest 2 addr 4 d tc m (leBytes 4 n) (.cons d num)).1, .ok [])
  | _ => other s

/-- A signal at the end of unit work: one that its buffer holds back is lost to no one, since it is conserved there: the
buffer then takes it beyond its size (DESIGN CHOICE). -/
def State.unitSignal (s : State) (m tc addr : Nat) : State :=
  let x := s.signalTo m tc addr 1 (fun s => (s.postWrite m tc addr (leBytes 4 1), .ok []))
  match x.2 with
  | .hold => s.conserve (masterDie m) (chipOf addr) addr 1
  | _ => x.1

/-! ### The end of a collective -/

/-! Codes of R346. -/
def ccOk : Nat := 0
def ccAborted : Nat := 1
def ccDescInvalid : Nat := 2
def ccMemberLost : Nat := 3
def ccSlipLimit : Nat := 4
def ccFormTimeout : Nat := 5
def ccNoCadence : Nat := 6
def ccAnchor : Nat := 7
def ccMemData : Nat := 8
def ccAddr : Nat := 9
def ccAtom : Nat := 0xC
def ccNoEntry : Nat := 0xD
def ccMemberFailed : Nat := 0xE

/-- The code of a failed access (R346). -/
def ccOf (status : Nat) : Nat :=
  if status = stUnusable then 9 else if status = stAddrOffline then 10 else if status = stNoRoute then 11
  else if status = stAtomInvalid then ccAtom else ccMemData

/-- R346: the running collective of entry `i` of engine `d` ends with a code: STATUS with DONE, the signal, the event, in that
order; its flags join its command's (R70); a member that fails of itself sends a FAIL word. The group is FORMED. -/
def State.endColl (s : State) (d i code : Nat) : State :=
  match tget none s.groups (64 * d + i) with
  | none => s
  | some g =>
    match g.run with
    | none => s
    | some r =>
      let num := s.get F.collEntry_group [d, i]
      let s := (s.setGroup d i (some { g with run := none })).puts
        [(F.collEntry_state, [d, i], grFormed), (F.collEntryTick_next, [d, i], 0)]
      let s := s.modSlot r.core r.slot (fun sl => { sl with aflags := sl.aflags ||| r.aflags })
      let s := s.postWrite (mColl d) r.tc (r.addr + 0x38) (leBytes 4 (0x100 + code))
      let s := if r.sigAddr = 0 then s else s.unitSignal (mColl d) r.tc r.sigAddr
      let s := match r.event with
        | some e => s.setEvent r.core e
        | none => s
      if code = ccOk then s.bump F.collRuns_count [d]
      else
        let s := (s.bump F.collFails_count [d]).puts [(F.collLastFail_group, [d], num), (F.collLastFail_code, [d], code)]
        if code = ccMemberFailed ∨ code = ccMemberLost then s else s.spreadWord 2 num code g.hops none

/-- The entries whose collective a test accepts by the core and slot of its CRUN. -/
def State.collsOf (s : State) (p : Nat → Nat → Bool) : List Nat :=
  s.groups.filterMap (fun e =>
    match e.2.bind Group.run with
    | some r => if p r.core r.slot then some e.1 else none
    | none => none)

/-- Collectives ended ABORTED by a discard, a cancellation or a core fault (R346). -/
def State.abortColls (s : State) (p : Nat → Nat → Bool) : State :=
  (s.collsOf p).foldl (fun s e => s.endColl (e / 64) (e % 64) ccAborted) s

end Sys2Proof.Machine
end

