-- ==== Sys2Proof/Machine/Discard.lean ====
section
/-! DEFINITION. Discards (R102, R103, R415 to R417), CANCEL and RESUME (R100): the work of a command leaves the units, its
epoch advances, its final record is written. -/

namespace Sys2Proof.Machine

/-- A unit that a discard frees is IDLE; a FAULTED one stays FAULTED. -/
def State.unitIdle (s : State) (c : Nat) (u : UnitId) : State :=
  let free (f : Fld) : State := if s.get f [c] = 3 then s else s.put f [c] 0
  match u with
  | .matrix => free F.mxaStatus_state
  | .vector => free F.vsuStatus_vecState
  | .rowstat => free F.vsuStatus_rstState
  | .attention => free F.attStatus_state
  | _ => s

/-- Whether an access waits for the command in slot `k`. -/
def Waiter.isSlot (w : Waiter) (c k : Nat) : Bool :=
  match w with
  | .core c' k' _ => c' == c && k' == k
  | _ => false

/-- The accesses that wait for a slot are given up; one that holds its channel completes for nobody. -/
def State.dropAccesses (s : State) (c k : Nat) : State :=
  let keep (q : ChanReq) : Bool := !q.who.isSlot c k
  let who (w : Waiter) : Waiter := if w.isSlot c k then .nobody else w
  let t : State := { s with
    chans := s.chans.map (fun e => (e.1,
      { e.2 with pend := e.2.pend.filter keep
                 net := e.2.net.filter keep
                 holder := e.2.holder.map (fun h => { h with req := { h.req with who := who h.req.who } })
                 adder := e.2.adder.map (fun a => { a with who := who a.who }) }))
    heldAcc := s.heldAcc.filter (fun a => !a.who.isSlot c k)
    txns := s.txns.map (fun t => { t with who := who t.who }) }
  match s.slot c k with
  | some sl => t.regulated (mCore c) sl.tc
  | none => t

/-- The chains of a slot on its core's engines. -/
def ownedBy (k : Nat) (o : Option UEntry) : Bool :=
  match o with
  | some e => e.slot.val == k
  | none => false

/-- R415: the unit work that the command in slot `k` has in flight ends. -/
def State.dropWork (s : State) (c k : Nat) : State :=
  let s := s.unwait c k
  let x := s.core c
  let mine (e : UEntry) : Bool := e.slot.val == k
  -- a user bank whose load is discarded is SHADOW_EMPTY (R142)
  let banks := x.loading.filterMap (fun e =>
    match e.instr with
    | .spld _ t b _ => if mine e then some (2 * t.val + b.val) else none
    | _ => none)
  let units := UnitId.all.filter (fun u => match x.runs u with | some r => mine r.entry | none => false)
  let x := { x with
    uq := UnitId.all.foldl (fun t u => tset [] t u.code ((tget [] t u.code).filter (fun e => !mine e))) x.uq
    loading := x.loading.filter (fun e => !mine e)
    nbloads := x.nbloads.filter (fun e => match e.2 with | some v => !mine v | none => true) }
  let x := units.foldl (fun x u => x.setRuns u none) x
  let s := s.setCore c x
  let s := banks.foldl (fun s b => s.setBank c b bankEmpty) s
  let s := units.foldl (fun s u => s.unitIdle c u) s
  let s := (List.range 4).foldl (fun s e => s.dmaAbort c e (ownedBy k)) s
  let s := (List.range 32).foldl (fun s n => s.abortRuns c n (· == k)) s
  (s.abortColls (fun c' k' => c' == c && k' == k)).dropAccesses c k

/-- The slots of a core whose command can still be discarded: its final record is not yet decided (R416, R100). -/
def State.liveSlots (s : State) (c : Nat) : List Nat :=
  (List.range 4).filter (fun k =>
    match s.slot c k with
    | some sl => sl.phase != .recording
    | none => false)

/-- R383: the epoch of the queue of slot `k` advances, and the command's final record carries the one it ran under. -/
def State.endCommand (s : State) (c k status : Nat) : State :=
  match s.slot c k with
  | none => s
  | some sl =>
    let q := sl.queue
    (s.put F.qEpoch_epoch (qx q) ((s.get F.qEpoch_epoch (qx q) + 1) % 2 ^ 32)).finalRecord c k status

/-- R416: commands discarded: their work ends, the record of the event is written, the epochs advance, the final records
follow. `rec` makes the record from the number of commands and the cores that lost one. -/
def State.discard (s : State) (d : Nat) (l : List (Nat × Nat)) (rec : State → Nat → Nat → FltRec) : State :=
  let s := l.foldl (fun s p => s.dropWork p.1 p.2) s
  let cores := ((l.map Prod.fst).eraseDups.map (fun c => 2 ^ c)).sum
  let s := s.fault d (rec s l.length cores)
  l.foldl (fun s p => s.endCommand p.1 p.2 2) s

/-- R102: a core fault of unit class `cls` and mismatch kind `kind`. -/
def State.coreFault (s : State) (c cls kind : Nat) : State :=
  let l := (s.liveSlots c).map (fun k => (c, k))
  let s := (List.range 4).foldl (fun s e => s.dmaClear c e) s
  let s := s.put F.coreStatus_fault [c] 1
  let s := s.discard (c / 16) l (fun s n cores =>
    s.record kCoreFault 2 (offCore c) (cores := cores) (discarded := n) (master := mCore c) (detail := cls + 256 * kind))
  let s := s.mapOffline [offCore c]
  { s with bring := { s.bring with jig := s.bring.jig ++ [{ unit := offCore c, why := .fault }] } }

/-- A discard of one command on an error that its read found (R249, R264): record kind, unit, address and detail. -/
def State.discardOne (s : State) (c k kind unit address detail : Nat) : State :=
  if (s.liveSlots c).contains k then
    s.discard (c / 16) [(c, k)] (fun s n cores =>
      s.record kind 1 unit (cores := cores) (discarded := n) (master := mCore c) (address := address) (detail := detail))
  else s

/-! ### CANCEL and RESUME (R100) -/

/-- The slot of a core that holds queue `q`'s command. -/
def State.slotOf (s : State) (q : Nat) : Option (Nat × Slot) :=
  (List.range 4).findSome? (fun k =>
    match s.slot (q / 64) k with
    | some sl => if sl.queue = q then some (k, sl) else none
    | none => none)

def State.cancelQueue (s : State) (q : Nat) : State :=
  match s.slotOf q with
  | some (k, sl) =>
    if sl.phase = .recording then s.ctrlIgnored (q / 64) else (s.dropWork (q / 64) k).endCommand (q / 64) k 1
  | none => s.ctrlIgnored (q / 64)

/-- RESUME makes a reported stop ready to issue again, in the order in which it stopped; on a queue that is STOPPED and already
resumed it changes nothing. -/
def State.resumeQueue (s : State) (q : Nat) : State :=
  match s.slotOf q with
  | some (k, sl) =>
    if sl.phase = .stopped then s.setSlot (q / 64) k (some { sl with phase := .resumed })
    else if sl.phase = .resumed then s else s.ctrlIgnored (q / 64)
  | none => s.ctrlIgnored (q / 64)

/-- A write of Q_CONTROL: both bits are ignored and counted. -/
def State.writeQControl (s : State) (q v : Nat) : State :=
  if bit v 0 ∧ bit v 1 then s.ctrlIgnored (q / 64)
  else if bit v 0 then s.resumeQueue q
  else if bit v 1 then s.cancelQueue q
  else s

end Sys2Proof.Machine
end

