-- ==== Sys2Proof/Machine/Stops.lean ====
section
/-! DEFINITION. Stops (R99, R240): finding one, what it holds, when it is reported; what of a command has not finished; and the
completion of a load, store or remote signal (R217, R220, R235), which may come later than its issue. -/

namespace Sys2Proof.Machine

/-! ### What has not finished -/

/-- The instructions of slot `k` in the issue queues, in the units, and at the targets of their accesses (R80). -/
def State.inUnits (s : State) (c k : Nat) : List UEntry :=
  let x := s.core c
  let mine (e : UEntry) : Bool := e.slot.val == k
  (UnitId.all.flatMap (fun u => (x.queue u).filter mine ++ (match x.runs u with
    | some r => if mine r.entry then [r.entry] else []
    | none => []))) ++
  x.loading.filter mine ++
  (x.nbloads.filterMap Prod.snd).filter mine ++
  (match s.slot c k with | some sl => sl.waits | none => [])

/-- DMA chains of slot `k` not yet ended, by place in issue order. -/
def State.chainsOf (s : State) (c k : Nat) : List Nat :=
  (List.range 4).flatMap (fun e =>
    let x := s.eng c e
    let own (r : DmaReq) : Option Nat :=
      match r.owner with
      | some v => if v.slot.val = k then some v.seq else none
      | none => none
    x.queue.filterMap own ++ (match x.req with | some r => (own r).toList | none => []))

/-- Near-bank runs of slot `k` not yet ended. -/
def State.runsOf (s : State) (c k : Nat) : List Nat :=
  (List.range 32).flatMap (fun n =>
    let own (r : Option NbRun) : List Nat :=
      match r with
      | some r => if r.slot.val = k then [r.seq] else []
      | none => []
    own (s.run c n) ++ own (s.nextRun c n))

/-- Collectives of slot `k` not yet ended. -/
def State.collSeqs (s : State) (c k : Nat) : List Nat :=
  s.groups.filterMap (fun e =>
    match e.2.bind Group.run with
    | some r => if r.core = c ∧ r.slot = k then some r.seq else none
    | none => none)

/-- Places in issue order of everything of slot `k` that has not finished (R85, R99). -/
def State.unfinished (s : State) (c k : Nat) : List Nat :=
  (s.inUnits c k).map UEntry.seq ++ s.chainsOf c k ++ s.runsOf c k ++ s.collSeqs c k

/-! ### Finding a stop -/

/-- Held instructions in issue order. -/
def insertHeld (e : UEntry) : List UEntry → List UEntry
  | [] => [e]
  | x :: t => if e.seq < x.seq then e :: x :: t else x :: insertHeld e t

/-- The entries of slot `k` later than `seq` leave the issue queues. -/
def CoreSt.takeLater (x : CoreSt) (k seq : Nat) : CoreSt × List UEntry :=
  let later (e : UEntry) : Bool := e.slot.val == k && decide (seq < e.seq)
  ({ x with uq := UnitId.all.foldl (fun t u => tset [] t u.code ((tget [] t u.code).filter (fun e => !later e))) x.uq },
   UnitId.all.flatMap (fun u => (x.queue u).filter later))

/-- R99: a stop is found at place `seq` of slot `k`'s command. An earlier stop stands, and the instruction is held; otherwise
this is the command's stop: an earlier find at a later place is held, or, found at issue, is issued again; later instructions
leave their queues; a wait that is not granted and an END have not taken effect. -/
def State.stopSlot (s : State) (c k : Nat) (d : Detail) (seq : Nat) (e : Option UEntry) : State :=
  match s.slot c k with
  | none => s
  | some sl =>
    let stands : Bool := match sl.stop with
      | some r => decide (r.seq ≤ seq)
      | none => false
    if stands then s.setSlot c k (some { sl with held := e.toList.foldl (fun l e => insertHeld e l) sl.held })
    else
      let back := (sl.phase == .parked && !sl.granted) || sl.phase == .ended
      let s := s.unwait c k
      let x := (s.core c).takeLater k seq
      let s := s.setCore c x.1
      let old := match sl.stop with
        | some r => r.entry.toList
        | none => []
      let sl := { sl with
        wait := none
        granted := false
        pc := if back then sl.pc - 8 else sl.pc
        seq := if back then sl.seq - 1 else sl.seq
        phase := .stopping
        held := (old ++ x.2).foldl (fun l e => insertHeld e l) sl.held
        stop := some { detail := d, seq := seq, entry := e } }
      s.setSlot c k (some sl)

/-- A stop found at issue: the program counter stays at the instruction (R99). -/
def State.stopIssue (s : State) (c k : Nat) (d : Detail) : State :=
  match s.slot c k with
  | some sl => s.stopSlot c k { d with pc := sl.pc } sl.seq none
  | none => s

/-- A stop of an instruction that has left the sequencer. -/
def State.stopEntry (s : State) (c : Nat) (e : UEntry) (d : Detail) : State :=
  s.stopSlot c e.slot.val { d.named e.instr with pc := e.pc } e.seq (some e)

/-! ### Reads that find bad data on the processor path -/

/-- R249, R264, R303: the command whose read found data that cannot be used is discarded. -/
def State.dataDiscard (s : State) (c k status addr : Nat) : State :=
  match s.target addr with
  | .slice c' n off => s.discardOne c k kMemUncorr (offChan c' n) addr off
  | .spad c' off => s.discardOne c k kSpadParity (offCore c') addr (off / 2 ^ 19 + 32 * (off % 2 ^ 19))
  | .far f x => s.discardOne c k kMemUncorr (offPort (8 + f)) addr x
  | _ => s.discardOne c k (if status = stParity then kSpadParity else kMemUncorr) unitPackage addr 0

/-- R249: a unit's read of the byte at local address `l` of this core's scratchpad finds bad parity for good. -/
def State.parityDiscard (s : State) (c k l : Nat) : State :=
  (s.parityFound l (mCore c) false true).dataDiscard c k stParity (selfAddr l)

/-! ### Loads, stores, TDLD, TDST and SEMSIGR -/

/-- The access an instruction makes: its address, what it does there, and the operand number of SA (R217, R220, R235, R240). -/
structure CoreAccess where
  addr : Nat
  op : MemOp
  sa : Nat
  signal : Option Nat := none
  deriving DecidableEq, Repr

/-- R217: the posted additions. -/
def isAdd : Instr → Bool
  | .ataddI32 .. | .ataddI64 .. | .ataddF32 .. | .ataddBf16 .. | .ataddWsf .. => true
  | _ => false

def accessOf (sl : Slot) : Instr → Option CoreAccess
  | .ld8 _ _ sa off | .lds8 _ _ sa off => some { addr := memAddr sl sa off, op := .rd 1, sa := 2 }
  | .ld16 _ _ sa off | .lds16 _ _ sa off => some { addr := memAddr sl sa off, op := .rd 2, sa := 2 }
  | .ld32 _ _ sa off | .lds32 _ _ sa off => some { addr := memAddr sl sa off, op := .rd 4, sa := 2 }
  | .ld64 _ _ sa off => some { addr := memAddr sl sa off, op := .rd 8, sa := 2 }
  | .st8 _ sr sa off => some { addr := memAddr sl sa off, op := .wr (leBytes 1 (sl.s sr).toNat), sa := 2 }
  | .st16 _ sr sa off => some { addr := memAddr sl sa off, op := .wr (leBytes 2 (sl.s sr).toNat), sa := 2 }
  | .st32 _ sr sa off => some { addr := memAddr sl sa off, op := .wr (leBytes 4 (sl.s sr).toNat), sa := 2 }
  | .st64 _ sr sa off => some { addr := memAddr sl sa off, op := .wr (leBytes 8 (sl.s sr).toNat), sa := 2 }
  | .tdld _ _ sa off => some { addr := memAddr sl sa off, op := .rd 64, sa := 2 }
  | .tdst _ td sa off => (sl.image td).map (fun im =>
      { addr := memAddr sl sa off, op := .wr (leBytes 64 im.toNat), sa := 2 })
  | .ataddI32 _ _ sa off | .ataddI64 _ _ sa off | .ataddF32 _ _ sa off | .ataddBf16 _ _ sa off | .ataddWsf _ _ sa off =>
    some { addr := memAddr sl sa off, op := .wr [], sa := 2 }
  | .semsigr _ n sa => some
      { addr := (sl.s sa).toNat, op := .wr (leBytes 4 (SyncN.value sl n)), sa := 4, signal := some (SyncN.value sl n) }
  | _ => none

/-- `n` loaded bytes as a register value. -/
def loadValue (signed : Bool) (bs : List Byte) : Word :=
  if signed then BitVec.ofInt 64 (toSigned (8 * bs.length) (leOf bs)) else BitVec.ofNat 64 (leOf bs)

/-- What a completed read does in the context; a TDLD whose image is not a valid descriptor raises the descriptor exception and
leaves TD (R220). -/
def State.finishRead (s : State) (c : Nat) (e : UEntry) (bs : List Byte) : State :=
  let k := e.slot.val
  match e.instr with
  | .ld8 _ sr .. | .ld16 _ sr .. | .ld32 _ sr .. | .ld64 _ sr .. => s.modSlot c k (·.setS sr (loadValue false bs))
  | .lds8 _ sr .. | .lds16 _ sr .. | .lds32 _ sr .. => s.modSlot c k (·.setS sr (loadValue true bs))
  | .tdld _ td .. =>
    let im : Image := BitVec.ofNat 512 (leOf bs)
    if descValid im then s.modSlot c k (·.setImage td im) else s.stopEntry c e (excDetail xDescriptor 1)
  | _ => s

/-- R217: a posted addition that failed with an address status is held against the command, the earliest of them; one that its
adder refused is only counted. -/
def State.addFails (s : State) (c : Nat) (e : UEntry) (status : Nat) : State :=
  let new : Nat × Nat × Nat × Nat := (e.seq, e.pc, status, ((opcodeOf e.instr).map Prod.snd).getD 0)
  if 0x28 ≤ status then s
  else s.modSlot c e.slot.val (fun sl =>
    { sl with atomFail := match sl.atomFail with
        | some r => if r.1 < e.seq then some r else some new
        | none => some new })

/-- The end of an access of an instruction: its result, an address exception (R238), or a discard (R264). -/
def State.finishAccess (s : State) (c : Nat) (e : UEntry) (addr sa : Nat) (a : Ans) : State :=
  match a with
  | .ok bs => s.finishRead c e bs
  | .fail st => if isAdd e.instr then s.addFails c e st else if 0x28 ≤ st then s.dataDiscard c e.slot.val st addr else s.stopEntry c e (excDetail st sa)
  | .hold | .cxl => s

/-- A waiting access of a slot's instruction ends. -/
def State.accessEnds (s : State) (c k seq : Nat) (a : Ans) : State :=
  match s.slot c k with
  | none => s
  | some sl =>
    match sl.waits.find? (fun e => e.seq == seq) with
    | none => s
    | some e =>
      let s := s.setSlot c k (some { sl with waits := sl.waits.filter (fun e => e.seq != seq) })
      (match accessOf sl e.instr with
      | some x => s.finishAccess c e x.addr x.sa a
      | none => s)

/-! ### Waiters -/

/-- The answer of a waiting access goes to whoever waits. -/
def State.answerTo (s : State) (w : Waiter) (a : Ans) : State :=
  let status := match a with | .fail st => st | _ => 0
  let bytes := match a with | .ok bs => bs | _ => []
  match w with
  | .core c k seq => s.accessEnds c k seq a
  | .peer src txn tc read => s.sendResponse src txn tc read status bytes
  | .cons d n =>
    let x := s.consOf d
    if status = 0 ∧ x.buffer.any (fun m => m.num == n) then
      s.setCons d { x with buffer := x.buffer.filter (fun m => m.num != n), acked := x.acked + 1 }
    else s
  | .answer => { s with out := .answer status bytes :: s.out }
  | .nobody => s

end Sys2Proof.Machine
end

