-- ==== Sys2Proof/Machine/Transfer.lean ====
section
/-! DEFINITION. What a grant of a channel performs (R263, R272, R279), and what becomes of the accesses at a channel that goes out
of service (R45). -/

namespace Sys2Proof.Machine

/-- Lanes that a burst finds in error. -/
def State.burstErrs (s : State) (c n off : Nat) (errs : List (Fin 144)) : State :=
  if errs.isEmpty then s else s.addErrs c n off (errs.map Fin.val)

/-- A served request leaves the channel, its row open (R257), and its master is answered. -/
def State.served (s : State) (c n : Nat) (q : ChanReq) (a : Ans) : State :=
  ((s.modChan c n (fun x => { x with
    holder := none
    openRow := tset 0 x.openRow (bankOf q.off) (rowOf q.off + 1) })).regulated q.master q.tc).answerTo q.who a

/-- A transfer performed: the bytes of a request of at most one codeword. -/
def State.transferred (s : State) (c n : Nat) (q : ChanReq) (errs : List (Fin 144)) : State :=
  match q.wr with
  | some bs => (s.sliceWrite c n q.off bs q.master).served c n q (.ok [])
  | none =>
    let r := (s.burstErrs c n q.off errs).sliceRead c n q.off q.len q.master
    r.1.served c n q (match r.2 with | some bs => .ok bs | none => .fail stMemData)

/-- R279: the burst of the transfer that holds the channel ends. -/
def State.transferEnds (s : State) (c n : Nat) (errs : List (Fin 144)) : State :=
  let x := s.chan c n
  match x.holder with
  | none => s
  | some h =>
    let q := h.req
    if q.requester = rqNbr ∨ q.requester = rqAtomic ∨ q.narrow ∨ h.age ≤ x.toBurst q.off then s
    else s.transferred c n q errs

/-- R263: the read-merge-write that holds the channel is performed, with up to 15 narrow writes to its block that wait. -/
def State.mergeWrite (s : State) (c n : Nat) (errs : List (Fin 144)) : State :=
  match (s.chan c n).holder with
  | none => s
  | some h =>
    let q := h.req
    if q.requester = rqAtomic ∨ !q.narrow then s
    else
      let joins (y : ChanReq) : Bool :=
        y.narrow && y.off / 256 == q.off / 256 && (y.requester == rqNbWrite || (!s.chanParks c n && !s.resultHeld c n y.off y.len))
      let more := ((s.chan c n).pend.filter joins).take 15
      let l := q :: more
      let s := s.burstErrs c n q.off errs
      let s := s.writeCw c n q.master (l.map (fun y => (y.off, y.wr.getD [])))
      let s := s.modChan c n (fun x => { x with pend := more.foldl (fun p y => dropFirst (fun z => z == y) p) x.pend })
      let s := s.put F.arbStatus_pending [c, n] (s.chan c n).pend.length
      let s := s.served c n q (.ok [])
      more.foldl (fun s y => (s.regulated y.master y.tc).answerTo y.who (.ok [])) s

/-- R272: the adder, which holds the channel, applies the oldest requests of one block. -/
def State.addSequence (s : State) (c n : Nat) (errs : List (Fin 144)) : State :=
  match (s.chan c n).holder with
  | none => s
  | some h =>
    if h.req.requester ≠ rqAtomic then s
    else
      let l := addBatch (s.addable c n)
      let s := s.modChan c n (fun x => { x with
        holder := none
        adder := l.foldl (fun p a => dropFirst (fun z => z == a) p) x.adder })
      match l with
      | [] => s
      | r :: _ =>
        let s := ((s.burstErrs c n r.off errs).addAll c n l).modChan c n (fun x =>
          { x with openRow := tset 0 x.openRow (bankOf r.off) (rowOf r.off + 1) })
        l.foldl (fun s a => (s.regulated a.master a.tc).answerTo a.who (.ok [])) s

/-! ### A channel that goes out of service (R45) -/

/-- The work that holds the channel, granted before, is performed. -/
def State.performGranted (s : State) (c n : Nat) : State :=
  match (s.chan c n).holder with
  | none => s
  | some h =>
    if h.req.requester = rqNbr then s.modChan c n (fun x => { x with holder := none })
    else if h.req.requester = rqAtomic then s.addSequence c n []
    else if h.req.narrow then s.mergeWrite c n []
    else s.transferred c n h.req []

/-- The address captured for an access that waited: for a peer's, the source chip stands in bits [63:44] (R53). -/
def waitedAddr (who : Waiter) (l : Nat) : Nat :=
  match who with
  | .peer src _ _ _ => src % 2 ^ 20 * 2 ^ 44 + l
  | _ => selfAddr l

/-- Accesses granted before the transition are performed; those that still wait fail with `st` (R45, R47). -/
def State.failChanWaits (s : State) (c n st : Nat) : State :=
  let s := s.performGranted c n
  let x := s.chan c n
  let one (s : State) (m tc off : Nat) (w : Bool) (who : Waiter) : State :=
    ((s.addrError st m w (waitedAddr who (sliceAddr c n off))).regulated m tc).answerTo who (.fail st)
  let s := (s.setChan c n { x with pend := [], net := [], adder := [] }).put F.arbStatus_pending [c, n] 0
  let s := ((x.pend ++ x.net).filter (fun q => q.requester != rqNbr && q.requester != rqAtomic)).foldl (fun (s : State) (q : ChanReq) =>
    one s q.master q.tc q.off q.wr.isSome q.who) s
  x.adder.foldl (fun (s : State) (a : AddReq) => one s a.master a.tc a.off true a.who) s

/-- The state after a change, with what waits at a channel that the change puts out of service. -/
def State.losing (s t : State) (c n : Nat) : State :=
  if s.chanStatusOf c n = 0 ∧ t.chanStatusOf c n ≠ 0 then t.failChanWaits c n (t.chanStatusOf c n) else t

end Sys2Proof.Machine
end

