-- ==== Sys2Proof/Machine/Jig.lean ====
section
/-! DEFINITION. The mailbox's buffers and answers (R385, R386), and the Jig: the regions it takes, the save before it, its end
(R444 to R446), and the retirement of a unit (R448). -/

namespace Sys2Proof.Machine

/-! ### The mailbox -/

def mbReqAddr : Nat := 0x0C000101000
def mbRespAddr : Nat := 0x0C000111000

/-! Response statuses (R387) and the reasons of R450. -/
def mbOk : Nat := 0
def mbAbiMismatch : Nat := 2
def mbUnsupported : Nat := 3
def mbInvalid : Nat := 4
def mbFailed : Nat := 5
def rsBusy : Nat := 1
def rsWrongState : Nat := 2
def rsAncestor : Nat := 3
def rsTestFailed : Nat := 4
def rsWrongKind : Nat := 5

/-- R385: the response: header and payload in the response buffer, BUSY cleared, DONE set, the vector sent. -/
def State.mbRespond (s : State) (op seq status : Nat) (payload : List Byte) : State :=
  let b := leBytes 2 op ++ leBytes 2 status ++ leBytes 4 seq ++ leBytes 4 payload.length ++ leBytes 4 0 ++ payload
  let s := { s.pokes mbRespAddr b with bring := { s.bring with mbWait := none } }
  let s := s.puts [(F.mbStatus_busy, [], 0), (F.mbStatus_done, [], 1)]
  if s.flag F.mbControl_intEn then s.msix (s.get F.mbControl_vector) else s

/-- MB_FAILED with a reason (R450). -/
def State.mbFail (s : State) (op seq reason : Nat) : State := s.mbRespond op seq mbFailed (leBytes 4 reason)

def opRetire : Nat := 0x10
def opReadmit : Nat := 0x11
def opJig : Nat := 0x12

/-! ### Regions -/

def isCoreOff (u : Nat) : Bool := decide (0x80 ≤ u) && decide (u < 0xC0)
def isChanOff (u : Nat) : Bool := decide (0x100 ≤ u) && decide (u < 0x900)
def isNbrOff (u : Nat) : Bool := decide (0x900 ≤ u) && decide (u < 0x2900)
/-- A Golfort or far port's entry. -/
def isPortOff (u : Nat) : Bool := decide (0x8AA0 ≤ u) && decide (u < 0x8AAA)
def isDgOff (u : Nat) : Bool := decide (0x2900 ≤ u) && decide (u < 0x7900)

/-- The region that a unit lies in: an NBR's is its channel's (DEDUCED from R444). -/
def regionOf (u : Nat) : Nat := if isNbrOff u then offChan ((u - 0x900) / 128) ((u - 0x900) % 128 / 4) else u

/-- R446: a region is free: no slot of the core is held; the channel is in MEMORY mode with no run. -/
def State.regionFree (s : State) (u : Nat) : Bool :=
  let r := regionOf u
  if isCoreOff r then (List.range 4).all (fun k => (s.slot (r - 0x80) k).isNone)
  else if isChanOff r then
    let c := (r - 0x100) / 32
    let n := (r - 0x100) % 32
    s.chanMode c n == modeMemory && (s.run c n).isNone && (s.nextRun c n).isNone
  else true

/-- A request waits for this region: no new command starts on the core, no NBRUN on the channel (R446). -/
def State.regionWanted (s : State) (u : Nat) : Bool :=
  (match s.bring.mbWait with
  | some w => (w.op == opJig || w.op == opRetire) && regionOf w.unit == u
  | none => false) || s.bring.jig.any (fun j => j.unit == u)

/-- What waits at a unit that a change puts out of service (R45): a channel's accesses. -/
def State.losingUnit (s t : State) (u : Nat) : State :=
  if isChanOff u then s.losing t ((u - 0x100) / 32) ((u - 0x100) % 32) else t

/-- R448: a unit retired: RETIRED with cause 0x7, the settings saved; a core's queues enter HELD, a port is disabled. -/
def State.retire (s : State) (u : Nat) : State :=
  let s := if isPortOff u then
      (if u < offPort 8 then s.gfEnable (u - offPort 0) false
       else (s.farFailAll (u - offPort 8) 0x20).puts [(F.fpStatus_phase, [u - offPort 8], 0), (F.fpCapacity_bytes, [u - offPort 8], 0)])
    else s
  let s := s.losingUnit (s.mapUpdate [(u, entry stRetired 7)]).saveSettings u
  if isCoreOff u then s.holdQueues (u - 0x80) else s

/-- R460: what a scan can reach in a channel's region is zero before it: the NBRs' buffers and the sequence store. -/
def State.clearRegion (s : State) (u : Nat) : State :=
  if isChanOff u then
    let a := seqStore ((u - 0x100) / 32) ((u - 0x100) % 32)
    { s with
      nbBuf := s.nbBuf.filter (fun e => e.1 / 4 != u - 0x100)
      mem := s.mem.filter (fun e => !(decide (a ≤ e.1) && decide (e.1 < a + 0x800))) }
  else s

/-- R446, R448: the request that waits for a region goes on once it is free. -/
def State.regionCheck (s : State) : State :=
  match s.bring.mbWait with
  | none => s
  | some w =>
    if !(w.op == opJig || w.op == opRetire) || s.bring.jig.any (fun j => j.unit == w.unit) || !s.regionFree w.unit then s
    else if w.op = opRetire then (s.retire w.unit).mbRespond w.op w.seq mbOk []
    else
      let s := s.losingUnit ((s.mapOffline [w.unit]).clearRegion w.unit) w.unit
      { s with bring := { s.bring with jig := s.bring.jig ++ [{ unit := w.unit, why := .run }] } }

/-! ### The Jig -/

/-- R445: an address of a save area lies in a usable slice channel of this chip. -/
def State.saveServed (s : State) (a : Nat) : Bool :=
  match s.target a with
  | .slice c n _ => s.chanUsable c n && s.chanStatusOf c n == 0
  | _ => false

/-- R445: the 20 MiB at JIG_SAVE_BASE can be written wholly. Every channel that the area can lie in holds one of its first or
last 8 KiB. -/
def State.saveComplete (s : State) (c : Nat) : Bool :=
  let b := s.get F.jigSaveBase_address [c]
  let e := b + 20 * 2 ^ 20
  (List.range 33).all (fun j => s.saveServed ((b + 256 * j) % 2 ^ 64)) &&
    (List.range 33).all (fun j => s.saveServed ((e - 1 - 256 * j) % 2 ^ 64))

/-- The Jig run on a unit. -/
def State.jigOf (s : State) (u : Nat) : Option JigRun := s.bring.jig.find? (fun j => j.unit == u)
def State.jigEnds (s : State) (u : Nat) : State :=
  { s with bring := { s.bring with jig := s.bring.jig.filter (fun j => j.unit != u) } }

/-- JIG_STATUS: the region, its result and the failing index (R451). -/
def State.jigStatus (s : State) (u result index : Nat) : State :=
  s.puts [(F.jigStatus_unit, [], u), (F.jigStatus_result, [], result), (F.jigStatus_index, [], index)]

/-- R451: JIG_STATUS after tests of several regions together: which is the last is open. `fails`: the failing index of those that
fail; none where the index is open too. -/
def State.jigTogether (s : State) (units : List Nat) (fails : List (Nat × Option Nat)) : State :=
  if units.isEmpty then s
  else
    let x := s.fresh
    let u := units.getD (Config.jigLast x.1 % units.length) 0
    match fails.find? (fun f => f.1 == u) with
    | none => x.2.jigStatus u 1 0
    | some f => x.2.jigStatus u 2 (f.2.getD (Config.jigIndex x.1 % 64))

/-- R445: the save of a core. One not completely written leaves the core FAILED with cause 0x3, and nothing is scanned. -/
def State.saveCore (s : State) (c : Nat) : State :=
  let u := offCore c
  match s.jigOf u with
  | none => s
  | some j =>
    if j.saved then s
    else if s.saveComplete c then
      { s with bring := { s.bring with jig := s.bring.jig.map (fun x => if x.unit = u then { x with saved := true } else x) } }
    else
      let s := ({ s with mapSaved := tset none s.mapSaved u none } : State).mapUpdate [(u, entry stFailed 3)]
      let s := ((s.jigEnds u).jigStatus u 3 0).holdQueues c
      match j.why, s.bring.mbWait with
      | .run, some w => s.mbFail w.op w.seq rsTestFailed
      | _, _ => s

/-- R102, R253: the units of a core whose Jig has passed leave FAULTED. -/
def State.unitsRestored (s : State) (c : Nat) : State :=
  let s := s.puts [(F.mxaStatus_state, [c], 0), (F.vsuStatus_vecState, [c], 0), (F.vsuStatus_rstState, [c], 0),
    (F.attStatus_state, [c], 0)]
  (List.range 4).foldl (fun s e =>
    if s.dmaState c e = dmaFaulted then (s.setEng c e {}).put F.dmaStatus_state [c, e] dmaIdle else s) s

/-- The answer of a RUN_JIG that scanned (R446). -/
def State.jigAnswer (s : State) (j : JigRun) (pass index : Nat) : State :=
  match j.why, s.bring.mbWait with
  | .run, some w => s.mbRespond w.op w.seq mbOk (leBytes 4 (pass + 256 * index))
  | _, _ => s

/-- R444 to R446: a scan of a core ends. -/
def State.jigCore (s : State) (c : Nat) (j : JigRun) (fail : Option Nat) : State :=
  let u := offCore c
  let s := s.jigEnds u
  match fail with
  | none => (((s.mapRestore [u] (fun _ => false)).unitsRestored c).jigStatus u 1 0).jigAnswer j 1 0
  | some i =>
    let s := { s with mapSaved := tset none s.mapSaved u none }
    let s := (s.mapUpdate [(u, entry stFailed 3)]).holdQueues c
    let s := s.fault (c / 16) (s.record kJigFailed 0 u (detail := i))
    let s := { s with bring := { s.bring with
      jigFails := tset 0 s.bring.jigFails (c / 16) (tget 0 s.bring.jigFails (c / 16) + 1) } }
    (s.jigStatus u 2 i).jigAnswer j 0 i

/-- A scan of a channel's NBRs ends: each failing one FAILED with cause 0x3. -/
def State.jigChan (s : State) (c n : Nat) (j : JigRun) (fails : List (Nat × Nat)) : State :=
  let u := offChan c n
  let s := (s.jigEnds u).mapRestore [u] (fun _ => false)
  let bad := (List.range 4).filter (fun k => fails.any (fun f => f.1 == k))
  let s := if bad.isEmpty then s else s.mapUpdate (bad.map (fun k => (offNbr c n k, entry stFailed 3)))
  let idx := match bad with
    | [] => 0
    | k :: _ => ((fails.find? (fun f => f.1 == k)).map Prod.snd).getD 0
  let pass := (((List.range 4).filter (fun k => !bad.contains k)).map (fun k => 2 ^ k)).sum
  (s.jigStatus u (if bad.isEmpty then 1 else 2) idx).jigAnswer j pass idx

/-- A Jig scan ends, of a core once it is saved. -/
def State.jigDone (s : State) (u : Nat) (fails : List (Nat × Nat)) : State :=
  match s.jigOf u with
  | none => s
  | some j =>
    if isCoreOff u then
      (if j.saved then s.jigCore (u - 0x80) j ((fails.head?).map Prod.snd) else s)
    else if isChanOff u then s.jigChan ((u - 0x100) / 32) ((u - 0x100) % 32) j fails
    else s

end Sys2Proof.Machine
end

