-- ==== Sys2Proof/Machine/Resets.lean ====
section
/-! DEFINITION. Resets: what a warm, a partial and a cold reset keep and clear (R4, R423, R435, R441 to R443, R484). -/

namespace Sys2Proof.Machine

/-- R4, R484: a register after a reset of its block: RWS fields keep their values, all others read their reset values. -/
def keptValue (k : RegKind) (idx : List Nat) (v : Nat) : Nat :=
  k.fields.foldl (fun r f => if f.acc = .rws then putBits r f.lo f.len (bits v f.lo f.len) else r) (regReset k idx)

/-- The registers that `sel` selects by kind and BAR0 offset, reset. -/
def State.resetRegs (s : State) (sel : RegKind → Nat → Bool) : State :=
  { s with regs := s.regs.foldl (fun t e =>
      match regAt e.1 with
      | some (k, idx, _) => if sel k e.1 then tset (regReset k idx) t e.1 (keptValue k idx e.2) else t
      | none => t) s.regs }

/-- The settings of the saved copy put back (R437, R441, R447) in the registers that `sel` selects. -/
def State.restoreSaved (s : State) (sel : Nat → Bool) : State :=
  (s.saved.regs.filter (fun e => sel e.1)).foldl (fun s e =>
    match regAt e.1 with
    | some (k, idx, _) => s.setReg k idx e.2
    | none => s) s

/-- Slots freed, units emptied, and what the Jig save holds kept: tables, semaphore sums; a slot that only waits to write its
final record stays (R416). -/
def CoreSt.cleared (x : CoreSt) : CoreSt :=
  { slots := x.slots.filter (fun e => match e.2 with | some sl => sl.phase == .recording | none => false)
    lastStarted := x.lastStarted, clock := x.clock, tables := x.tables, semIn := x.semIn, semOut := x.semOut }

/-! ### Partial reset of a die (R442) -/

def causeMesh : Nat := 1
def causeTotals : Nat := 2
def causeReq : Nat := 3
def causeJig : Nat := 4

/-- Every entry of the map below a die, the die's own first (R20). -/
def unitsOfDie (d : Nat) : List Nat :=
  let r (lo n : Nat) : List Nat := (List.range n).map (· + lo)
  let links := [d, (d + 3) % 4]
  [offDie d] ++ r (offCore (16 * d)) 16 ++ r (offChan (16 * d) 0) 512 ++ r (offNbr (16 * d) 0 0) 2048 ++
  r (offDg (16 * d) 0 0) 5120 ++ links.flatMap (fun x => r (offMod x 0) 16 ++ r (offLane x 0 0) 1088) ++
  r (offGfLane (2 * d) 0) 16 ++ (portsOf d).map offPort ++
  (if d = 1 then r (offFarLane 0 0) 8 else if d = 3 then r (offFarLane 1 0) 8 else if d = 0 then r (offHostLane 0) 16 else [])

/-- Registers of the retention domain (R423), and the map's, the running word's and the save areas'. -/
def retained : RegKind → Bool
  | .semValue | .evSet | .qSched | .qState | .qStopDetail | .qStopPc | .qRingBase | .qCqBase | .qRingCfg | .qPtr | .qCqHead
  | .qEpoch | .qIrq | .qDiscards | .kvNearHead | .kvNearFree | .kvFarHead | .kvFarFree | .kvHeld | .kvPending | .arbStage
  | .arbLive | .arbStatus | .arbQuota | .arbTokens | .tokReturned | .tokMinted | .tokConsumed | .gfBiscTotal
  | .consDropped | .consCtl | .cadStatus | .cadCount | .fltNextSeq | .splTableState | .splRevision => true
  | _ => false

/-- Registers of a channel's controller, its arbiter and its near-bank block, which the Jig does not save. -/
def chanKind : RegKind → Bool
  | .slcStatus | .slcLayerTemp | .slcDeadLanesLo | .slcDeadLanesMid | .slcDeadLanesHi | .slcSpareMap | .slcRefreshCtl | .slcErrLog
  | .slcErrAddr | .slcCorrected | .slcUncorrectable | .slcPoisonWrites | .slcAtomReject | .slcRefreshes | .slcForced
  | .slcScrubPos | .slcScrubLap | .slcScrubLaps | .slcControl | .slcScrubCtl | .slcThresh | .arbRank | .arbCtl | .arbThrottle
  | .arbReqGrants | .arbReqWaits | .arbReqMaxWait | .arbReqRestarts | .arbLoad | .nbMode | .nbStatus | .nbErrAddr | .nbRows
  | .nbSplits | .nbCorrected | .nbRepeats | .nbIgnored | .nbDoneSummary => true
  | _ => false

/-- Blocks of D0 that a partial reset of D0 does not reset (R443): the management controller's, the power controller's, the
security block's, and the global blocks it does not name. -/
def survivesD0 : RegKind → Bool
  | .mqStatus | .mqGeneration | .mqControl | .mqLastChange | .mqVoteCorrections | .glbChipId | .glbHostWindowBase
  | .glbAddrErrStatus | .glbAddrErrAddr | .glbAddrErrCount | .glbUnmappedCount | .gfRouteRegion | .gfRouteLocal | .gfGlobalCtl
  | .gfIncast | .gfDropCount | .bxCapRunning | .bxMixed | .bxRoute | .mbAbi | .mbFwVersion | .mbStatus | .mbDoorbell | .mbControl
  | .mbIgnored | .pwrStatus | .pwrMeasured | .pwrFloor | .pwrCap | .pwrRamp | .pwrStagger | .pwrCoolant | .pwrSagCount
  | .pwrRtCount | .pwrStopCount | .pwrExcursions | .bruStatus | .bruStartMs | .bruDieReset | .bruWarmCount | .bruPartialCount
  | .bruReadyMin | .jigStatus | .jigSaveBase | .secStatus | .secFwDigest | .secIdDigest | .secAttestCount | .secVerifyFails => true
  | _ => false

/-- RW fields of a core's blocks are saved and put back with its state (R445). -/
def coreRw (k : RegKind) (o : Nat) : Bool :=
  decide (0x1000000 ≤ o) && decide (o < 0x2000000) && !chanKind k && k.fields.all (fun f => f.acc == .rw || f.acc == .rws)

/-- Requests that wait at a die's channels end ADDR_OFFLINE (R415, R45). -/
def State.failWaiting (s : State) (d : Nat) : State :=
  (s.chans.filter (fun e => e.1 / 512 == d)).foldl (fun s e => s.failChanWaits (e.1 / 32) (e.1 % 32) stAddrOffline) s

/-- The logic of a channel's controller after a reset: its table, quotas and slots are retained (R423). -/
def Chan.cleared (x : Chan) : Chan :=
  { loaded := x.loaded, withdrawn := x.withdrawn, blocked := x.blocked, quota := x.quota }

/-- The links of a die drop, and its ports go idle and OFFLINE, what they hold dropped (R362, R327). -/
def State.dropPorts (s : State) (d : Nat) : State :=
  let s := [d, (d + 3) % 4].foldl (fun s x => s.bxDrop x 0) s
  [2 * d, 2 * d + 1].foldl (fun s p =>
    let n := (s.gfPort p).rx.length
    let s := ((s.clearSend p).dropped n).setGf p {}
    s.setGfState p gfDisabled) s

/-- R389: the host link is lost. -/
def State.hostDown (s : State) : State :=
  if s.flag F.hifLink_up then
    (s.puts [(F.hifLink_width, [], 0), (F.hifLink_rate, [], 0), (F.hifLink_cxl, [], 0), (F.hifLink_cacheEn, [], 0),
      (F.hifLink_memEn, [], 0), (F.hifLink_up, [], 0), (F.hifStatus_linkDown, [], 1)]).bump F.hifLinkDowns_count []
  else s

/-- R475: the host port resets its link, the MSI-X table and the HDM decoder. -/
def State.hostPortReset (s : State) : State :=
  { s.hostDown.put F.hifStatus_hdmCommitted [] 0 with
    hdm := none
    mem := s.mem.filter (fun e => !(decide (0x0C0000B4000 ≤ e.1) && decide (e.1 < 0x0C0000C0000))) }

/-- R442, R443: a die enters partial reset. -/
def State.partialReset (s : State) (d cause kind detail : Nat) : State :=
  if s.dieInReset d ∨ !s.dieUsable d then s
  else
    let cores := (List.range 16).map (· + 16 * d)
    let live := cores.flatMap (fun c => (s.liveSlots c).map (fun k => (c, k)))
    -- the saves of R445, which the channel controllers can still write
    let lost := cores.filter (fun c => s.coreUsable c && !s.saveComplete c)
    -- Contain
    let s := cores.foldl (fun s c => (List.range 4).foldl (fun s e => s.dmaClear c e) s) s
    let s := s.discard d live (fun s n cs =>
      s.record kind 3 (offDie d) (cores := cs) (discarded := n) (detail := detail))
    let s := s.failWaiting d
    let s := (s.groups.filter (fun e => e.1 / 64 == d)).foldl (fun s e =>
      (s.endColl d (e.1 % 64) ccMemberLost).clearGroup d (e.1 % 64)) s
    let s := s.dropPorts d
    let s := s.mapOffline (unitsOfDie d)
    let s : State := { s with
      mapSaved := lost.foldl (fun t (c : Nat) => tset none t (offCore c) (some (entry stFailed 3))) s.mapSaved }
    let s := if d = 1 ∨ d = 3 then
        let f := d / 2
        let s := s.farFailAll f stAddrOffline
        s.setFar f { s.farPort f with kept := some (s.get F.fpCapacity_bytes [f]) }
      else s
    -- Reset
    let up := s.get F.hifLink_up
    let en := [2 * d, 2 * d + 1].map (fun p => (p, s.get F.gfControl_enable [p]))
    let s := s.resetRegs (fun k o => regDie o == d && !retained k && !(d == 0 && survivesD0 k) && !coreRw k o)
    let s := s.puts (en.map (fun (e : Nat × Nat) => (F.gfControl_enable, [e.1], e.2)))
    let s := cores.foldl (fun s c => s.setCore c (s.core c).cleared) s
    let s := { s with
      dma := s.dma.filter (fun e => e.1 / 64 != d)
      nbRun := s.nbRun.filter (fun e => e.1 / 512 != d)
      nbNext := s.nbNext.filter (fun e => e.1 / 512 != d)
      nbBuf := s.nbBuf.filter (fun e => e.1 / 2048 != d)
      mem := s.mem.filter (fun e => !(decide (0x0C002000000 ≤ e.1) && decide (e.1 < 0x0C002400000) &&
        (e.1 - 0x0C002000000) / 0x100000 == d))
      chans := s.chans.foldl (fun t (e : Nat × Chan) => if e.1 / 512 = d then tset {} t e.1 e.2.cleared else t) s.chans
      mesh := s.mesh.filter (fun e => e.1 / 64 != d)
      heldAcc := s.heldAcc.filter (fun a => !decide (accBase + d * 2 ^ 25 ≤ a.addr ∧ a.addr < accBase + (d + 1) * 2 ^ 25))
      bring := { s.bring with jig := s.bring.jig.filter (fun j => !(unitsOfDie d).contains j.unit) } }
    let s := s.restoreSaved (fun o => regDie o == d && decide (0x1000000 ≤ o))
    let s := if d = 0 ∧ s.cadState ≠ cadFree then s.put F.cadStatus_state [] cadHoldover else s
    let s := if d = 0 then ((s.put F.hifLink_up [] up).hostPortReset).put F.mbStatus_ready [] 0 else s
    (s.bump F.bruPartialCount_count []).puts [(F.bruDieReset_lastCause, [], cause),
      (F.bruDieReset_active, [], putBits (s.get F.bruDieReset_active) d 1 1)]

/-- The two ends of a link after the return of a die: UP with full pools, or FAILED (R442's Bennex). -/
def State.linkReturns (s : State) (x : Nat) (up : Bool) : State :=
  [0, 1].foldl (fun s e =>
    if up then
      let s := (List.range 4).foldl (fun s v =>
        s.puts [(F.bxBisc_avail, [x, e, v], s.get F.bxBisc_total [x, e, v]), (F.bxBisc_used, [x, e, v], 0)]) s
      (s.setBx x e {}).setBxState x e bxUp
    else s.setBxState x e bxFailed) s

/-- R442: the die returns: units restored, cores that fail the Jig or whose save was not completely written (R445) FAILED with cause
0x3, the modules of a link that does not train with cause 0x6; a die whose links both fail, or whose cores all fail the Jig, FAILED
with cause 0x9. -/
def State.dieReturns (s : State) (d : Nat) (jigFail : List (Nat × Nat)) (linkUp linkDown : Bool) : State :=
  if !s.dieInReset d then s
  else
    let s := s.put F.bruDieReset_active [] (putBits (s.get F.bruDieReset_active) d 1 0)
    let s := if d = 0 then s.deliverFaults else s
    let s := (s.linkReturns d linkUp).linkReturns ((d + 3) % 4) linkDown
    let failed := jigFail.filter (fun f => usableSt (statusOf ((tget none s.mapSaved (offCore (16 * d + f.1))).getD (entry stFailed 0))))
    let tested := ((List.range 16).map (fun i => offCore (16 * d + i))).filter (fun o => usableSt (statusOf ((tget none s.mapSaved o).getD (entry stFailed 0))))
    let dead := (!linkUp && !linkDown) || decide (16 ≤ (failed.map Prod.fst).eraseDups.length)
    let ports := (portsOf d).map offPort
    let far := if d = 1 ∨ d = 3 then (List.range 8).map (offFarLane (d / 2)) else []
    let skip (o : Nat) : Bool := (ports.contains o && o != offPort 10) || far.contains o
    let unsaved := ((List.range 16).map (· + 16 * d)).filter (fun c => tget none s.mapSaved (offCore c) == some (entry stFailed 3))
    let badMods := (if linkUp then [] else modOffs d) ++ (if linkDown then [] else modOffs ((d + 3) % 4))
    let l := (unitsOfDie d).filterMap (fun o =>
      if skip o then none
      else (tget none s.mapSaved o).map (fun b =>
        if o = offDie d ∧ dead then (o, entry stFailed 9)
        else if failed.any (fun f => offCore (16 * d + f.1) == o) then (o, entry stFailed 3)
        else if badMods.contains o then (o, entry stFailed 6)
        else (o, b)))
    let s := { s with mapSaved := (unitsOfDie d).foldl (fun t (o : Nat) => tset none t o none) s.mapSaved }
    let s := s.mapUpdate l
    let s := unsaved.foldl (fun s c => s.holdQueues c) s
    let s := failed.foldl (fun s f =>
      let c := 16 * d + f.1
      let s := (s.holdQueues c).resetRegs (fun k o => coreRw k o && !retained k && (o - 0x1000000) / 0x40000 == c)
      s.fault d (s.record kJigFailed 0 (offCore c) (detail := f.2))) s
    -- ports
    let s := [2 * d, 2 * d + 1].foldl (fun s p =>
      let st := statusOf (s.ownAt (offPort p))
      if st = stFused ∨ st = stFailed ∨ st = stRetired then s
      else if s.get F.gfControl_enable [p] = 1 then (s.setGfState p gfSeeking).portEntry p (entry stUnconn 0)
      else s.portEntry p (entry stUnconn 0)) s
    let s := { s with bring := { s.bring with jigFails := tset 0 s.bring.jigFails d 0 } }
    let s := s.jigTogether tested (jigFail.map (fun f => (offCore (16 * d + f.1), some f.2)))
    if d = 0 then s.put F.mbStatus_ready [] 1 else s

/-! ### Warm reset (R435, R441) -/

/-- Entries that a warm reset keeps: fused-off, failed and retired units, and dowel groups with dead lanes (R14, R15). -/
def keptEntry (o : Nat) (b : Byte) : Bool :=
  let st := statusOf b
  st == stFused || st == stFailed || st == stRetired || (isDgOff o && st == stDegraded)

/-- Registers whose state a warm reset keeps beside the RWS fields (R24, R383, R419, R434, R461). -/
def keptWarm : RegKind → Bool
  | .mqGeneration | .qEpoch | .fltNextSeq | .secStatus => true
  | _ => false

/-- Every queue's epoch advanced by one (R383). -/
def State.allEpochs (s : State) : State :=
  (List.range 4096).foldl (fun s q => s.put F.qEpoch_epoch (qx q) ((s.get F.qEpoch_epoch (qx q) + 1) % 2 ^ 32)) s

/-- The state after the blocks' reset that a warm restart makes. -/
def State.warmCleared (s : State) : State :=
  let t : State := { (State.reset) with
    pending := s.pending, free := s.free, out := s.out, regs := s.regs, hostMem := s.hostMem
    mem := s.mem.filter (fun e => decide (e.1 < 0x04000000000) || (decide (faultLogBase ≤ e.1) && decide (e.1 < faultLogBase + 0x8000)))
    poison := s.poison, symErrs := s.symErrs
    own := s.own.filter (fun e => keptEntry e.1 e.2)
    farMem := s.farMem, farPoison := s.farPoison
    far := s.far.foldl (fun t e => tset {} t e.1 ({ gen := e.2.gen } : FarPort)) []
    power := { tripped := s.power.tripped }
    bring := { aux := s.bring.aux, pwrgood := s.bring.pwrgood, pkgHigh := s.bring.pkgHigh, hperst := s.bring.hperst }
    sec := { s.sec with total := none }
    vddCore := s.vddCore }
  let t := t.resetRegs (fun k _ => !keptWarm k)
  let g := t.get F.mqGeneration_generation
  (t.restoreSaved (fun _ => true)).puts
    [(F.mqGeneration_generation, [], if g % 2 = 0 then g + 1 else g), (F.mqStatus_building, [], 1),
     (F.consCtl_incarnation, [], s.get F.consCtl_incarnation + 1),
     (F.bruStatus_phase, [], 1), (F.bruStatus_start, [], 1)]

/-- R415, R441: a warm restart: all work discarded, its record, the final records, the reset. DETAIL is 1 for the mailbox
request, 2 for a partial reset of D0 that failed. -/
def State.warmReset (s : State) (detail : Nat) : State :=
  let s := if s.dieInReset 0 then ((s.put F.bruDieReset_active [] 0).deliverFaults) else s
  let live := (List.range 64).flatMap (fun c => (s.liveSlots c).map (fun k => (c, k)))
  let s := live.foldl (fun s p => s.dropWork p.1 p.2) s
  let cores := ((live.map Prod.fst).eraseDups.map (fun c => 2 ^ c)).sum
  let s := s.performFault (s.record kWarmRestart 4 unitPackage (cores := cores) (discarded := live.length) (detail := detail))
  let s := live.foldl (fun s p => s.finalRecord p.1 p.2 2) s
  let s := if s.flag F.hifLink_up then s.bump F.hifLinkDowns_count [] else s
  (s.warmCleared.allEpochs).bump F.bruWarmCount_count []

/-! ### Cold reset -/

/-- R435: the reset of the package: everything but the boot flash, the fuses, what stands outside the part, and THERMTRIP_N. With
`powerLost` the far devices are reset with it (R474). -/
def State.coldReset (s : State) (powerLost : Bool) : State :=
  let inc := s.get F.consCtl_incarnation
  let t : State := { (State.reset) with
    pending := s.pending, free := s.free, out := s.out, hostMem := s.hostMem
    farMem := if powerLost then [] else s.farMem
    farPoison := if powerLost then [] else s.farPoison
    far := (List.range 2).foldl (fun t f =>
      tset {} t f ({ gen := (tget {} s.far f).gen + (if powerLost then 1 else 0) } : FarPort)) []
    power := { tripped := s.power.tripped }
    bring := { aux := s.bring.aux, pwrgood := s.bring.pwrgood, pkgHigh := s.bring.pkgHigh, hperst := s.bring.hperst }
    sec := { s.sec with total := none }
    vddCore := if powerLost then 750 else s.vddCore }
  t.puts [(F.secStatus_svnFused, [], s.get F.secStatus_svnFused), (F.secStatus_keyRevoked, [], s.get F.secStatus_keyRevoked),
    (F.consCtl_incarnation, [], inc + 1)]

end Sys2Proof.Machine
end

