-- ==== Sys2Proof/Machine/Bringup.lean ====
section
/-! DEFINITION. The phases of a start (R436 to R441): fuses, firmware, self-test, links, DRAM, retention, ready. -/

namespace Sys2Proof.Machine

/-! Phases of BRU_STATUS (R451). -/
def phPower : Nat := 0
def phClocks : Nat := 1
def phBoot : Nat := 2
def phSelfTest : Nat := 3
def phBennex : Nat := 4
def phDram : Nat := 5
def phRetention : Nat := 6
def phLinks : Nat := 7
def phMap : Nat := 8
def phReady : Nat := 9
def phHalted : Nat := 10

def State.phase (s : State) : Nat := s.get F.bruStatus_phase
def State.toPhase (s : State) (p : Nat) : State := s.put F.bruStatus_phase [] p
def State.warmStart (s : State) : Bool := s.get F.bruStatus_start == 1

/-- A start that cannot go on (R440): every Golfort port stays DISABLED. -/
def State.halt (s : State) (reason : Nat) : State :=
  let s := (List.range 8).foldl (fun s p => s.gfEnable p false) s
  s.puts [(F.bruStatus_phase, [], phHalted), (F.bruStatus_haltReason, [], reason)]

def State.modBring (s : State) (f : Bring → Bring) : State := { s with bring := f s.bring }

/-! ### CLOCKS: the fuse image (R14, R422, R436) -/

/-- An entry of a unit that start-up tests may judge: neither fused off nor failed nor retired (R14). -/
def State.judged (s : State) (o : Nat) : Bool :=
  let st := statusOf (s.ownAt o)
  st != stFused && st != stFailed && st != stRetired

def State.clocks (s : State) (corrected : Nat) (bad lost : List Nat) : State :=
  if s.phase ≠ phClocks then s
  else
    let s := s.bump F.voteCorr_count [1] corrected
    let s := s.mapUpdate (((bad ++ lost).filter (fun o => decide (0x40 ≤ o))).map (fun o => (o, entry stFused 1)))
    let s := if lost.isEmpty then s else s.voteFail 1
    s.modBring (fun b => { b with fuses := true })

/-! ### BOOT: the firmware image (R453, R454) -/

/-- The offset of a slot's trailer (R453). -/
def trailerOff : Nat := 0x7FFFF8

/-- A byte of an image slot: as written since, erased, or as the board supplied it. -/
def State.flash (s : State) (i o : Nat) : Byte :=
  let x := tget {} s.sec.slots i
  if x.noTrailer && decide (trailerOff ≤ o) then 0xFF#8
  else match tget none x.bytes o with
  | some b => b
  | none => if x.erased then 0xFF#8 else BitVec.ofNat 8 (Config.flashByte i o)

def State.flashBytes (s : State) (i o n : Nat) : List Byte := (List.range n).map (fun j => s.flash i (o + j))
def State.flashLE (s : State) (i o n : Nat) : Nat := leOf (s.flashBytes i o n)

/-- R459: a trailer that stands erased is not valid, whatever CRC its erased bytes have. -/
def State.trailerOk (s : State) (i : Nat) : Bool := !(tget {} s.sec.slots i).noTrailer && s.flashLE i (trailerOff + 4) 4 == crc32 (s.flashBytes i trailerOff 4)
def State.slotSeq (s : State) (i : Nat) : Nat := s.flashLE i trailerOff 4

/-- The bytes an image's signature covers. -/
def State.signedBytes (s : State) (i : Nat) : List Byte := s.flashBytes i 0 (0x7E0 + s.flashLE i 8 4)

/-- R454: the order number of the first check that an image fails; none where it passes. -/
def State.imageCheck (s : State) (i : Nat) : Option Nat :=
  let f := s.flashLE i
  let key := s.flashBytes i 0x40 1952
  if f 0 4 ≠ 0x4D4C4657 ∨ f 4 2 ≠ 1 ∨ f 0xC 52 ≠ 0 ∨ 8372224 < f 8 4 then some 1
  else if 1 < f 6 1 ∨ bit (s.get F.secStatus_keyRevoked) (f 6 1) then some 2
  else if Config.shake256 32 key ≠ Config.keyDigest (f 6 1) then some 3
  else if f 7 1 < s.get F.secStatus_svnFused then some 4
  else if !Config.signatureOk (s.signedBytes i) (s.flashBytes i (0x7E0 + f 8 4) 3309) key then some 5
  else none

/-- The slot tried first: 0 for A (R454). -/
def State.firstSlot (s : State) : Nat :=
  let a := s.trailerOk 0
  let b := s.trailerOk 1
  if a == b then (if a && decide (s.slotSeq 0 < s.slotSeq 1) then 1 else 0) else if b then 1 else 0

/-- The image of slot `i` runs. -/
def State.bootSlot (s : State) (i : Nat) (fallback : Bool) : State :=
  let dig := Config.shake256 64 (s.signedBytes i)
  let s := { s with sec := { s.sec with runSeq := s.slotSeq i, scan := false } }
  let s := s.puts [(F.secStatus_verified, [], 1), (F.secStatus_slot, [], i), (F.secStatus_keyIndex, [], s.flashLE i 6 1),
    (F.secStatus_fallback, [], if fallback then 1 else 0), (F.secStatus_svnRunning, [], s.flashLE i 7 1),
    (F.secStatus_locked, [], 0)]
  let s := (List.range 8).foldl (fun s k => s.put F.secFwDigest_bytes [k] (leOf ((dig.drop (8 * k)).take 8))) s
  (List.range 4).foldl (fun s k => s.put F.secIdDigest_bytes [k] (Config.idDigest k % 2 ^ 64)) s

/-- R15, R408, R447: what every start takes from the saved settings: FAILED and RETIRED entries, the floor and the stagger. -/
def State.takeSaved (s : State) : State :=
  let s := s.mapUpdate ((s.saved.entries.filter (fun e => statusOf (s.ownAt e.1) != stFused)))
  s.restoreSaved (fun o => o == RegKind.base .pwrFloor || o == RegKind.base .pwrStagger)

/-- R454, R422: phase BOOT. `headerLost`: the three copies of the saved-settings header all differ. -/
def State.boot (s : State) (headerLost : Bool) : State :=
  if s.phase ≠ phClocks ∨ !s.bring.fuses then s
  else
    let s := s.toPhase phBoot
    let a := s.firstSlot
    let b := 1 - a
    let s := match s.imageCheck a with
      | none => s.bootSlot a false
      | some _ =>
        let s := s.bump F.secVerifyFails_count []
        match s.imageCheck b with
        | none => s.bootSlot b true
        | some _ => s.bump F.secVerifyFails_count []
    if !s.flag F.secStatus_verified then s.halt 2
    else
      let s := s.put F.mbStatus_ready [] 1
      let s := s.modBring (fun x => { x with header := !headerLost })
      if headerLost then s.voteFail 4
      else (s.takeSaved).put F.bruStatus_savedUsed [] (if s.warmStart then 1 else 0)

/-! ### SELF_TEST, BENNEX, DRAM -/

/-- R436: cores whose memories or Jig fail are FIELD_DEFECT (R14). -/
def State.selfTest (s : State) (memFail : List Nat) (jigFail : List (Nat × Nat)) : State :=
  if s.phase ≠ phBoot then s
  else
    let s := s.toPhase phSelfTest
    let tested := ((List.range 64).filter (fun c => s.judged (offCore c) && s.dieUsable (c / 16))).map offCore
    let bad := (memFail ++ jigFail.map Prod.fst).filter (fun c => s.judged (offCore c) && s.dieUsable (c / 16))
    let s := s.mapUpdate (bad.map (fun c => (offCore c, entry stDefect 2)))
    s.jigTogether tested (jigFail.map (fun f => (offCore f.1, some f.2)))

/-- R436: every link between usable dies begins to train, and the running word is formed. -/
def State.bennexStart (s : State) : State :=
  if s.phase ≠ phSelfTest then s
  else
    let s := s.toPhase phBennex
    let s := (List.range 4).foldl (fun s x =>
      if s.linkUsable x then [0, 1].foldl (fun s e => if s.bxState x e = bxDown then s.setBxState x e bxLocking else s) s else s) s
    s.formRunning

/-- R437, R14: the training of one channel: dead lanes, those of the saved settings among them, enter the mask; dead control and
strobe dowels take the two control spares; NBRs that fail the Jig are FIELD_DEFECT. -/
def State.trainChannel (s : State) (c n : Nat) (lanes control jigFail : List Nat) : State :=
  if s.phase ≠ phBennex ∧ s.phase ≠ phDram then s
  else
    let s := s.toPhase phDram
    if !s.judged (offChan c n) ∨ !s.dieUsable (c / 16) then s
    else
      let s := if s.bring.header then
          s.restoreSaved (fun o =>
            match regAt o with
            | some (k, idx, _) => idx == [c, n] && (k == .slcDeadLanesLo || k == .slcDeadLanesMid || k == .slcDeadLanesHi ||
                (s.warmStart && (k == .slcRefreshCtl || k == .slcSpareMap)))
            | none => false)
        else s
      let s := s.syncErasures c n
      let mask := (lanes.eraseDups.map (fun j => 2 ^ j)).sum
      let s := s.killLanes c n mask 2
      let dg := offDg c n 9
      let s := match control.eraseDups with
        | [] => s
        | [x] => (s.puts [(F.slcSpareMap_for0, [c, n], x), (F.slcSpareMap_en0, [c, n], 1)]).mapUpdate [(dg, entry stDegraded 2)]
        | [x, y] => (s.puts [(F.slcSpareMap_for0, [c, n], x), (F.slcSpareMap_en0, [c, n], 1), (F.slcSpareMap_for1, [c, n], y),
            (F.slcSpareMap_en1, [c, n], 1)]).mapUpdate [(dg, entry stDegraded 2)]
        | _ => s.mapUpdate [(dg, entry stDefect 2)]
      let s := s.mapUpdate (((jigFail.filter (fun k => s.judged (offNbr c n k)))).map (fun k => (offNbr c n k, entry stDefect 2)))
      let s := s.jigTogether [offChan c n] (jigFail.map (fun _ => (offChan c n, none)))
      s.setRate c n

/-! ### RETENTION (R438, R439) -/

/-- The longest pause that a sweep held in every pattern, as k + 1; 0 if it held none. -/
def heldUpTo (n : Nat) (fails : List Nat) : Nat :=
  ((List.range n).filter (fun k => !fails.contains k)).foldl (fun m k => max m (k + 1)) 0

/-- h in eighths of a kelvin, as numerator and denominator (R439), from T_high − T_low = `dn` / `dd` eighths. -/
def halving (dn : Int) (dd : Nat) (low high : Nat) (heldAll : Bool) : Int × Int :=
  if dn < 120 * dd ∨ low = high then (80, 1)
  else
    let steps : Int := (low : Int) - high
    -- clamped to [4 K, 14 K]; a fit that is not positive is clamped to 4 K
    let fit : Int × Int := if steps < 0 ∨ low = 0 then (32, 1)
      else if dn < 32 * (dd * steps) then (32, 1) else if 112 * (dd * steps) < dn then (112, 1) else (dn, dd * steps)
    if heldAll ∧ 80 * fit.2 < fit.1 then (80, 1) else fit

/-- R439: the least rate code every band from which upwards passes; none where the channel is a defect. -/
def retentionFloor (r : RetChan) : Option Nat :=
  let low := heldUpTo 11 r.lowFail
  let high := heldUpTo 7 r.highFail
  if high = 0 then none
  else
    let dn : Int := (r.highSum : Int) * 44 - (r.lowSum : Int) * 28
    let h := halving dn (28 * 44) low high r.lowFail.isEmpty
    -- 16 ms × 2^(high − 1) × 2^((T_high − T) / h) against 16 ms × 2^j
    let ok (t j : Int) : Bool := decide (28 * (j - (high - 1 : Int)) * h.1 ≤ ((r.highSum : Int) - 28 * t) * h.2)
    let b1 := ok 680 2
    let b2 := ok 760 1
    let b4 := ok 840 0
    if !b4 then none else if !b2 then some 2 else if !b1 then some 1 else some 0

/-- The code of a sweep step, and how many there are. -/
def stepCode (hot : Bool) (pattern k : Nat) : Nat := (if hot then 64 else 0) + 16 * pattern + k
def retentionSteps : Nat := 4 * 11 + 4 * 7

def State.retention (s : State) (hot : Bool) (pattern k : Nat) (failing : List (Nat × Nat)) : State :=
  let code := stepCode hot pattern k
  if !(s.phase == phDram || s.phase == phRetention) || s.warmStart || (hot && decide (6 < k)) || s.bring.steps.contains code then s
  else
    let s := s.toPhase phRetention
    let chans := (List.range 2048).filter (fun i => s.judged (offChan (i / 32) (i % 32)))
    let ret := chans.foldl (fun t i =>
      let r : RetChan := tget {} t i
      let e := s.get F.slcLayerTemp_temp [i / 32, i % 32]
      let bad := failing.contains (i / 32, i % 32)
      tset {} t i (if hot then { r with highSum := r.highSum + e, highFail := if bad then nsIns r.highFail k else r.highFail }
        else { r with lowSum := r.lowSum + e, lowFail := if bad then nsIns r.lowFail k else r.lowFail })) s.bring.ret
    let s := s.modBring (fun b => { b with ret := ret, steps := nsIns b.steps code })
    if s.bring.steps.length < retentionSteps then s
    else chans.foldl (fun s i =>
      let c := i / 32
      let n := i % 32
      match retentionFloor (tget {} s.bring.ret i) with
      | some m => (s.put F.slcRefreshCtl_rateFloor [c, n] m).setRate c n
      | none => s.mapUpdate [(offChan c n, entry stDefect 2)]) s

/-! ### LINKS, MAP, READY -/

/-- R436: the ports begin; a Golfort port that is not enabled is UNCONNECTED. -/
def State.linksStart (s : State) : State :=
  let ok := if s.warmStart then s.phase == phDram
    else s.phase == phRetention && decide (retentionSteps ≤ s.bring.steps.length)
  if !ok then s
  else
    let s := s.toPhase phLinks
    s.mapUpdate (((List.range 8).filter (fun p => s.gfState p == gfDisabled && s.judged (offPort p))).map (fun p =>
      (offPort p, entry stUnconn 0)))

/-- R436, R441, R447: the map is completed; at the end of a cold start the settings are saved. -/
def State.mapBuilt (s : State) : State :=
  if s.phase ≠ phLinks then s
  else
    let s := s.toPhase phMap
    (if s.warmStart then s else s.saveSettings).modBring (fun b => { b with mapDone := true })

/-- R440: a far port whose bring-up is still to come. -/
def State.farWaits (s : State) (f : Nat) : Bool :=
  s.get F.fpStatus_phase [f] == 0 && s.judged (offPort (8 + f)) && s.dieUsable (farDie f)

/-- R440: the reason that the start cannot meet the criteria. -/
def State.haltReason (s : State) : Option Nat :=
  if !s.dieUsable 0 then some 1
  else if !s.flag F.secStatus_verified then some 2
  else if [1, 2, 3].any (fun d => s.dieUsable d && !(s.linkUp d || s.linkUp (d - 1))) then some 3
  else if s.usableCores < max 1 (min 64 (s.get F.bruReadyMin_cores)) then some 4
  else none

/-- R440: ready, or halted; a port that still trains or qualifies delays it. -/
def State.declareReady (s : State) (ms : Nat) : State :=
  if s.phase ≠ phMap ∨ !s.bring.mapDone ∨
      (List.range 8).any (fun p => s.gfState p == gfTraining || s.gfState p == gfQualifying) ∨ s.farWaits 0 ∨ s.farWaits 1 then s
  else
    let s := s.put F.bruStartMs_ms [] ms
    match s.haltReason with
    | some r => s.halt r
    | none =>
      let g := s.get F.mqGeneration_generation
      let s := s.puts [(F.bruStatus_phase, [], phReady), (F.bruStatus_readyEvent, [], 1),
        (F.mqGeneration_generation, [], if g % 2 = 1 then g + 1 else g), (F.mqStatus_building, [], 0)]
      (s.modPower (fun p => { p with inService := true })).syncPower

/-- R436: 300 s without READY or HALTED. -/
def State.startLate (s : State) : State :=
  if s.warmStart ∨ s.phase = phPower ∨ phReady ≤ s.phase then s else s.halt 0xF

/-! ### Power and the reset input (R474, R475) -/

/-- The start begins: power good, the reset input high, THERMTRIP_N released. -/
def State.beginStart (s : State) : State :=
  if s.phase = phPower ∧ s.bring.aux ∧ s.bring.pwrgood ∧ s.bring.pkgHigh ∧ !s.power.tripped then s.toPhase phClocks else s

def State.resetInput (s : State) (rise : Bool) : State :=
  if rise then (s.modBring (fun b => { b with pkgHigh := true })).beginStart
  else (s.coldReset false).modBring (fun b => { b with pkgHigh := false })

def State.powerFall (s : State) : State := (s.coldReset true).modBring (fun b => { b with pwrgood := false })
def State.powerRise (s : State) : State :=
  if s.bring.pwrgood ∧ s.bring.aux then s
  else (s.modBring (fun b => { b with pwrgood := true, aux := true })).beginStart

/-- VDD_AUX removed: all power is gone, and THERMTRIP_N is released. -/
def State.auxGone (s : State) : State :=
  let s := (s.coldReset true).modBring (fun b => { b with aux := false, pwrgood := false })
  { s with power := {} }

end Sys2Proof.Machine
end

