-- ==== Sys2Proof/Machine/Mailbox.lean ====
section
/-! DEFINITION. The mailbox's requests (R385 to R388): the checks, and what each opcode does (R408, R428, R441, R446 to R450,
R457 to R459). -/

namespace Sys2Proof.Machine

/-! Opcodes (R388) beside those of Machine/Jig.lean. -/
def opGetInfo : Nat := 0x01
def opSave : Nat := 0x20
def opWarm : Nat := 0x21
def opFloor : Nat := 0x30
def opStagger : Nat := 0x31
def opAttest : Nat := 0x40
def opFw : Nat := 0x41
def opAudit : Nat := 0x50

/-- The minimum minor of an opcode; none where it is unknown. -/
def opMinor (op : Nat) : Option Nat :=
  if op = opGetInfo ∨ op = opRetire ∨ op = opReadmit ∨ op = opJig ∨ op = opSave ∨ op = opWarm ∨ op = opFloor ∨ op = opAttest ∨
    op = opFw then some 0
  else if op = opStagger then some 1
  else if op = opAudit then some 2
  else none

/-- A number of bytes of a list, from an offset, little-endian. -/
def fieldLE (b : List Byte) (o n : Nat) : Nat := leOf ((b.drop o).take n)
/-- A list of exactly `n` bytes. -/
def exactly (n : Nat) (l : List Byte) : List Byte := (l ++ List.replicate n 0#8).take n

/-- R387, check 3: the payload of LENGTH bytes keeps its opcode's rules (R408, R428, R446 to R449, R457, R459). -/
def State.mbPayloadOk (s : State) (op : Nat) (b : List Byte) : Bool :=
  let n := b.length
  let f := fieldLE b
  if op = opGetInfo ∨ op = opSave ∨ op = opWarm ∨ op = opAudit then n == 0
  else if op = opRetire ∨ op = opJig then n == 8 && f 4 4 == 0
  else if op = opReadmit then n == 8 && f 4 4 == 0 && decide (f 2 2 < 2)
  else if op = opFloor then
    n == 4 && decide (300 ≤ f 0 4) && decide (f 0 4 ≤ 900) && decide (f 0 4 ≤ s.get F.pwrCap_w)
  else if op = opStagger then
    n == 8 && (List.range 21).any (fun k => f 0 4 == 2 ^ k) && decide (f 4 4 < f 0 4)
  else if op = opAttest then n == 40 && decide (f 32 4 < 2) && f 36 4 == 0
  else
    f 1 3 == 0 &&
    (match f 0 1 with
    | 0 => n == 8 && decide (f 4 4 ≤ trailerOff)
    | 1 => decide (8 ≤ n) && (match s.sec.total with
        | some t => decide (f 4 4 + (n - 8) ≤ t)
        | none => false)
    | 2 | 3 => n == 4
    | 4 => n == 8 && decide (f 4 1 < 2) && f 5 3 == 0
    | _ => false)

/-! ### RETIRE_UNIT, RUN_JIG, READMIT_UNIT -/

/-- Every ancestor of a unit is usable (R17). -/
def State.ancestorsOk (s : State) (u : Nat) : Bool := (ancestorsOf u).all (fun o => usableSt (statusOf (s.shownAt o)))

/-- The reason that a request for a unit fails: kind, status, ancestors. -/
def State.unitReason (s : State) (u : Nat) (kind admits : Bool) : Option Nat :=
  if !kind then some rsWrongKind else if !admits then some rsWrongState else if !s.ancestorsOk u then some rsAncestor else none

/-- RUN_JIG or RETIRE_UNIT: it waits for its region (R446). -/
def State.mbRegion (s : State) (op seq u : Nat) (kind : Bool) : State :=
  match s.unitReason u kind (usableSt (statusOf (s.shownAt u))) with
  | some r => s.mbFail op seq r
  | none => ({ s with bring := { s.bring with mbWait := some { op := op, seq := seq, unit := u } } } : State).regionCheck

/-- TIMEOUT_MS has passed: BUSY, where the region is not free (R446). -/
def State.regionLate (s : State) : State :=
  match s.bring.mbWait with
  | some w =>
    if (w.op = opJig ∨ w.op = opRetire) ∧ (s.jigOf w.unit).isNone then s.mbFail w.op w.seq rsBusy else s
  | none => s

/-- Lanes of a dowel group (R12). -/
def groupLanes (u : Nat) : Nat × Nat × Nat := ((u - 0x2900) / 320, (u - 0x2900) % 320 / 10, (u - 0x2900) % 10)

/-- The lanes of a dowel group that are in the erasure mask. -/
def State.groupDead (s : State) (u : Nat) : Nat :=
  let g := groupLanes u
  if g.2.2 = 9 then 0 else bits (s.deadLanes g.1 g.2.1) (16 * g.2.2) 16

/-- R449: a unit that READMIT_UNIT accepts by its kind, and by its status. -/
def readmitKind (u : Nat) : Bool := isCoreOff u || isChanOff u || isNbrOff u || isPortOff u || isDgOff u
def State.readmitState (s : State) (u : Nat) : Bool :=
  let st := statusOf (s.shownAt u)
  if isDgOff u then s.groupDead u != 0 else st == stFailed || st == stRetired || st == stExcluded

/-- The cause that a pass, or a failure, of the test writes (R449). -/
def readmitCause (u : Nat) (untested : Bool) : Nat :=
  if isCoreOff u ∨ isNbrOff u then (if untested then 7 else 3) else if isChanOff u then 2 else 6

/-- R449: the unit passes: GOOD or what R18 derives; its queues leave HELD; lanes leave the mask; a Golfort port comes up. What a
far port's window holds waits for R300 (DESIGN CHOICE). -/
def State.readmitted (s : State) (u cause : Nat) : State :=
  let s := if isDgOff u then
      let g := groupLanes u
      let m := s.deadLanes g.1 g.2.1 - s.groupDead u * 2 ^ (16 * g.2.2)
      (s.mapChange [u] (fun s =>
        (s.puts [(F.slcDeadLanesLo_lanes, [g.1, g.2.1], m), (F.slcDeadLanesMid_lanes, [g.1, g.2.1], m / 2 ^ 64),
          (F.slcDeadLanesHi_lanes, [g.1, g.2.1], m / 2 ^ 128)]).setOwn u (entry stGood cause))).syncErasures g.1 g.2.1
    else s.mapUpdate [(u, entry stGood cause)]
  let s := if isCoreOff u then (s.unitsRestored (u - 0x80)).releaseQueues (u - 0x80) else s
  let s := if isPortOff u && decide (u < offPort 8) then
      let p := u - offPort 0
      let s := s.puts [(F.gfControl_enable, [p], 1), (F.gfStatus_width, [p], 8), (F.gfStatus_halfHigh, [p], 0)]
      let s := s.mapUpdate (State.gfLanes p (fun _ => entry stGood 0))
      let s := (List.range 8).foldl (fun s k => s.setAvail p k (s.biscTotal p k)) s
      (s.setGfState p gfUp).pump p
    else s
  s.saveSettings

/-- What a channel's test leaves: the retention test overwrites its contents (R449). -/
def State.overwriteChannel (s : State) (c n : Nat) : State :=
  let a := sliceAddr c n 0
  { s with
    mem := s.mem.filter (fun e => !(decide (a ≤ e.1) && decide (e.1 < a + 2 ^ 27)))
    poison := s.poison.filter (fun w => w / 2 ^ 19 != a / 2 ^ 27)
    symErrs := s.symErrs.filter (fun e => e.1 / 2 ^ 19 != a / 2 ^ 27) }

def State.readmit (s : State) (seq u : Nat) (retest fails : Bool) : State :=
  match s.unitReason u (readmitKind u) (s.readmitState u) with
  | some r => s.mbFail opReadmit seq r
  | none =>
    let untested := (isCoreOff u || isNbrOff u) && statusOf (s.shownAt u) == stRetired && !retest
    let cause := readmitCause u untested
    let s := if isChanOff u then s.overwriteChannel ((u - 0x100) / 32) ((u - 0x100) % 32)
      else if isNbrOff u && !untested then s.clearRegion (regionOf u) else s
    let s := if (isCoreOff u || isNbrOff u) && !untested then
        s.jigTogether [regionOf u] (if fails then [(regionOf u, none)] else [])
      else s
    if fails ∧ !untested then (s.mapUpdate [(u, entry stFailed cause)]).mbFail opReadmit seq rsTestFailed
    else (s.readmitted u cause).mbRespond opReadmit seq mbOk []

/-! ### ATTEST (R457, R458) -/

/-- The report's 256 bytes. -/
def State.attestReport (s : State) (nonce : List Byte) : List Byte :=
  let flag (f : Fld) (k : Nat) : Nat := if s.flag f then 2 ^ k else 0
  leBytes 4 0x4D4C4154 ++ leBytes 2 1 ++
  leBytes 2 (flag F.bxMixed_mixed 0 + flag F.secStatus_testOpen 1 + flag F.secStatus_fallback 2) ++
  exactly 32 nonce ++ leBytes 8 (s.get F.glbChipId_id) ++ leBytes 8 s.cadence ++
  (List.range 8).flatMap (fun k => leBytes 8 (s.reg .secFwDigest [k])) ++
  leBytes 8 (s.reg .bxCapRunning [0]) ++ leBytes 8 (s.reg .bxCapRunning [1]) ++
  (List.range 4).flatMap (fun d => leBytes 1 (Config.stepping d)) ++
  leBytes 1 (s.get F.secStatus_svnRunning) ++ leBytes 1 (s.get F.secStatus_svnFused) ++ leBytes 2 0 ++
  leBytes 4 (s.get F.mqGeneration_generation) ++ leBytes 4 (s.get F.consCtl_incarnation) ++ leBytes 8 0 ++
  exactly 32 Config.fuseDigest ++ (List.range 4).flatMap (fun k => leBytes 8 (s.reg .secIdDigest [k])) ++ leBytes 32 0

def State.attest (s : State) (seq : Nat) (b : List Byte) : State :=
  if s.flag F.secStatus_locked then s.mbRespond opAttest seq mbFailed []
  else
    let report := s.attestReport (b.take 32)
    let x := s.fresh
    let s := x.2.bump F.secAttestCount_count []
    let sig := exactly 3309 (Config.reportSignature s.sec.scan x.1 report) ++ leBytes 3 0
    let key := if fieldLE b 32 4 = 1 then
        let e := Config.endorsement.take 8192
        exactly 1952 Config.idPublicKey ++ leBytes 4 e.length ++ e
      else []
    s.mbRespond opAttest seq mbOk (report ++ sig ++ key)

/-! ### FW_UPDATE (R459) -/

def State.modFlash (s : State) (i : Nat) (f : FlashSlot → FlashSlot) : State :=
  { s with sec := { s.sec with slots := tset {} s.sec.slots i (f (tget {} s.sec.slots i)) } }

def FlashSlot.put (x : FlashSlot) (o : Nat) (b : List Byte) : FlashSlot :=
  { x with bytes := (b.zip (List.range b.length)).foldl (fun t p => tset none t (o + p.2) (some p.1)) x.bytes }

/-- The slot that is not running. -/
def State.idleSlot (s : State) : Nat := 1 - s.get F.secStatus_slot

/-- What the OP of a request that keeps its rules does. -/
def State.fwUpdate (s : State) (seq : Nat) (b : List Byte) : State :=
  let i := s.idleSlot
  let ok (s : State) : State := s.mbRespond opFw seq mbOk []
  if s.flag F.secStatus_locked then s.mbRespond opFw seq mbFailed []
  else match fieldLE b 0 1 with
  | 0 =>
    let s := s.modFlash i (fun _ => { erased := true, noTrailer := true })
    ok { s with sec := { s.sec with total := some (fieldLE b 4 4) } }
  | 1 => ok (s.modFlash i (·.put (fieldLE b 4 4) (b.drop 8)))
  | 2 =>
    (match s.imageCheck i with
    | some k =>
      (s.modFlash i (fun x => { x with noTrailer := true })).mbRespond opFw seq mbFailed (leBytes 4 k)
    | none =>
      let q := leBytes 4 (s.sec.runSeq + 1)
      ok (s.modFlash i (fun x => ({ x with noTrailer := false } : FlashSlot).put trailerOff (q ++ leBytes 4 (crc32 q)))))
  | 3 => ok (s.put F.secStatus_svnFused [] (max (s.get F.secStatus_svnFused) (s.get F.secStatus_svnRunning)))
  | _ =>
    let k := fieldLE b 4 1
    if k = s.get F.secStatus_keyIndex then s.mbRespond opFw seq mbFailed (leBytes 4 5)
    else ok (s.put F.secStatus_keyRevoked [] (putBits (s.get F.secStatus_keyRevoked) k 1 1))

/-! ### The request (R385, R387) -/

/-- AUD_CONTROL.RUN: ignored while an audit runs (R434). -/
def State.auditStart (s : State) : State :=
  if s.flag F.audStatus_running then s else s.put F.audStatus_running [] 1

/-- What an opcode does with a payload that keeps its rules. -/
def State.mbPerform (s : State) (op seq : Nat) (b : List Byte) (fails : Bool) : State :=
  let f := fieldLE b
  if op = opGetInfo then
    s.mbRespond op seq mbOk (leBytes 8 (s.reg .mbAbi []) ++ leBytes 8 (s.reg .mbFwVersion []) ++
      leBytes 8 (s.reg .bxCapRunning [0]) ++ leBytes 8 (s.reg .bxCapRunning [1]) ++ leBytes 8 (s.get F.glbChipId_id))
  else if op = opRetire then s.mbRegion op seq (f 0 2) (isCoreOff (f 0 2) || isChanOff (f 0 2) || isNbrOff (f 0 2) ||
    isPortOff (f 0 2))
  else if op = opJig then s.mbRegion op seq (f 0 2) (isCoreOff (f 0 2) || isChanOff (f 0 2))
  else if op = opReadmit then s.readmit seq (f 0 2) (bit (f 2 2) 0) fails
  else if op = opSave then s.saveSettings.mbRespond op seq mbOk []
  else if op = opWarm then (s.mbRespond op seq mbOk []).warmReset 1
  else if op = opFloor then ((s.put F.pwrFloor_w [] (f 0 4)).saveSettings).mbRespond op seq mbOk []
  else if op = opStagger then
    ((s.puts [(F.pwrStagger_period, [], f 0 4), (F.pwrStagger_offset, [], f 4 4)]).saveSettings).mbRespond op seq mbOk []
  else if op = opAttest then s.attest seq b
  else if op = opFw then s.fwUpdate seq b
  else ({ s with bring := { s.bring with mbWait := some { op := opAudit, seq := seq } } } : State).auditStart

/-- R385: a write of 1 to MB_DOORBELL.GO: the request in the buffer is processed. `fails` is the outcome of a test that the
request runs. -/
def State.mbGo (s : State) (fails : Bool) : State :=
  if !s.flag F.mbStatus_ready || s.flag F.mbStatus_busy then s.bump F.mbIgnored_count []
  else
    let h := s.peeks mbReqAddr 16
    let f := fieldLE h
    let op := f 0 2
    let seq := f 4 4
    let len := f 8 4
    let s := s.put F.mbStatus_busy [] 1
    if f 2 1 ≠ s.get F.mbAbi_major then s.mbRespond op seq mbAbiMismatch []
    else
      match opMinor op with
      | none => s.mbRespond op seq mbUnsupported []
      | some m =>
        if s.get F.mbAbi_minor < m then s.mbRespond op seq mbUnsupported []
        else
          let b := s.peeks (mbReqAddr + 16) (min len 65520)
          if f 12 4 ≠ 0 ∨ 65520 < len ∨ !s.mbPayloadOk op b then s.mbRespond op seq mbInvalid []
          else s.mbPerform op seq b fails

/-- R385: a requester's three steps: it looks at READY and BUSY, fills the request buffer, and writes GO. -/
def State.mbRequest (s : State) (op : Nat) (h : MbHead) (payload : List Byte) (fails : Bool) : State :=
  if !s.flag F.mbStatus_ready || s.flag F.mbStatus_busy then s.mbGo fails
  else
    let b := leBytes 2 op ++ [h.major, h.minor] ++ leBytes 4 h.seq.toNat ++ leBytes 4 h.length.toNat ++
      leBytes 4 h.reserved.toNat ++ payload.take 65520
    (s.pokes mbReqAddr b).mbGo fails

end Sys2Proof.Machine
end

