-- ==== Sys2Proof/Machine/Audit.lean ====
section
/-! DEFINITION. Conserved messages sent again and given up (R424), the vote (R422), the audit (R425, R426, R428) and the
resynchronisation (R427). -/

namespace Sys2Proof.Machine

/-! ### Conserved messages -/

/-- A buffered message of die `d` sent again: to this chip it is performed and acknowledged where its die takes it; to a peer it
leaves once more. -/
def State.sendAgain (s : State) (d : Nat) (m : ConsMsg) : State :=
  if m.chip = s.get F.glbChipId_id then
    match s.target m.addr with
    | .reg o =>
      (match semAt o with
      | some (c, i) =>
        if s.dieTakes d (c / 16) then
          let x := s.consOf d
          (s.setCons d { x with buffer := x.buffer.filter (fun y => y.num != m.num), acked := x.acked + 1 }).signal c i m.n
        else s
      | none => s)
    | _ => s
  else
    match s.txns.find? (fun t => t.who == .cons d m.num) with
    | none => (s.sendRequest 2 m.addr 4 d 0 (mColl d) (leBytes 4 m.n) (.cons d m.num)).1
    | some t =>
      (s.sendMessage m.chip 0 t.tc (msgHeader 2 1 4 t.tag t.master m.addr ++ padUnits (leBytes 4 m.n))).1

def State.resend (s : State) (d : Nat) : State := (s.consOf d).buffer.foldl (fun s m => s.sendAgain d m) s

/-- The messages of die `d` that a chip cannot take: on this chip, those whose die does not take them. -/
def State.unreached (s : State) (d dst : Nat) : List ConsMsg :=
  (s.consOf d).buffer.filter (fun m => m.chip == dst &&
    (dst != s.get F.glbChipId_id || (match s.target m.addr with
      | .reg o => (match semAt o with
        | some (c, _) => !s.dieTakes d (c / 16)
        | none => true)
      | _ => true)))

/-- R424: GIVEUP_MS has passed: the messages for a destination are dropped, counted and reported. -/
def State.giveUp (s : State) (d dst : Nat) : State :=
  let l := s.unreached d dst
  if l.isEmpty then s
  else
    let x := s.consOf d
    let gone (n : Nat) : Bool := l.any (fun m => m.num == n)
    let s := s.setCons d { x with buffer := x.buffer.filter (fun m => !gone m.num), dropped := x.dropped + l.length }
    let s := { s with txns := s.txns.filter (fun t => match t.who with
      | .cons d' n => !(d' == d && gone n)
      | _ => true) }
    (s.bump F.consDropped_count [] l.length).fault d
      (s.record kConsGiveup 0 (offDie d) (address := dst * 2 ^ 44) (detail := l.length))

/-! ### The background vote (R422) -/

def voteClass : VoteLost → Nat
  | .map => 0
  | .fuse => 1
  | .golfort _ | .bennex _ | .mesh _ => 2
  | .security => 3
  | .settings => 4

/-- Minority copies rewritten by class, and what a word of which all copies differ brings about. A lost map word is rebuilt as it
was, from what it was built from. -/
def State.vote (s : State) (corrected : List Nat) (lost : Option VoteLost) : State :=
  let s := (List.range 5).foldl (fun s k =>
    let n := corrected.getD k 0
    if n = 0 then s else s.voteCorrected k n) s
  match lost with
  | none => s
  | some w =>
    let s := s.voteFail (voteClass w)
    match w with
    | .golfort p => s.enterRetraining p
    | .bennex ep => s.bxRetrain ep.1 ep.2
    | .mesh d => s.partialReset d causeTotals kDieReset causeTotals
    | .security => s.put F.secStatus_locked [] 1
    | .settings => s.modBring (fun b => { b with header := false })
    | .map | .fuse => s

/-! ### The audit -/

/-- A die whose instances are not checked. -/
def State.dieOff (s : State) (d : Nat) : Bool := s.dieInReset d || s.dieSt d == stOffline

/-- An instance of a class: its index, whether it is not checked, its total and its terms. -/
structure AudInst where
  index : Nat
  off : Bool
  total : Nat
  terms : Nat
  deriving DecidableEq, Repr

def sumOf (n : Nat) (f : Nat → Nat) : Nat := ((List.range n).map f).sum

/-- R425: the instances of a class; `flight`, what the link hardware counted: instance, flits and returns in
flight. -/
def State.audInstances (s : State) (k : Nat) (flight : List (Nat × Nat)) : List AudInst :=
  let fl (i : Nat) : Nat := ((flight.filter (fun f => f.1 == i)).map Prod.snd).sum
  let m (x : Int) : Nat := (x.emod (2 ^ 64)).toNat
  match k with
  | 0 => (List.range 8).map (fun p =>
      let up := s.gfState p == gfUp
      { index := p, off := s.dieOff (p / 2), total := if up then sumOf 8 (s.biscTotal p) else 0
        terms := if up then sumOf 8 (s.avail p) + fl p else 0 })
  | 1 => (List.range 4).map (fun x =>
      let up := s.linkUp x
      let all (f : Fld) : Nat := sumOf 8 (fun i => s.get f [x, i / 4, i % 4])
      { index := x, off := s.dieOff x || s.dieOff ((x + 1) % 4), total := if up then all F.bxBisc_total else 0
        terms := if up then all F.bxBisc_avail + all F.bxBisc_used + fl x else 0 })
  | 2 => [{ index := 0, off := (List.range 4).any s.dieOff, total := Config.meshTotal, terms := Config.meshTotal }]
  | 3 => ((List.range 64).filter s.coreUsable).map (fun c =>
      let held := ((List.range 4).filter (fun k => (s.slot c k).isSome)).length
      { index := c, off := s.dieOff (c / 16), total := 4, terms := (4 - held) + held })
  | 4 => (List.range 4096).map (fun q =>
      { index := q, off := s.dieOff (q / 1024), total := tget 0 s.posted q, terms := tget 0 s.finals q + s.ringCount q })
  | 5 => [false, true].map (fun far =>
      let free := sumOf 64 (fun c => s.get (if far then F.kvFarFree_count else F.kvNearFree_count) [c])
      let held := sumOf 64 (fun c => s.get (if far then F.kvHeld_far else F.kvHeld_near) [c])
      { index := if far then 1 else 0, off := (List.range 4).any s.dieOff
        total := s.get (if far then F.audKvTotal_far else F.audKvTotal_near)
        terms := free + held + (s.loans.filter (fun l => l.far == far)).length })
  | 6 => (List.range 2048).map (fun i =>
      let ix := [i / 32, i % 32]
      { index := i, off := s.dieOff (i / 512), total := s.get F.tokMinted_count ix
        terms := (s.get F.tokConsumed_count ix + 2 ^ 32 - s.get F.tokReturned_count ix +
          sumOf 5 (fun r => s.tokens (i / 32) (i % 32) r)) % 2 ^ 32 })
  | 7 => (List.range 64).map (fun c =>
      { index := c, off := s.dieOff (c / 16), total := m ((s.core c).semIn - (s.core c).semOut : Int)
        terms := sumOf 256 (fun i => s.get F.semValue_value [c, i]) })
  | _ => (List.range 4).map (fun d =>
      let x := s.consOf d
      { index := d, off := s.dieOff d, total := x.sent, terms := x.acked + x.buffer.length + x.dropped })

/-- R426: the audit that runs ends: the sums, the passes, the first failure and its record, and the answer of R428. A class passes
when no instance that was checked breaks its invariant. -/
def State.auditEnd (s : State) (flight : List (Nat × Nat × Nat)) : State :=
  if !s.flag F.audStatus_running then s
  else
    let cls : List (List AudInst) := (List.range 9).map (fun k =>
      s.audInstances k ((flight.filter (fun f => f.1 == k)).map Prod.snd))
    let bad (l : List AudInst) : Option AudInst := l.find? (fun i => !i.off && i.total != i.terms)
    let maskWhere (p : List AudInst → Bool) : Nat :=
      ((cls.zip (List.range 9)).map (fun x => if p x.1 then 2 ^ x.2 else 0)).sum
    let fail := maskWhere (fun l => (bad l).isSome)
    let part := maskWhere (fun l => l.any AudInst.off)
    let s := (cls.zip (List.range 9)).foldl (fun s x =>
      s.puts [(F.audExpected_sum, [x.2], (x.1.map AudInst.total).sum), (F.audFound_sum, [x.2], (x.1.map AudInst.terms).sum)]) s
    let s := s.puts [(F.audStatus_pass, [], 511 - fail), (F.audStatus_inconclusive, [], part), (F.audStatus_running, [], 0),
      (F.audStatus_done, [], 1)]
    let s := match (cls.zip (List.range 9)).findSome? (fun x => (bad x.1).map (fun i => (x.2, i.index))) with
      | none => s
      | some f =>
        let s := s.puts [(F.audFirstFail_class, [], f.1), (F.audFirstFail_instance, [], f.2), (F.fltStatus_auditFail, [], 1)]
        s.fault 0 (s.record kAuditFail 0 unitPackage (detail := fail))
    match s.bring.mbWait with
    | some w =>
      if w.op = opAudit then
        s.mbRespond opAudit w.seq mbOk (leBytes 4 (511 - fail) ++ leBytes 4 part ++ leBytes 8 s.cadence ++
          (List.range 9).flatMap (fun k => leBytes 8 (s.reg .audExpected [k]) ++ leBytes 8 (s.reg .audFound [k])))
      else s
    | none => s

/-! ### Resynchronisation (R427) -/

def State.listHead (s : State) (c : Nat) (far : Bool) : Nat :=
  s.get (if far then F.kvFarHead_address else F.kvNearHead_address) [c]

/-- A frame whose link word names the old head is the first of a core's list. -/
def State.joined (s : State) (c frame : Nat) (far : Bool) : State :=
  let head := if far then F.kvFarHead_address else F.kvNearHead_address
  let free := if far then F.kvFarFree_count else F.kvNearFree_count
  s.puts [(head, [c], frame), (free, [c], s.get free [c] + 1)]

/-- A frame that was taken for a request that is gone joins its borrower's list: near, or far where it is a far frame. Its link
word is written where its memory can be reached. -/
def State.joinList (s : State) (c frame : Nat) (far : Bool) : State :=
  let a := selfAddr frame
  let t := if s.targetStatus (mCore c) (s.target a) 8 = 0 then s.pokeLE frame 8 (s.listHead c far) else s
  t.joined c frame far

/-- Frame reconcile for die `d`: a frame in transit to a core of the die joins that core's list and is acknowledged; so does one
acknowledged and not linked. One lent by the die to another stays in transit. -/
def State.reconcile (s : State) (d : Nat) : State :=
  let here (c : Nat) : Bool := c / 16 == d
  let mine := s.loans.filter (fun l => here l.borrower)
  let s := { s with loans := s.loans.filter (fun l => !here l.borrower) }
  let s := mine.foldl (fun s l =>
    (s.put F.kvPending_count [l.lender] (s.get F.kvPending_count [l.lender] - 1)).joinList l.borrower l.frame l.far) s
  (List.range 16).foldl (fun s i =>
    let c := 16 * d + i
    let got := tget [] s.gotFrames c
    let s := { s with gotFrames := tset [] s.gotFrames c [] }
    got.foldl (fun s g =>
      let f := if g.1 then F.kvHeld_far else F.kvHeld_near
      (s.put f [c] (s.get f [c] - 1)).joinList c g.2 g.1) s) s

/-- The phases of R427 for a die: link sync, message replay, frame reconcile, audit. -/
def State.resync (s : State) (d : Nat) : State :=
  if s.dieInReset d then s
  else
    let s := [d, (d + 3) % 4].foldl (fun s x => [0, 1].foldl (fun s e =>
      if s.bxState x e = bxUp then (List.range 4).foldl (fun s v =>
        s.put F.bxBisc_avail [x, e, v] (s.get F.bxBisc_total [x, e, v] - s.get F.bxBisc_used [x, e, v])) s
      else s) s) s
    let s := (List.range 4).foldl (fun s a => s.resend a) s
    (s.reconcile d).auditStart

end Sys2Proof.Machine
end

