-- ==== Sys2Proof/Machine/Regs.lean ====
section
/-! DEFINITION. Register accesses (R4 to R8): what a read of a register returns, what a write of it does, and doorbells
(R377). -/

namespace Sys2Proof.Machine

/-! ### Reads -/

/-- The slot that issues on a core (R79). -/
def State.issuing (s : State) (c : Nat) : Option Nat :=
  (List.range 4).find? (fun k => match s.slot c k with
    | some sl => sl.phase == .issuing
    | none => false)

def State.freeSlots (s : State) (c : Nat) : Nat := ((List.range 4).filter (fun k => (s.slot c k).isNone)).length

def State.depth (s : State) (c : Nat) (u : UnitId) : Nat := ((s.core c).queue u).length

/-- The fields that report what the state holds elsewhere. -/
def State.computed (s : State) (k : RegKind) (idx : List Nat) : List (Fld × Nat) :=
  match k, idx with
  | .coreStatus, [c] =>
    [(F.coreStatus_seq, if (s.issuing c).isSome then 1 else if s.flag F.coreControl_hold [c] then 3 else 0),
     (F.coreStatus_slot, (s.issuing c).getD 0), (F.coreStatus_freeSlots, s.freeSlots c)]
  | .evClr, [c] => [(F.evClr_flags, s.get F.evSet_flags [c])]
  | .mxaStatus, [c] => [(F.mxaStatus_queueDepth, s.depth c .matrix)]
  | .vsuStatus, [c] =>
    [(F.vsuStatus_vecQueueDepth, s.depth c .vector), (F.vsuStatus_rstQueueDepth, s.depth c .rowstat)]
  | .attStatus, [c] => [(F.attStatus_queueDepth, s.depth c .attention), (F.attStatus_kvQueueDepth, s.depth c .kv)]
  | .nbStatus, [c, n] => [(F.nbStatus_nextPending, if (s.nextRun c n).isSome then 1 else 0)]
  | .spadOwner, [c] =>
    let d := s.get F.spadOwner_dma [c]
    [(F.spadOwner_dma, d - Nat.land d (s.get F.spadOwner_handover [c]))]
  | .dmaStatus, [c, e] => [(F.dmaStatus_queueDepth, (s.eng c e).queue.length)]
  | .netTcState, [d, t] => [(F.netTcState_outstanding, sat 13 (s.outstanding d t))]
  | .consBuffered, [] =>
    [(F.consBuffered_count, ((List.range 4).map (fun d => (s.consOf d).buffer.length * 2 ^ (9 * d))).sum)]
  | _, _ => []

def State.regValue (s : State) (k : RegKind) (idx : List Nat) : Nat :=
  (s.computed k idx).foldl (fun v p => putBits v p.1.lo p.1.len p.2) (s.reg k idx)

/-- Fields that measure time, or count what the model has no command for: free values. -/
def measures (s : State) (k : RegKind) (idx : List Nat) : List Fld :=
  match k with
  | .mxaBusyCycles => [F.mxaBusyCycles_count]
  | .mxaStreamCycles => [F.mxaStreamCycles_count]
  | .vsuBusyCycles => [F.vsuBusyCycles_count]
  | .cadPhase => [F.cadPhase_ns]
  | .pwrCoolant => [F.pwrCoolant_ageMs]
  | .spadDmaWaitMax => [F.spadDmaWaitMax_count]
  | .gfFecCorr => [F.gfFecCorr_count]
  | .gfFecUncorr => [F.gfFecUncorr_count]
  | .slcScrubLap => if s.get F.slcScrubLaps_count idx = 0 then [] else [F.slcScrubLap_lapUs]
  | _ => []

/-- R296: requests of class `t` may fill an egress buffer of a real-time master: those of the ports, of the collective engines and of
the preview stream. The spec gives no capacities, so the fill, and the urgency it drives, are free. -/
def State.urgent (s : State) (d t : Nat) : Bool :=
  s.outstanding d t != 0 || s.gf.any (fun e => e.2.queue.any (fun f => f.tc == t) || e.2.retry.any (fun f => f.tc == t)) ||
    s.groups.any (fun e => (e.2.bind Group.run).isSome)

/-- R294: NET_TC_STATE as read: its urgency, and the effective priority that it raises. -/
def State.readTcState (s : State) (d t : Nat) : State × Nat :=
  let v := s.regValue .netTcState [d, t]
  if s.urgent d t then
    let x := s.fresh
    let u := Config.cycles x.1 % 4
    (x.2, putBits (putBits v F.netTcState_urgency.lo F.netTcState_urgency.len u)
      F.netTcState_effective.lo F.netTcState_effective.len (s.get F.netTcState_effective [d, t] - u))
  else (s, v)

/-- A register read (R4). -/
def State.regRead (s : State) (k : RegKind) (idx : List Nat) : State × Nat :=
  match k, idx with
  | .netTcState, [d, t] => s.readTcState d t
  | _, _ =>
  (measures s k idx).foldl (fun (r : State × Nat) f =>
    let x := r.1.fresh
    let v := match k with
      | .cadPhase => Config.cycles x.1 % 1000
      | _ => Config.cycles x.1
    (x.2, putBits r.2 f.lo f.len v)) (s, s.regValue k idx)

/-! ### Writes -/

/-- The part of a field that bits `lo` to `lo + len - 1` of the register cover: its lowest bit and width. -/
def Fld.part (f : Fld) (lo len : Nat) : Nat × Nat :=
  let a := max f.lo lo
  (a, min (f.lo + f.len) (lo + len) - a)

/-- R4, R5: a register after a write of bits `lo` to `lo + len - 1`. -/
def written (k : RegKind) (old lo len v : Nat) : Nat :=
  k.fields.foldl (fun r f =>
    let p := f.part lo len
    let cur := bits r p.1 p.2
    let new := bits v p.1 p.2
    match f.acc with
    | .rw | .rws => putBits r p.1 p.2 new
    | .w1c => putBits r p.1 p.2 (cur - Nat.land cur new)
    | .w1s => putBits r p.1 p.2 (Nat.lor cur new)
    | .ro | .wo => r) old

/-- A field of a written value, where the write covers it; 0 elsewhere. -/
def Fld.of (f : Fld) (v : Nat) : Nat := bits v f.lo f.len
def Fld.on (f : Fld) (v : Nat) : Bool := f.of v == 1

/-- R250: ARB_RANK names each of the codes 0 to 4 once. -/
def rankOk (o : Nat) : Bool := (List.range 5).all (fun r => (List.range 5).any (fun i => bits o (3 * i) 3 == r))

/-- R336: CAD_CTL.REAGREE. -/
def State.reagree (s : State) : State :=
  { s.put F.cadStatus_agreed [] 0 with cad := { s.cad with adopted := none } }

/-- An error injected into the next instruction of the matrix array, or of the vector or row statistics unit: in its first
pass, or in both (R126, R157). -/
def State.injectMxa (s : State) (c n : Nat) : State := s.modCore c (fun x => { x with injMxa := n })
def State.injectVsu (s : State) (c n : Nat) : State := s.modCore c (fun x => { x with injVsu := n })

/-- R199, R209: NB_STATUS.DONE and its mirror are cleared together. -/
def State.clearDone (s : State) (c n : Nat) : State :=
  s.puts [(F.nbStatus_done, [c, n], 0), (F.nbDoneSummary_done, [c], putBits (s.get F.nbDoneSummary_done [c]) n 1 0)]

/-- A store of what the write leaves in the register. -/
def State.store (s : State) (k : RegKind) (idx : List Nat) (lo len v : Nat) : State :=
  s.setReg k idx (written k (s.reg k idx) lo len v)

/-- A write of a register: `v` stands at its place in the register, bits `lo` to `lo + len - 1` of which are written; bits of `v`
outside them are zero. -/
def State.regWrite (s : State) (k : RegKind) (idx : List Nat) (lo len v : Nat) : State :=
  let plain : State := s.store k idx lo len v
  let covers (f : Fld) : Bool := decide (lo ≤ f.lo) && decide (f.lo < lo + len)
  match k, idx with
  | .glbChipId, _ => if s.anyTrained then s else plain
  | .evSet, [c] => s.setEvents c v
  | .evClr, [c] => s.clearEvents c v
  | .semSignal, [c, i] => s.signal c i (v % 2 ^ 32)
  | .semValue, [c, i] => s.setSem c i (v % 2 ^ 32)
  | .qSched, [c, j] => s.writeSched (64 * c + j) v
  | .qControl, [c, j] => s.writeQControl (64 * c + j) v
  | .qRingCfg, [c, j] => s.writeRingCfg (64 * c + j) v
  | .qRingBase, [c, j] | .qCqBase, [c, j] => if s.ringWritable (64 * c + j) then plain else s.ctrlIgnored c
  | .mxaControl, [c] =>
    let s := if F.mxaControl_inject.on v then s.injectMxa c 1 else s
    if F.mxaControl_injectTwice.on v then s.injectMxa c 2 else s
  | .vsuControl, [c] =>
    let s := if F.vsuControl_inject.on v then s.injectVsu c 1 else s
    if F.vsuControl_injectTwice.on v then s.injectVsu c 2 else s
  | .kvControl, [c] =>
    if s.flag F.kvControl_enable [c] then plain.put F.kvControl_frameCode [c] (s.get F.kvControl_frameCode [c]) else plain
  | .kvSeqTableBase, [c] | .kvNearHead, [c] | .kvNearFree, [c] | .kvFarFree, [c] =>
    if s.flag F.kvControl_enable [c] then s else plain
  | .kvFarHead, [c] => if s.flag F.kvControl_enable [c] then s else { plain with farEmpty := nsDel plain.farEmpty c }
  | .nbMode, [c, n] => s.writeMode c n (F.nbMode_req.of v)
  | .nbStatus, [c, n] => if F.nbStatus_done.on v then s.clearDone c n else s
  | .nbDoneSummary, [c] => (List.range 32).foldl (fun s n => if bit v n then s.clearDone c n else s) s
  | .spadHandover, [c] => s.handover c (F.spadHandover_mask.of v) (F.spadHandover_target.on v)
  | .dmaSubmit, [c, e] => s.dmaSubmit c e v (len == 64)
  | .dmaControl, [c, e] => s.dmaControl c e v
  | .slcDeadLanesLo, [c, n] => s.losing (s.killLanes c n (v % 2 ^ 64) 7) c n
  | .slcDeadLanesMid, [c, n] => s.losing (s.killLanes c n (v % 2 ^ 64 * 2 ^ 64) 7) c n
  | .slcDeadLanesHi, [c, n] => s.losing (s.killLanes c n (v % 2 ^ 16 * 2 ^ 128) 7) c n
  | .slcRefreshCtl, [c, n] => plain.setRate c n
  | .arbLoad, [c, n] => if F.arbLoad_load.on v then s.arbLoadTable c n else s
  | .arbRank, _ => if rankOk v then plain else s
  | .netTcCfg, [d, t] => plain.regulate d t
  | .netRtCfg, ix =>
    if plain.get F.netRtCfg_low ix ≤ plain.get F.netRtCfg_mid ix ∧ plain.get F.netRtCfg_mid ix ≤ plain.get F.netRtCfg_high ix
    then plain else s
  | .fpControl, [f] =>
    let s := if F.fpControl_perst.on v then plain.farPerst f else plain
    if F.fpControl_retrain.on v then s.farRetrain f else s
  | .gfControl, [p] =>
    let en := F.gfControl_enable.on v
    let s := (plain.put F.gfControl_enable [p] (s.get F.gfControl_enable [p])).gfEnable p en
    if F.gfControl_retrain.on v then s.enterRetraining p else s
  | .gfRouteRegion, _ | .gfRouteLocal, _ =>
    let t := s.reroute (fun t => t.store k idx lo len v)
    { t with settling := nsIns t.settling (regAddr k idx) }
  | .gfBiscTotal, p :: _ => if s.gfState p = gfDisabled then plain else s
  | .cadCtl, _ => if F.cadCtl_reagree.on v then plain.reagree else plain
  | .bxControl, [x, e] =>
    let s := if F.bxControl_retrain.on v then plain.bxRetrain x e else plain
    if F.bxControl_restart.on v then s.bxRestart x e 0 else s
  | .bxBisc, [x, e, _] => if s.bxState x e = bxDown then plain else s
  | .mbDoorbell, _ => if F.mbDoorbell_go.on v then s.mbGo false else s
  | .pwrCap, _ => if s.get F.pwrFloor_w ≤ F.pwrCap_w.of v ∧ F.pwrCap_w.of v ≤ 2200 then plain else s
  | .bruDieReset, _ =>
    if covers F.bruDieReset_req then
      (List.range 4).foldl (fun s d => if bit v d then s.partialReset d causeReq kDieReset causeReq else s) s
    else s
  | .audControl, _ => if F.audControl_run.on v then s.auditStart else s
  | _, _ => plain

/-! ### Accesses by offset (R6, R7) -/

/-- R481: a command that is a write of a register acts where the register's block is served; elsewhere it is counted (R6). -/
def State.atReg (s : State) (k : RegKind) (idx : List Nat) (f : State → State) : State :=
  if s.regServed mHostIo (regAddr k idx) then f s else s.unmapped

/-- One naturally aligned half of 32 bits read. -/
def State.readHalf (s : State) (m o : Nat) : State × Nat :=
  match regAt o with
  | some (k, idx, b) =>
    if s.regServed m o then
      let r := s.regRead k idx
      (r.1, bits r.2 (8 * b) 32)
    else (s.unmapped, 0)
  | none => (s.unmapped, 0)

/-- A register is served at an offset. -/
def State.halfServed (s : State) (m o : Nat) : Bool := (regAt o).isSome && s.regServed m o

/-- A register access of 4 or 8 bytes: a whole 64-bit register at once, otherwise each half; one that meets no register at all
is one access to an undefined offset (R6). -/
def State.regAccess (s : State) (m o : Nat) (op : MemOp) : State × List Byte :=
  let zero : List Byte := match op with | .rd n => List.replicate n 0#8 | .wr _ => []
  if !((op.len == 4 || op.len == 8) && o % op.len == 0) then (s.unmapped, zero)
  else
    let whole : Option (RegKind × List Nat) :=
      match regAt o with
      | some (k, idx, 0) => if op.len = 8 ∧ k.bytes = 8 then some (k, idx) else none
      | _ => none
    match whole, op with
    | some (k, idx), .rd _ =>
      if s.regServed m o then
        let r := s.regRead k idx
        (r.1, leBytes 8 r.2)
      else (s.unmapped, zero)
    | some (k, idx), .wr bs => if s.regServed m o then (s.regWrite k idx 0 64 (leOf bs), []) else (s.unmapped, [])
    | none, .rd n =>
      if n = 8 ∧ !s.halfServed m o ∧ !s.halfServed m (o + 4) then (s.unmapped, zero)
      else
      let a := s.readHalf m o
      if n = 4 then (a.1, leBytes 4 a.2)
      else
        let b := a.1.readHalf m (o + 4)
        (b.1, leBytes 4 a.2 ++ leBytes 4 b.2)
    | none, .wr bs =>
      if bs.length = 8 ∧ !s.halfServed m o ∧ !s.halfServed m (o + 4) then (s.unmapped, [])
      else
      let half (s : State) (o v : Nat) : State :=
        match regAt o with
        | some (k, idx, b) => if s.regServed m o then s.regWrite k idx (8 * b) 32 (v * 2 ^ (8 * b)) else s.unmapped
        | none => s.unmapped
      let s := half s o (leOf (bs.take 4))
      if bs.length = 4 then (s, []) else (half s (o + 4) (leOf (bs.drop 4)), [])

/-- R377: an access to a doorbell page. -/
def State.doorAccess (s : State) (o : Nat) (op : MemOp) : State × List Byte :=
  let q := o / 0x1000
  let r := o % 0x1000
  let zero : List Byte := match op with | .rd n => List.replicate n 0#8 | .wr _ => []
  if !((op.len == 4 || op.len == 8) && o % op.len == 0) || !(r == 0 || r == 8) then (s.unmapped, zero)
  else
    let s := match op with
      | .rd _ => s
      | .wr bs => if r = 0 then s.writeTail q (leOf bs % 2 ^ 16) else s.writeCqHead q (leOf bs % 2 ^ 16)
    (if op.len = 8 then s.unmapped else s, zero)

end Sys2Proof.Machine
end

