-- ==== Sys2Proof/Machine/Access.lean ====
section
/-! DEFINITION. Accesses of any master to any address: memory in pieces of 64 bytes (R48), registers, doorbells; the accesses
of the core's instructions (R217, R220, R235); adder requests (R271); the messages of peers (R310). -/

namespace Sys2Proof.Machine

/-- The pieces of an access, one for each 64-byte location it touches (R48). -/
def addrPieces (addr len : Nat) : List (Nat × Nat) := (linePieces addr len).map (fun p => (p.1 % 2 ^ 64, p.2))

/-- What an access does within the piece of `n` bytes that begins `o` bytes after its first. -/
def MemOp.part (op : MemOp) (o n : Nat) : MemOp :=
  match op with
  | .rd _ => .rd n
  | .wr bs => .wr ((bs.drop o).take n)

/-- The target of an access by a master: the host does not reach the host window (R40). -/
def State.targetFor (s : State) (m addr : Nat) : Target :=
  match s.target addr with
  | .host x => if m = mHostIo ∨ m = mHostMem then .reserved else .host x
  | t => t

/-- The pieces performed one after the other; a piece that fails gives the access its status. -/
def accessPieces (m tc addr : Nat) (op : MemOp) : List (Nat × Nat) → Nat → State → State × Ans
  | [], _, s => (s, .ok [])
  | p :: t, o, s =>
    let x := s.storeAccess m tc p.1 (op.part o p.2)
    let r := accessPieces m tc addr op t (o + p.2) x.1
    (r.1, match x.2, r.2 with
      | .ok a, .ok b => .ok (a ++ b)
      | .ok _, y => y
      | y, _ => y)

/-- An access to memory: one that some piece's target cannot serve fails wholly, without effect (R45, R47); one with a piece
that is held waits wholly. -/
def State.memAccess (s : State) (m tc addr : Nat) (op : MemOp) : State × Ans :=
  let ps := addrPieces addr op.len
  match ps.find? (fun p => s.targetStatus m (s.targetFor m p.1) p.2 != 0) with
  | some p =>
    let st := s.targetStatus m (s.targetFor m p.1) p.2
    (s.addrError st m op.isWrite p.1, .fail st)
  | none =>
    if ps.any (fun p => s.held m (s.targetFor m p.1) p.2) then (s, .hold)
    else accessPieces m tc addr op ps 0 s

/-- One access of a master. -/
def State.access (s : State) (m tc addr : Nat) (op : MemOp) : State × Ans :=
  match s.target addr with
  | .reg o =>
    if winCxl o then (s, .cxl)
    else if isWindow o then s.storeAccess m tc addr op
    else
      let r := s.regAccess m o op
      (r.1, .ok r.2)
  | .door o =>
    let r := s.doorAccess o op
    (r.1, .ok r.2)
  | _ => s.memAccess m tc addr op

/-- R53: where a peer's request was captured as a failed access, the source chip stands in bits [63:44] of the address. -/
def State.namesSource (s t : State) (src : Nat) : State :=
  if s.flag F.glbAddrErrStatus_valid || !t.flag F.glbAddrErrStatus_valid then t
  else t.put F.glbAddrErrAddr_address [] (src % 2 ^ 20 * 2 ^ 44 + t.get F.glbAddrErrAddr_address % 2 ^ 44)

/-- Accesses that wait beside the machine are tried again, in the order in which they came. -/
def State.retryHeld (s : State) : State :=
  s.heldAcc.foldl (fun s a =>
    let op : MemOp := match a.wr with | none => .rd a.len | some bs => .wr bs
    let r := s.access a.master a.tc (selfAddr a.addr) op
    match r.2 with
    | .hold => { s with heldAcc := s.heldAcc ++ [a] }
    | x =>
      let t := match a.who with | .peer src _ _ _ => s.namesSource r.1 src | _ => r.1
      (t.regulated a.master a.tc).answerTo a.who x) { s with heldAcc := [] }

/-! ### Adder requests (R271) -/

/-- The channel of an address's local part, in a slice. -/
def sliceOf (addr : Nat) : Option (Nat × Nat × Nat) :=
  match targetOfLocal (localOf addr) with
  | .slice c n off => some (c, n, off)
  | _ => none

/-- An adder request that reaches this chip: queued at its channel's adder, or failed with the status that its master receives:
an address status, or ATOM_INVALID for a target without an adder or a request that the adder does not perform. -/
def State.postAdd (s : State) (op addr operand tag tagAddr m tc : Nat) (who : Waiter) : State × Option Nat :=
  match sliceOf addr with
  | none => (s.addrError stAtomInvalid m true addr, some stAtomInvalid)
  | some (c, n, off) =>
    let st := s.targetStatus m (.slice c n off) (addSize op)
    if st ≠ 0 then (s.addrError st m true addr, some st)
    else if addInvalid op addr operand tag tagAddr then (s.bump F.slcAtomReject_count [c, n], some stAtomInvalid)
    else
      let tagOff := match sliceOf tagAddr with
        | some x => x.2.2
        | none => 0
      ((s.modChan c n (fun x => { x with adder := x.adder ++
        [{ op := op, off := off, operand := operand, tag := tag, tagOff := if tag = 0 then 0 else tagOff, master := m, tc := tc,
           who := who }] })).regulated m tc, none)

/-! ### Accesses of instructions -/

/-- How the issue of a sequencer instruction goes: it is done, it stays to be issued again, or its access reaches the CXL
component registers. -/
inductive Begun where
  | done (s : State)
  | stay
  | cxl
  deriving DecidableEq, Repr

/-- The access of an instruction is outstanding. -/
def State.awaits (s : State) (c : Nat) (e : UEntry) : State :=
  s.modSlot c e.slot.val (fun sl => { sl with waits := sl.waits ++ [e] })

def State.isAwaiting (s : State) (c : Nat) (e : UEntry) : Bool :=
  match s.slot c e.slot.val with
  | some sl => sl.waits.any (fun x => x.seq == e.seq)
  | none => false

def UEntry.who (e : UEntry) (c : Nat) : Waiter := .core c e.slot.val e.seq

/-- A request to a peer chip for an instruction; without a route it fails (R45). -/
def State.peerRequest (s : State) (c : Nat) (e : UEntry) (tc opc : Nat) (x : CoreAccess) (atomOp aux : Nat := 0)
    (data : List Byte) : State :=
  let r := s.sendRequest opc x.addr (if opc = 1 then x.op.len else data.length) (c / 16) tc (mCore c) data (e.who c) atomOp 0 aux
  if r.2 then r.1.awaits c e
  else (s.addrError stNoRoute (mCore c) (opc != 1) x.addr).finishAccess c e x.addr x.sa (.fail stNoRoute)

/-- R217, R220, R235: the access of a load, a store, a TDLD, a TDST or a SEMSIGR. -/
def State.beginAccess (s : State) (c : Nat) (e : UEntry) (tc : Nat) (x : CoreAccess) : Begun :=
  let m := mCore c
  let local' (s : State) : State × Ans :=
    let r := s.access m tc x.addr x.op
    match r.2 with
    | .hold => ((s.awaits c e).parkAccess m tc x.addr x.op (e.who c), .hold)
    | _ => r
  match x.signal with
  | some n =>
    let r := s.signalTo m tc x.addr n local'
    match r.2 with
    | .hold => if r.1.isAwaiting c e then .done r.1 else .stay
    | .cxl => .cxl
    | a => .done (r.1.finishAccess c e x.addr x.sa a)
  | none =>
    match s.target x.addr with
    | .peer _ =>
      .done (match x.op with
        | .rd _ => s.peerRequest c e tc 1 x 0 0 []
        | .wr bs => s.peerRequest c e tc 2 x 0 0 bs)
    | _ =>
      let r := local' s
      match r.2 with
      | .hold => .done r.1
      | .cxl => .cxl
      | a => .done (r.1.finishAccess c e x.addr x.sa a)

/-- R217: a posted addition of an ATADD, by OP and operand. -/
def State.beginAdd (s : State) (c : Nat) (e : UEntry) (tc op operand : Nat) (x : CoreAccess) : State :=
  match s.target x.addr with
  | .peer _ => s.peerRequest c e tc 3 x op 0 (leBytes (if op = 4 then 16 else 8) operand)
  | .noRoute => (s.addrError stNoRoute (mCore c) true x.addr).finishAccess c e x.addr x.sa (.fail stNoRoute)
  | _ =>
    let r := s.postAdd op x.addr operand 0 0 (mCore c) tc (e.who c)
    match r.2 with
    | none => r.1.awaits c e
    | some st => r.1.finishAccess c e x.addr x.sa (.fail st)

/-! ### Messages of peers (R310) -/

/-- A READ or WRITE of a peer: answered, or kept where it is held; none at the CXL component registers. -/
def State.peerMessage (s : State) (src txn tc addr : Nat) (op : MemOp) : Option State :=
  let who := Waiter.peer src txn tc (!op.isWrite)
  let r := s.access mPeer tc addr op
  match r.2 with
  | .hold => some (s.parkAccess mPeer tc addr op who)
  | .cxl => none
  | a => some ((s.namesSource r.1 src).answerTo who a)

/-- An ADD of a peer. -/
def State.peerAdd (s : State) (src txn tc addr op operand tag tagAddr : Nat) : State :=
  let who := Waiter.peer src txn tc false
  let r := s.postAdd op addr operand tag tagAddr mPeer tc who
  match r.2 with
  | none => r.1
  | some st => (s.namesSource r.1 src).answerTo who (.fail st)

end Sys2Proof.Machine
end

