-- ==== Sys2Proof/Machine/DmaRun.lean ====
section
/-! DEFINITION. DMA descriptors as the engines run them (R251 to R254). -/

namespace Sys2Proof.Machine

/-- A field of a descriptor held as one little-endian number. -/
def dmaField (im off n : Nat) : Nat := bits im (8 * off) (8 * n)
def dmaFill (im : Nat) : Bool := bit im 0
def dmaChain (im : Nat) : Bool := bit im 2
def dmaSigEn (im : Nat) : Bool := bit im 3
def dmaLen (im : Nat) : Nat := dmaField im 0x04 4
def dmaRows (im : Nat) : Nat := dmaField im 0x18 4
def dmaNext (im : Nat) : Nat := dmaField im 0x30 8

/-- R252, DESC_INVALID: reserved codes and bits, and fields out of range. -/
def dmaValid (im : Nat) : Bool :=
  !bit im 1 && bits im 4 28 == 0 && dmaLen im != 0 && decide (1 ≤ dmaRows im) && decide (dmaRows im ≤ 65536) &&
  (!dmaChain im || dmaNext im % 64 == 0) && (!dmaSigEn im || dmaField im 0x38 8 % 8 == 0)

/-- The address of byte `b` of row `r` from a base and a signed stride. -/
def dmaAddr (base stride r b : Nat) : Nat := ((base : Int) + r * toSigned 64 stride + b).emod (2 ^ 64) |>.toNat

/-- R252: the code of a failed access. -/
def dmaCode (status : Nat) : Nat :=
  if status = stParity then 3 else if status = stMemData then 4 else if status = stUnusable then 5
  else if status = stAddrOffline then 6 else 7

/-- The engine reads the descriptor at `a` for a chain and holds it. A descriptor that cannot be read, or is not valid, ends
DESC_INVALID. -/
def State.dmaLoad (s : State) (c e : Nat) (x : DmaEng) (r : DmaReq) (a : Nat) : Option State :=
  let y := s.access (mDma c e) r.tc a (.rd 64)
  let hold (s : State) (im : Nat) : State :=
    (s.setEng c e { queue := x.queue, req := some r, desc := a, image := im, code := if dmaValid im then none else some 2
                    flush := x.flush }).put F.dmaStatus_state [c, e] dmaActive
  match y.2 with
  | .ok b => some (hold y.1 (leOf b))
  | .fail _ => some (hold y.1 0)
  | .hold => some s
  | .cxl => none

/-- R251, R253: an engine between descriptors starts the next one: of the chain it runs, or of its queue. -/
def State.dmaStart (s : State) (c e : Nat) : Option State :=
  let x := s.eng c e
  let st := s.dmaState c e
  if s.issueHalted || !s.coreUsable c || !(st == dmaIdle || st == dmaActive) || x.loaded then some s
  else match x.req, x.queue with
  | some r, _ => s.dmaLoad c e x r x.desc
  | none, r :: t => s.dmaLoad c e { x with queue := t } r r.addr
  | none, [] => some s

/-- The engine's next place after a burst of `n` bytes; OK once every row has moved. -/
def DmaEng.advance (x : DmaEng) (n : Nat) : DmaEng :=
  let b := x.byte + n
  if b < dmaLen x.image then { x with byte := b }
  else if x.row + 1 < dmaRows x.image then { x with byte := 0, row := x.row + 1 }
  else { x with byte := 0, row := x.row + 1, code := some 0 }

/-- R251 to R253: the next burst of the engine's descriptor. A first mismatch repeats it; a second one faults the core. -/
def State.dmaMove (s : State) (c e : Nat) (mismatch : Bool) : Option State :=
  let x := s.eng c e
  if s.issueHalted || s.dmaState c e != dmaActive || !x.loaded || x.code.isSome then some s
  else if mismatch then
    if x.again then some ((s.put F.dmaStatus_state [c, e] dmaFaulted).coreFault c 6 0)
    else some (s.setEng c e { x with again := true })
  else
    let im := x.image
    let tc := match x.req with
      | some r => r.tc
      | none => 0
    let m := mDma c e
    let dst := dmaAddr (dmaField im 0x10 8) (dmaField im 0x28 8) x.row x.byte
    let n := min (dmaLen im - x.byte) (64 - dst % 64)
    let src := dmaAddr (dmaField im 0x08 8) (dmaField im 0x20 8) x.row x.byte
    let fails (s : State) (st a : Nat) : State :=
      (s.setEng c e { x with code := some (dmaCode st) }).put F.dmaFailedAddr_value [c, e] a
    let rd : State × Ans :=
      if dmaFill im then
        (s, .ok ((List.range n).map (fun j => BitVec.ofNat 8 (dmaField im 0x08 8 / 256 ^ ((x.byte + j) % 8)))))
      else s.access m tc src (.rd n)
    match rd.2 with
    | .hold => some s
    | .cxl => none
    | .fail st => some (fails rd.1 st src)
    | .ok bs =>
      let wr := rd.1.access m tc dst (.wr bs)
      match wr.2 with
      | .hold => some s
      | .cxl => none
      | .fail st => some (fails wr.1 st dst)
      | .ok _ => some ((wr.1.setEng c e (x.advance n)).bump F.dmaBytes_value [c, e] n)

/-- R252, R253: the end of the engine's descriptor: STATUS, the signal, then the next descriptor of the chain, or the chain's
event and the engine's state. A descriptor that is not valid sends no signal (DESIGN CHOICE). -/
def State.dmaComplete (s : State) (c e : Nat) : Option State :=
  let x := s.eng c e
  match x.code with
  | none => some s
  | some k =>
    let tc := match x.req with
      | some r => r.tc
      | none => 0
    let y := s.access (mDma c e) tc (x.desc + 0x1C) (.wr (leBytes 4 (0x100 + k)))
    match y.2 with
    | .hold => some s
    | .cxl => none
    | _ =>
      let s := if dmaValid x.image && dmaSigEn x.image then y.1.unitSignal (mDma c e) tc (dmaField x.image 0x38 8) else y.1
      let s := s.put F.dmaStatus_lastCode [c, e] k
      let s := if k = 0 then s else s.put F.dmaStatus_err [c, e] 1
      if k = 0 ∧ dmaChain x.image ∧ !x.flush then
        some (s.setEng c e { queue := x.queue, req := x.req, desc := dmaNext x.image })
      else
        let s := match x.req with
          | some r => s.chainEvent c r
          | none => s
        let s := s.setEng c e x.put
        let st := if s.dmaState c e = dmaFaulted then dmaFaulted else if 2 ≤ k then dmaStopped
          else if x.queue.isEmpty then dmaIdle else dmaActive
        some (s.put F.dmaStatus_state [c, e] st)

end Sys2Proof.Machine
end

