-- ==== Sys2Proof/Machine/CollOps.lean ====
section
/-! DEFINITION. Groups of collectives: CFORM and CLEAVE, formation (R338, R339), group states (R340), heartbeats, lost members and
re-formation (R345, R349). -/

namespace Sys2Proof.Machine

/-! ### Bytes read and written by units -/

/-- Bytes that a unit reads anywhere; at the CXL component registers, which the spec does not lay out, free values. -/
def State.fetch (s : State) (m tc addr n : Nat) : State × Ans :=
  let r := s.access m tc addr (.rd n)
  match r.2 with
  | .cxl =>
    let x := s.fresh
    (x.2, .ok ((List.range n).map (fun i => BitVec.ofNat 8 (Config.peerByte x.1 i))))
  | _ => r

/-- The state of an entry, shown in its register (R340, R352). -/
def State.setGroupState (s : State) (d i v : Nat) : State := s.put F.collEntry_state [d, i] v

def State.modGroup (s : State) (d i : Nat) (f : Group → Group) : State :=
  match tget none s.groups (64 * d + i) with
  | some g => s.setGroup d i (some (f g))
  | none => s

/-- The members' number N and this chip's index, as the entry shows them. -/
def State.groupN (s : State) (d i : Nat) : Nat := s.get F.collEntry_n [d, i]
def State.groupIndex (s : State) (d i : Nat) : Nat := s.get F.collEntry_index [d, i]
def State.isLeader (s : State) (d i : Nat) : Bool := s.flag F.collEntry_leader [d, i]

/-- KIND codes of a COLL message (R345). -/
def ckData : Nat := 0
def ckForm : Nat := 1
def ckEcho : Nat := 2
def ckFormed : Nat := 3
def ckRefuse : Nat := 4
def ckBeat : Nat := 5
def ckRelease : Nat := 6

/-- A COLL message to a member by index (R345). -/
def State.sendColl (s : State) (g : Group) (dest kind group phase index code first : Nat) (elems : List (Nat × Nat)) : State :=
  { s with out := .coll (g.members.getD dest 0) kind group phase index code first elems :: s.out }

/-! ### Formation (R338, R339) -/

/-- Fields of a group descriptor held as one little-endian number. -/
structure GroupDesc where
  group : Nat
  engine : Nat
  n : Nat
  spares : Nat
  index : Nat
  members : Nat
  formTick : Nat
  anchor : Nat
  hops : Nat
  sigAddr : Nat
  reserved : Nat
  deriving DecidableEq, Repr

def GroupDesc.ofBytes (b : List Byte) : GroupDesc :=
  let f (o n : Nat) : Nat := leOf ((b.drop o).take n)
  { group := f 0 2, engine := f 2 1, n := f 4 4, spares := f 8 4, index := f 0xC 4, members := f 0x10 8, formTick := f 0x18 8
    anchor := f 0x20 2, hops := f 0x22 1, sigAddr := f 0x28 8, reserved := f 3 1 + f 0x23 5 + f 0x38 8 }

/-- R338: the descriptor's own rules. -/
def GroupDesc.ok (x : GroupDesc) (group : Nat) : Bool :=
  x.group == group && decide (x.engine < 4) && decide (2 ≤ x.n) && decide (x.n ≤ 262144) && decide (x.spares ≤ 4096) &&
  decide (x.index < x.n + x.spares) && decide (x.anchor < 1024) && x.reserved == 0

/-- The member table's CRC-32, which FORM carries. -/
def tableCrc (members : List Nat) : Nat := crc32 (members.flatMap (leBytes 4))

/-- Formation ends with a code in the descriptor's STATUS, and the signal (R339). -/
def State.formStatus (s : State) (d addr sigAddr code : Nat) : State :=
  let s := s.postWrite (mColl d) 0 (addr + 0x30) (leBytes 4 (0x100 + code))
  if sigAddr = 0 then s else s.unitSignal (mColl d) 0 sigAddr

/-- A failure of formation: STATUS takes the code, and the entry returns to NONE. -/
def State.formFails (s : State) (d i code : Nat) : State :=
  match tget none s.groups (64 * d + i) with
  | none => s
  | some g => (s.clearGroup d i).formStatus d g.addr g.sigAddr code

/-- Grants that a leader or a collector may have outstanding at once, in messages (R328). -/
def State.grantRoom (s : State) : Nat :=
  max 1 (s.get F.gfIncast_window / max 1 (s.get F.gfIncast_grantFlits))

def State.sendGrant (s : State) (g : Group) (group dest : Nat) : State :=
  { s with out := .grant (g.members.getD dest 0) group (s.get F.gfIncast_grantFlits) dest :: s.out }

/-- The leader's first grants for FORM: to the other members in index order, while the window lasts. -/
def State.grantForms (s : State) (g : Group) (group : Nat) : State :=
  ((List.range (min (g.members.length - 1) s.grantRoom)).map (· + 1)).foldl (fun s k => s.sendGrant g group k) s

/-- R338, R339: CFORM of group number `group` with the descriptor at `addr`. A descriptor that breaks its rules, an engine that
cannot serve, or a counter that does not count ends formation at once. -/
def State.cform (s : State) (c tc group addr : Nat) : State :=
  let d0 := c / 16
  let x := s.fetch (mColl d0) tc addr 64
  match x.2 with
  | .fail st => x.1.formStatus d0 addr 0 (ccOf st)
  | .ok b =>
    let s := x.1
    let q := GroupDesc.ofBytes b
    if !q.ok group then s.formStatus d0 addr q.sigAddr ccDescInvalid
    else
      let d := q.engine
      match (List.range 64).find? (fun i => (tget none s.groups (64 * d + i)).isNone) with
      | none => s.formStatus d0 addr q.sigAddr ccNoEntry
      | some i =>
        if !s.dieUsable d then s.formStatus d0 addr q.sigAddr ccNoEntry
        else if !s.cadServes then s.formStatus d addr q.sigAddr ccNoCadence
        else
          let y := s.fetch (mColl d) tc q.members (4 * (q.n + q.spares))
          match y.2 with
          | .fail st => y.1.formStatus d addr q.sigAddr (ccOf st)
          | .ok t =>
            let ms := (chunks 4 t).map (fun l => leOf l % 2 ^ 20)
            let g : Group := { addr := addr, spares := q.spares, members := ms, formTick := q.formTick, anchor := q.anchor
                               hops := q.hops, sigAddr := q.sigAddr, forms := if q.index = 0 then [0] else [] }
            let s := (y.1.setGroup d i (some g)).puts
              [(F.collEntry_group, [d, i], group), (F.collEntry_state, [d, i], grForming),
               (F.collEntry_leader, [d, i], if q.index = 0 then 1 else 0), (F.collEntry_index, [d, i], q.index),
               (F.collEntry_n, [d, i], q.n), (F.collEntryTick_next, [d, i], 0)]
            if q.index = 0 then s.grantForms g group else s
          | _ => s
  | _ => s

/-- FORM leaves for the leader on its grant: N, SPARES, ANCHOR, the table's CRC, and the time, which is a free value. -/
def State.sendForm (s : State) (d i group : Nat) (g : Group) (leader : Nat) : State :=
  let x := s.fresh
  x.2.sendColl g leader ckForm group 0 (s.groupIndex d i) 0 0
    [(s.groupN d i, g.spares), (g.anchor, tableCrc g.members), (Config.cycles x.1, 0)]

/-- R339: a member enters FORMED with H: H and STATUS are written and the signal is sent. -/
def State.entersFormed (s : State) (d i h : Nat) : State :=
  match tget none s.groups (64 * d + i) with
  | none => s
  | some g =>
    let s := s.postWrite (mColl d) 0 (g.addr + 0x34) (leBytes 4 h)
    let s := s.formStatus d g.addr g.sigAddr ccOk
    (s.setGroup d i (some { g with h := h, forms := [], beats := [], missed := 0, lost := none })).setGroupState d i grFormed

/-- The indices whose FORM the leader waits for: the active members; after a loss the survivors and the spare that takes the lost
index (R349). -/
def State.formNeeds (s : State) (d i : Nat) (g : Group) : List Nat :=
  match g.lost with
  | none => List.range (s.groupN d i)
  | some l => (List.range (s.groupN d i)).filter (· != l) ++ g.beats

/-- R349: the active members after a loss, by chip: a spare takes the lost index, or the survivors close up. -/
def reformed (n : Nat) (g : Group) : List Nat :=
  let act := g.members.take n
  match g.lost, g.beats with
  | some l, k :: _ => act.set l (g.members.getD k 0)
  | some l, [] => act.eraseIdx l
  | none, _ => act

/-- The member list of an entry replaced: N, SPARES and this chip's index follow; a chip that is no member any more leaves. -/
def State.takeMembers (s : State) (d i : Nat) (act : List Nat) : State :=
  match tget none s.groups (64 * d + i) with
  | none => s
  | some g =>
    let rest := (g.members.drop (s.groupN d i)).filter (fun m => !act.contains m)
    let all := act ++ rest
    match all.findIdx? (fun m => m == s.get F.glbChipId_id) with
    | none => s.clearGroup d i
    | some k =>
      (s.setGroup d i (some { g with members := all, spares := rest.length })).puts
        [(F.collEntry_n, [d, i], act.length), (F.collEntry_index, [d, i], k), (F.collEntry_leader, [d, i], if k = 0 then 1 else 0)]

/-- R339: the leader holds FORM from every active member: H, and FORMED to every member whose FORM came. -/
def State.completeForm (s : State) (d i group : Nat) (g : Group) : State :=
  let n := s.groupN d i
  let h := 2 + (2 * g.latency + 999) / 1000
  let act := reformed n g
  let list : List (Nat × Nat) := (h, 0) :: (if g.lost.isSome then act.map (fun m => (m, 0)) else [])
  let others := g.forms.filter (· != s.groupIndex d i)
  let s := others.foldl (fun s k => s.sendColl g k ckFormed group 0 (s.groupIndex d i) 0 0 list) s
  let again := s.groupState d i == grReforming
  let s := (if g.lost.isSome then s.takeMembers d i act else s).entersFormed d i h
  if again then s.bump F.collReforms_count [d] else s

/-- The leader refuses a formation that cannot agree: every member ends it with the code. -/
def State.refuseForm (s : State) (d i group code : Nat) (g : Group) : State :=
  let me := s.groupIndex d i
  let s := ((List.range g.members.length).filter (· != me)).foldl (fun s k => s.sendColl g k ckRefuse group 0 me code 0 []) s
  s.formFails d i code

/-- R339: a FORM reaches the leader: it is echoed, its latency is taken, the next grant goes out, and the last one completes
formation. -/
def State.form (s : State) (group index n spares anchor crc ns : Nat) : State :=
  match s.findGroup group with
  | none => s
  | some (d, i, g) =>
    let st := s.groupState d i
    if !(s.isLeader d i && (st == grForming || st == grReforming)) || g.forms.contains index ||
       decide (g.members.length ≤ index) then s
    else if anchor ≠ g.anchor then s.refuseForm d i group ccAnchor g
    else if st = grForming ∧ (n ≠ s.groupN d i ∨ spares ≠ g.spares ∨ crc ≠ tableCrc g.members) then
      s.refuseForm d i group ccDescInvalid g
    else
      let g := { g with forms := nsIns g.forms index, latency := max g.latency ns }
      let s := (s.setGroup d i (some g)).sendColl g index ckEcho group 0 (s.groupIndex d i) 0 0 []
      let next := s.grantRoom + g.forms.length - 1
      let s := if next < g.members.length then s.sendGrant g group next else s
      if (s.formNeeds d i g).all g.forms.contains then s.completeForm d i group g else s

/-- R339: the echo gives a member its one-way latency. -/
def State.formEcho (s : State) (group ns : Nat) : State :=
  match s.findGroup group with
  | none => s
  | some (d, i, g) =>
    if s.isLeader d i then s else s.setGroup d i (some { g with latency := ns })

/-- FORMED reaches a member, after a loss with the active members' chips. -/
def State.formedAt (s : State) (group h : Nat) (members : List Nat) : State :=
  match s.findGroup group with
  | none => s
  | some (d, i, _) =>
    let st := s.groupState d i
    if s.isLeader d i && st == grForming then s
    else if st = grForming then s.entersFormed d i h
    else if st = grReforming then
      ((if members.isEmpty then s else s.takeMembers d i members).entersFormed d i h).bump F.collReforms_count [d]
    else s

/-- FORM_TICK has come, and FORMED has not (R339). -/
def State.formLate (s : State) (group : Nat) : State :=
  match s.findGroup group with
  | none => s
  | some (d, i, g) =>
    if s.groupState d i = grForming ∧ g.formTick ≤ s.get F.cadCount_count then s.formFails d i ccFormTimeout else s

/-- REFUSE ends formation with its code. -/
def State.refused (s : State) (group code : Nat) : State :=
  match s.findGroup group with
  | none => s
  | some (d, i, _) =>
    if s.groupState d i = grForming ∨ s.groupState d i = grReforming then s.formFails d i code else s

/-! ### Leaving, losing a member (R340, R349) -/

/-- CLEAVE: a running collective first ends ABORTED; the entry returns to NONE. -/
def State.cleave (s : State) (group : Nat) : State :=
  match s.findGroup group with
  | none => s
  | some (d, i, _) => (s.endColl d i ccAborted).clearGroup d i

/-- R340: the chip's counter enters FREE: collectives end (with COLL_NO_CADENCE, DESIGN CHOICE), formations fail, and every group
is NONE. -/
def State.freeGroups (s : State) : State :=
  s.groups.foldl (fun s e =>
    let d := e.1 / 64
    let i := e.1 % 64
    if s.groupState d i = grForming then s.formFails d i ccNoCadence else (s.endColl d i ccNoCadence).clearGroup d i) s

/-- The index that acts as leader when `l` is lost: the lowest survivor. -/
def actingLeader (l : Nat) : Nat := if l = 0 then 1 else 0

/-- R349: a member of index `l` is lost: the collective ends COLL_MEMBER_LOST and the entry is REFORMING. The lowest survivor
leads: it takes the lowest spare that has sent HEARTBEAT, or with fewer than 2 members left the entry is NONE. -/
def State.loseMember (s : State) (d i group l : Nat) : State :=
  let st := s.groupState d i
  if !(st == grFormed || st == grRunning) then s
  else
    let s := s.endColl d i ccMemberLost
    match tget none s.groups (64 * d + i) with
    | none => s
    | some g =>
      let n := s.groupN d i
      let me := s.groupIndex d i
      let spare := g.beats.filter (fun k => decide (n ≤ k) && k != l)
      let lead := me == actingLeader l
      let s := (s.setGroupState d i grReforming).put F.collEntry_leader [d, i] (if lead then 1 else 0)
      if l < n ∧ n - 1 + (if lead then spare.length else 1) < 2 then s.clearGroup d i
      else
        let g := { g with lost := if l < n then some l else none, beats := if lead then spare.take 1 else []
                          forms := if lead then [me] else [], latency := 0 }
        let s := s.setGroup d i (some g)
        if !lead then s
        else if n ≤ l then
          -- a lost spare costs no index: the members stay as they are
          s.completeForm d i group { g with forms := List.range n }
        else
          let ask := (s.formNeeds d i g).filter (· != me)
          (ask.take s.grantRoom).foldl (fun s k => s.sendGrant g group k) s

/-- The index of the ring predecessor and successor of an active member. -/
def ringPrev (n k : Nat) : Nat := (k + n - 1) % n
def ringNext (n k : Nat) : Nat := (k + 1) % n

/-- R345: HEARTBEAT of every FORMED or RUNNING entry of an engine: to the successor, a spare's to the leader. -/
def State.beat (s : State) (d : Nat) : State :=
  (List.range 64).foldl (fun s i =>
    match tget none s.groups (64 * d + i) with
    | none => s
    | some g =>
      let st := s.groupState d i
      if st = grFormed ∨ st = grRunning then
        let n := s.groupN d i
        let me := s.groupIndex d i
        s.sendColl g (if me < n then ringNext n me else 0) ckBeat (s.get F.collEntry_group [d, i]) 0 me 0 0 []
      else s) s

/-- A HEARTBEAT: the predecessor's ends a row of missed ones; a spare's is noted at the leader. -/
def State.hearBeat (s : State) (group index : Nat) : State :=
  match s.findGroup group with
  | none => s
  | some (d, i, g) =>
    let st := s.groupState d i
    let n := s.groupN d i
    if !(st == grFormed || st == grRunning) then s
    else if n ≤ index then s.setGroup d i (some { g with beats := nsIns g.beats index })
    else if index = ringPrev n (s.groupIndex d i) then s.setGroup d i (some { g with missed := 0 })
    else s

/-- A HEARTBEAT of the predecessor is missed: at MISS_LIMIT in a row it is lost, and a LOST word says so (R349). -/
def State.missBeat (s : State) (group : Nat) : State :=
  match s.findGroup group with
  | none => s
  | some (d, i, g) =>
    let st := s.groupState d i
    let n := s.groupN d i
    let me := s.groupIndex d i
    if !(st == grFormed || st == grRunning) || decide (n ≤ me) then s
    else if g.missed + 1 < max 1 (s.get F.collCtl_missLimit [d]) then s.setGroup d i (some { g with missed := g.missed + 1 })
    else
      let p := ringPrev n me
      ((s.setGroup d i (some { g with missed := g.missed + 1 })).spreadWord 3 group p g.hops none).loseMember d i group p

/-- A LOST word at a port. -/
def State.hearLost (s : State) (port group index ttl : Nat) : State :=
  let x := s.hearWord port 3 group index ttl
  if !x.2 then x.1
  else match x.1.findGroup group with
  | none => x.1
  | some (d, i, _) => x.1.loseMember d i group index

/-- Re-formation has run for 1 s (R340). -/
def State.reformLate (s : State) (group : Nat) : State :=
  match s.findGroup group with
  | none => s
  | some (d, i, _) => if s.groupState d i = grReforming then s.clearGroup d i else s

/-- R345: 100 ms have passed since a group word was first seen. -/
def State.forgetWord (s : State) (kind group value : Nat) : State :=
  { s with words := s.words.filter (fun w => w != (kind, group, value)) }

end Sys2Proof.Machine
end

