-- ==== Sys2Proof/Machine/CollMove.lean ====
section
/-! DEFINITION. Collectives that run (R341 to R348): CRUN's checks and start, the phases of the ring and of the collector, DATA,
grants and releases, slips, and the end. -/

namespace Sys2Proof.Machine

/-- How an access of an engine ends: done, held, or failed with a status of R482. -/
inductive Io where
  | done
  | hold
  | fail (status : Nat)
  deriving DecidableEq, Repr

def Ans.io : Ans → Io
  | .ok _ | .cxl => .done
  | .hold => .hold
  | .fail st => .fail st

/-- The first of two that is not done. -/
def Io.then (a b : Io) : Io :=
  match a with
  | .done => b
  | _ => a

/-! ### Elements of tensors at any address -/

/-- The number that an access read. -/
def Ans.value : Ans → Nat
  | .ok b => leOf b
  | _ => 0

/-- The tag of a WSF element: beside the store's entry, or in the tag plane (R68, R222). -/
def State.tagRead (s : State) (m tc : Nat) (d : Desc) (r i : Nat) : State × Ans :=
  let a := d.byteAddr r (16 * i)
  if s.isHere a && localAcc (localOf a) then
    let l := localOf a - accBase
    (s, .ok [tget 0#8 s.accTags (l / 2 ^ 21 * 131072 + l % 2 ^ 21 / 16)])
  else s.fetch m tc (d.tagAddr r i) 1

/-- Element `e` of a tensor, by element number (R221): its bits, with the tag or the scale byte beside them. -/
def State.collRead (s : State) (m tc : Nat) (d : Desc) (e : Nat) : State × Io × Wsf :=
  let r := e / d.cols
  let i := e % d.cols
  let w := d.fmt.width
  let bo := i * w
  let n := (bo % 8 + w + 7) / 8
  let x := s.fetch m tc (d.byteAddr r (bo / 8)) n
  let v := bits x.2.value (bo % 8) w
  if d.fmt = .wsf then
    let t := x.1.tagRead m tc d r i
    (t.1, x.2.io.then t.2.io, ⟨BitVec.ofNat 128 v, BitVec.ofNat 8 t.2.value⟩)
  else if d.fmt.isMx then
    let t := x.1.fetch m tc (d.scaleAddr r i) 1
    (t.1, x.2.io.then t.2.io, ⟨BitVec.ofNat 128 v, BitVec.ofNat 8 t.2.value⟩)
  else (x.1, x.2.io, ⟨BitVec.ofNat 128 v, 0#8⟩)

/-- Element `e` written: its bits, and the tag or the scale byte. -/
def State.collWrite (s : State) (m tc : Nat) (d : Desc) (e : Nat) (v : Wsf) : State × Io :=
  let r := e / d.cols
  let i := e % d.cols
  let w := d.fmt.width
  let bo := i * w
  let n := (bo % 8 + w + 7) / 8
  let a := d.byteAddr r (bo / 8)
  let old : State × Ans := if w % 8 = 0 then (s, .ok []) else s.fetch m tc a n
  let x := old.1.access m tc a (.wr (leBytes n (putBits old.2.value (bo % 8) w v.n.toNat)))
  let io := old.2.io.then x.2.io
  if io ≠ .done then (x.1, io)
  else if d.fmt = .wsf then
    let b := d.byteAddr r (16 * i)
    if s.isHere b && localAcc (localOf b) then
      let l := localOf b - accBase
      ({ x.1 with accTags := tset 0#8 x.1.accTags (l / 2 ^ 21 * 131072 + l % 2 ^ 21 / 16) v.tag }, .done)
    else
      let t := x.1.access m tc (d.tagAddr r i) (.wr [v.tag])
      (t.1, t.2.io)
  else if d.fmt.isMx then
    let t := x.1.access m tc (d.scaleAddr r i) (.wr [v.tag])
    (t.1, t.2.io)
  else (x.1, .done)

/-- Elements from `lo` to `hi - 1` read in order. -/
def State.collReads (s : State) (m tc : Nat) (d : Desc) (lo hi : Nat) : State × Io × List (Nat × Wsf) :=
  ((List.range (hi - lo)).map (· + lo)).foldl (fun (st : State × Io × List (Nat × Wsf)) e =>
    let x := st.1.collRead m tc d e
    (x.1, st.2.1.then x.2.1, st.2.2 ++ [(e, x.2.2)])) (s, .done, [])

def State.collWrites (s : State) (m tc : Nat) (d : Desc) (l : List (Nat × Wsf)) : State × Io :=
  l.foldl (fun (st : State × Io) p =>
    let x := st.1.collWrite m tc d p.1 p.2
    (x.1, st.2.then x.2)) (s, .done)

/-- A source element as one term on the group's grid (R343, R63); in BF16 mode its bits. -/
def ownTerm (wsf : Bool) (d : Desc) (anchor : Int) (v : Wsf) : Wsf :=
  if !wsf || d.fmt == .wsf then v else Wsf.ofTerm 126 anchor (d.fmt.value v.n.toNat)

/-- R343: one addition of a partial and a member's own value. -/
def collAdd (wsf : Bool) (a b : Wsf) : Wsf :=
  if wsf then a.add b
  else ⟨BitVec.ofNat 128 (addSum 3 a.n.toNat b.n.toNat), 0#8⟩

/-- The elements of `l` that share a microscaled block with element `e` of a tensor (R224). -/
def sameMx (d : Desc) (e e' : Nat) : Bool :=
  if d.blockAxis = 0 then e / d.cols == e' / d.cols && (d.axisOrigin + e % d.cols) / 32 == (d.axisOrigin + e' % d.cols) / 32
  else e % d.cols == e' % d.cols && (d.axisOrigin + e / d.cols) / 32 == (d.axisOrigin + e' / d.cols) / 32

/-- R343, R69: complete values converted once to the destination format; in BF16 mode they are its bits already. -/
def collConvert (wsf : Bool) (d : Desc) (anchor : Int) (l : List (Nat × Wsf)) : List (Nat × Wsf) :=
  if !wsf || d.fmt == .wsf then l
  else
    let vs := l.map (fun p => (p.1, (p.2.convert anchor).1))
    if d.fmt.isMx then
      vs.map (fun p =>
        let grp := vs.filter (fun q => sameMx d p.1 q.1)
        let b := mxBlock d.fmt (grp.map Prod.snd)
        let k := (grp.findIdx? (fun q => q.1 == p.1)).getD 0
        (p.1, ⟨BitVec.ofNat 128 (b.2.1.getD k 0), BitVec.ofNat 8 b.1⟩))
    else vs.map (fun p => (p.1, ⟨BitVec.ofNat 128 (d.fmt.write d.sat p.2).1, 0#8⟩))

/-! ### The arithmetic flags of a member's part (R70) -/

/-- Of a source element consumed as a term. -/
def termFlags (wsf : Bool) (d : Desc) (v : Wsf) : BitVec 8 :=
  if !wsf || d.fmt == .wsf then 0#8 else flagOp [] (d.fmt.value v.n.toNat)

/-- Of one addition in BF16 mode. -/
def addFlags (wsf : Bool) (a b : Wsf) : BitVec 8 :=
  if wsf then 0#8
  else
    let x := Fmt.bf16.value a.n.toNat
    let y := Fmt.bf16.value b.n.toNat
    (Fmt.bf16.write false (x.add y)).2 ||| flagOp [x, y] (x.add y)

/-- Of the conversion of complete values. -/
def convertFlags (wsf : Bool) (d : Desc) (anchor : Int) (l : List (Nat × Wsf)) : BitVec 8 :=
  if !wsf || d.fmt == .wsf then 0#8
  else
    let vs := l.map (fun p => (p.1, p.2.convert anchor))
    vs.foldl (fun f p => f ||| p.2.2 ||| (if d.fmt.isMx then
        (mxBlock d.fmt ((vs.filter (fun q => sameMx d p.1 q.1)).map (fun q => q.2.1))).2.2
      else (d.fmt.write d.sat p.2.1).2)) 0#8

def CollRun.flag (r : CollRun) (f : BitVec 8) : CollRun := { r with aflags := r.aflags ||| f }
def CollRun.termFlags (r : CollRun) (d : Desc) (l : List (Nat × Wsf)) : CollRun :=
  r.flag (l.foldl (fun f v => f ||| Sys2Proof.Machine.termFlags r.wsf d v.2) 0#8)

/-! ### Shapes of a collective -/

def opAllreduce : Nat := 0
def opReduceScatter : Nat := 1
def opAllgather : Nat := 2
def opReduce : Nat := 3
def opBroadcast : Nat := 4
def opBarrier : Nat := 5

/-- Phases of an operation over N members (R343, R344). -/
def phasesOf (op n : Nat) : Nat :=
  if op = opAllreduce then 2 * (n - 1) else if op = opReduce then 1 else if op = opBarrier then 2 else n - 1

def CollRun.src (r : CollRun) : Option Desc := if r.srcImage = 0 then none else Desc.ofImage (BitVec.ofNat 512 r.srcImage)
def CollRun.dst (r : CollRun) : Option Desc := if r.dstImage = 0 then none else Desc.ofImage (BitVec.ofNat 512 r.dstImage)

/-- E, the number of elements. -/
def CollRun.elems (r : CollRun) : Nat :=
  match r.src, r.dst with
  | some d, _ => d.rows * d.cols
  | none, some d => d.rows * d.cols
  | none, none => 0

/-- S, the elements of a chunk (R343). -/
def chunkSize (e n : Nat) : Nat := (e + 32 * n - 1) / (32 * n) * 32

/-- Chunk `c`: its first element and the one after its last. -/
def chunkSpan (e n c : Nat) : Nat × Nat :=
  let sz := chunkSize e n
  (min e (c * sz), min e ((c + 1) * sz))

/-- The chunk that member `me` sends in phase `p`, with whether it is of the reduce-scatter part; none where it sends nothing. -/
def sendsChunk (op n me p : Nat) : Option (Nat × Bool) :=
  if op = opReduceScatter ∨ (op = opAllreduce ∧ p < n - 1) then some ((me + 2 * n - p - 1) % n, true)
  else if op = opAllreduce then some ((me + n - (p - (n - 1))) % n, false)
  else if op = opAllgather then some ((me + n - p) % n, false)
  else none

/-- What a member expects in phase `p` from its predecessor: elements from and to. -/
def expects (op n me root p e : Nat) : Nat × Nat :=
  if op = opBroadcast then (if (me + n - root) % n = p + 1 then (0, e) else (0, 0))
  else match sendsChunk op n (ringPrev n me) p with
    | some c => chunkSpan e n c.1
    | none => (0, 0)

/-- A received element of a phase, as `got` notes it. -/
def gotKey (p e : Nat) : Nat := p * 2 ^ 40 + e

/-- Every element of a phase's span has been received. -/
def CollRun.gotAll (r : CollRun) (p lo hi : Nat) : Bool :=
  ((List.range (hi - lo)).map (· + lo)).all (fun e => r.got.contains (gotKey p e))

/-- This member's own part of phase `p` has been performed (R342). -/
def partDone (r : CollRun) (n me p : Nat) : Bool :=
  let e := r.elems
  if r.op = opReduce then
    if me = r.root then (List.range n).all (fun k => k == me || r.gotAll 0 (k * e) (k * e + e)) else decide (e ≤ r.sent)
  else if r.op = opBarrier then
    if me = r.root then p != 0 || decide (n ≤ r.arrived.length + 1) else p == 0 || r.arrived.contains r.root
  else
    let x := expects r.op n me r.root p e
    r.gotAll p x.1 x.2

/-- The tick at which the next phase starts (R342). -/
def CollRun.nextTick (r : CollRun) : Nat := r.start + r.phase * r.phaseTicks + r.shift

/-! ### CRUN (R341) -/

/-- A collective descriptor (R341). -/
structure CollDesc where
  op : Nat
  mode : Nat
  tc : Nat
  slipStep : Nat
  root : Nat
  srcTd : Nat
  dstTd : Nat
  start : Nat
  phaseTicks : Nat
  maxSlip : Nat
  stage : Nat
  sigAddr : Nat
  deriving DecidableEq, Repr

def CollDesc.ofBytes (b : List Byte) : CollDesc :=
  let f (o n : Nat) : Nat := leOf ((b.drop o).take n)
  { op := f 0 1, mode := f 1 1, tc := f 2 1 % 8, slipStep := f 3 1, root := f 4 4, srcTd := f 8 8, dstTd := f 0x10 8
    start := f 0x18 8, phaseTicks := f 0x20 4, maxSlip := f 0x24 4, stage := f 0x28 8, sigAddr := f 0x30 8 }

/-- Bytes of an element in the staging area: 17 in WSF mode, the value and its tag; 2 in BF16 mode. -/
def stageElem (wsf : Bool) : Nat := if wsf then 17 else 2

/-- R341: bytes of staging that the algorithm takes. -/
def State.stageBytes (s : State) (x : CollDesc) (n e : Nat) : Nat :=
  if x.op = opBarrier then 0
  else if x.op = opReduce then n * s.get F.gfIncast_grantFlits * 224
  else 2 * chunkSize e n * stageElem (x.mode == 0)

/-- The staging area lies in one core's scratchpad or in the slices. -/
def State.stageOk (s : State) (a len : Nat) : Bool :=
  let l := localOf a
  s.isHere a && decide (l + len ≤ 2 ^ 44) && (len == 0 || (match targetOfLocal l, targetOfLocal (l + len - 1) with
    | .spad c _, .spad c' _ => c == c'
    | .slice .., .slice .. => true
    | _, _ => false))

/-- Which tensors a member uses: as source, and as destination. -/
def usesSrc (op root me : Nat) : Bool := op != opBarrier && (op != opBroadcast || me == root)
def usesDst (op root me : Nat) : Bool := op != opBarrier && (op != opReduce || me == root) && (op != opBroadcast || me != root)

/-- What CRUN comes to at its queue exit: a stop, waiting, the start of a run in an entry, or an end before it with a code. -/
inductive CrunExit where
  | stop (d : Detail)
  | wait
  | start (s : State) (d i : Nat) (x : CollDesc) (src dst : Nat)
  | ends (s : State) (d : Nat) (code : Nat)

/-- A descriptor image read for a collective, where it is used. -/
def State.collImage (s : State) (m tc addr : Nat) (use : Bool) : State × Ans × Nat :=
  if use then
    let x := s.fetch m tc addr 64
    (x.1, x.2, x.2.value)
  else (s, .ok [], 0)

/-- R341: CRUN's checks in the order of R239. Reads that fail end the collective with their code. -/
def State.crunCheck (s : State) (c tc group addr : Nat) : CrunExit :=
  let e := s.findGroup group
  let st := match e with | some y => s.groupState y.1 y.2.1 | none => grNone
  let d := match e with | some y => y.1 | none => c / 16
  let i := match e with | some y => y.2.1 | none => 0
  let n := match e with | some _ => s.groupN d i | none => 1
  let me := s.groupIndex d i
  let h := match e with | some y => y.2.2.h | none => 0
  let anchor : Option Int := e.map (fun y => toSigned 10 y.2.2.anchor)
  let m := mColl d
  let state : CrunExit := if st = grRunning then .wait else .stop (refusal 0x09 st group)
  let allowed (r : CrunExit) : CrunExit := if st = grFormed then r else state
  let shape : CrunExit := .stop (excDetail xShape 2)
  if addr % 64 ≠ 0 then shape
  else
    let b := s.fetch m tc addr 64
    match b.2 with
    | .hold | .cxl => .wait
    | .fail f => allowed (.ends b.1 d (ccOf f))
    | .ok bs =>
      let x := CollDesc.ofBytes bs
      let u := b.1.collImage m tc x.srcTd (usesSrc x.op x.root me)
      let v := u.1.collImage m tc x.dstTd (usesDst x.op x.root me)
      match u.2.1.io.then v.2.1.io with
      | .hold => .wait
      | .fail f => allowed (.ends v.1 d (ccOf f))
      | .done =>
        let used : List (Nat × Bool) := [(u.2.2, usesSrc x.op x.root me), (v.2.2, usesDst x.op x.root me)]
        let ds : List (Option Desc) := (used.filter Prod.snd).map (fun p =>
          if descValid (BitVec.ofNat 512 p.1) then Desc.ofImage (BitVec.ofNat 512 p.1) else none)
        let sd := if usesSrc x.op x.root me then Desc.ofImage (BitVec.ofNat 512 u.2.2) else none
        let dd := if usesDst x.op x.root me then Desc.ofImage (BitVec.ofNat 512 v.2.2) else none
        let num (o : Option Desc) : Nat := match o with | some q => q.rows * q.cols | none => 0
        let el := max (num sd) (num dd)
        let srcFmt (f : Fmt) : Bool := if x.mode = 1 then f == .bf16 else f == .wsf || f == .fp32 || f == .bf16 || f == .fp16
        let dstFmt (f : Fmt) : Bool := if x.mode = 1 then f == .bf16 else f != .int64
        let isWsf (q : Desc) : Bool := q.fmt == .wsf
        if !ds.all Option.isSome then .stop (excDetail xDescriptor 2)
        else if (sd.map (fun q => srcFmt q.fmt)).getD true == false || (dd.map (fun q => dstFmt q.fmt)).getD true == false then
          .stop (excDetail xFormat 2)
        else if 5 < x.op ∨ 1 < x.mode ∨ x.slipStep = 0 ∨ 15 < x.slipStep ∨ x.phaseTicks < h ∨ x.start < s.get F.cadCount_count ∨
            n ≤ x.root ∨ (sd.isSome ∧ dd.isSome ∧ num sd ≠ num dd) ∨ !s.stageOk x.stage (s.stageBytes x n el) then shape
        else if (sd.toList ++ dd.toList).any (fun q => isWsf q && anchor != none && some q.anchor != anchor) then
          .stop (excDetail xAnchor 2)
        else allowed (.start v.1 d i x u.2.2 v.2.2)

/-- R340: a collective starts: the entry is RUNNING. What the staging area then holds is open. -/
def State.crunStart (s : State) (c k seq : Nat) (event : Option Nat) (addr d i : Nat) (x : CollDesc) (src dst : Nat) :
    State × Io :=
  match tget none s.groups (64 * d + i) with
  | none => (s, .done)
  | some g =>
    let r : CollRun := { core := c, slot := k, seq := seq, event := event, addr := addr, op := x.op, wsf := x.mode == 0, tc := x.tc
                         slipStep := x.slipStep, root := x.root, srcImage := src, dstImage := dst, start := x.start
                         phaseTicks := x.phaseTicks, maxSlip := x.maxSlip, sigAddr := x.sigAddr }
    let len := s.stageBytes x (s.groupN d i) r.elems
    let f := s.fresh
    let w : State × Ans := if len = 0 then (s, .ok [])
      else f.2.access (mColl d) x.tc x.stage (.wr ((List.range len).map (fun j => BitVec.ofNat 8 (Config.peerByte f.1 j))))
    match w.2 with
    | .hold => (s, .hold)
    | a =>
      let s := (w.1.setGroup d i (some { g with run := some r })).puts
        [(F.collEntry_state, [d, i], grRunning), (F.collEntryTick_next, [d, i], x.start)]
      (match a with
      | .fail st => s.endColl d i (ccOf st)
      | _ => s, .done)

/-- A collective whose reads at CRUN fail ends before it starts: STATUS and the event, and a FAIL word. -/
def State.crunEnds (s : State) (c tc group addr d code : Nat) (event : Option Nat) : State :=
  let s := s.postWrite (mColl d) tc (addr + 0x38) (leBytes 4 (0x100 + code))
  let s := match event with
    | some e => s.setEvent c e
    | none => s
  let s := (s.bump F.collFails_count [d]).puts [(F.collLastFail_group, [d], group), (F.collLastFail_code, [d], code)]
  s.spreadWord 2 group code (match s.findGroup group with | some y => y.2.2.hops | none => 0) none

/-! ### Phases -/

/-- The run of a group: engine, entry, group, run. -/
def State.runOf (s : State) (group : Nat) : Option (Nat × Nat × Group × CollRun) :=
  match s.findGroup group with
  | some (d, i, g) => g.run.map (fun r => (d, i, g, r))
  | none => none

def State.putRun (s : State) (d i : Nat) (g : Group) (r : CollRun) : State := s.setGroup d i (some { g with run := some r })

/-- An engine's step that an access holds leaves everything as it was; one that fails ends the collective. -/
def State.ioOr (s : State) (d i : Nat) (io : Io) (t : State) : State :=
  match io with
  | .done => t
  | .hold => s
  | .fail st => t.endColl d i (ccOf st)

/-- Elements of a message: their bits and tags. -/
def msgElems (l : List (Nat × Wsf)) : List (Nat × Nat) := l.map (fun p => (p.2.n.toNat, p.2.tag.toNat))

/-- Elements that a run holds, by number. -/
def CollRun.held (r : CollRun) (lo hi : Nat) : List (Nat × Wsf) :=
  ((List.range (hi - lo)).map (· + lo)).map (fun e => (e, tget Wsf.zero r.work e))

/-- Elements that one grant carries (R328). -/
def State.perGrant (s : State) (r : CollRun) : Nat := max 1 (s.get F.gfIncast_grantFlits * 224 / stageElem r.wsf)

/-- R328, R344: the collector's further grants, in source-index order and round after round, while the window lasts. -/
def collGrants (group n me : Nat) (g : Group) : Nat → CollRun → State → CollRun × State
  | 0, r, s => (r, s)
  | f + 1, r, s =>
    let fl := max 1 (s.get F.gfIncast_grantFlits)
    let src := r.turn % (n - 1)
    let dest := if src < me then src else src + 1
    if s.get F.gfIncast_window < r.granted + fl ∧ r.granted ≠ 0 ∨ r.elems ≤ r.turn / (n - 1) * s.perGrant r then (r, s)
    else collGrants group n me g f { r with turn := r.turn + 1, granted := r.granted + fl } (s.sendGrant g group dest)

/-- What a member sends as its part of phase `p`. -/
def State.sendPhase (s : State) (d i group : Nat) (g : Group) (r : CollRun) (p : Nat) : State :=
  let n := s.groupN d i
  let me := s.groupIndex d i
  let next := ringNext n me
  let anchor := toSigned 10 g.anchor
  let e := r.elems
  let send (s : State) (l : List (Nat × Wsf)) : State := s.sendColl g next ckData group p me 0 0 (msgElems l)
  if r.op = opBarrier then
    if p = 0 then (if me = r.root then s else s.sendColl g r.root ckData group 0 me 0 0 [])
    else if me = r.root then
      ((List.range n).filter (· != me)).foldl (fun s k => s.sendColl g k ckRelease group 1 me 0 0 []) s
    else s
  else if r.op = opReduce then
    if me = r.root then
      let x := collGrants group n me g 65536 r s
      x.2.putRun d i g x.1
    else s
  else if r.op = opBroadcast then
    if (me + n - r.root) % n ≠ p then s
    else if me = r.root then
      match r.src with
      | some q =>
        let x := s.collReads (mColl d) r.tc q 0 e
        s.ioOr d i x.2.1 (send x.1 x.2.2)
      | none => s
    else send s (r.held 0 e)
  else match sendsChunk r.op n me p with
    | none => s
    | some (c, partial') =>
      let sp := chunkSpan e n c
      if p = 0 then
        match r.src, r.dst with
        | some q, some t =>
          let x := s.collReads (mColl d) r.tc q sp.1 sp.2
          let own := x.2.2.map (fun v => (v.1, ownTerm r.wsf q anchor v.2))
          let r := r.termFlags q x.2.2
          if partial' then s.ioOr d i x.2.1 (send (x.1.putRun d i g r) own)
          else
            -- ALLGATHER: this member's own chunk, converted, is written and sent
            let done := collConvert r.wsf t anchor own
            let w := x.1.collWrites (mColl d) r.tc t done
            let r := { r.flag (convertFlags r.wsf t anchor own) with work := done.foldl (fun k v => tset Wsf.zero k v.1 v.2) r.work }
            s.ioOr d i (x.2.1.then w.2) (send (w.1.putRun d i g r) done)
        | _, _ => s
      else send s (r.held sp.1 sp.2)

/-- R342: the group's next phase starts at its tick: no earlier, and not before this member's part of the last one is performed
or while the Clamp holds the collective. Without a route the successor is lost (R349). -/
def State.phaseStarts (s : State) (group : Nat) : State :=
  match s.runOf group with
  | none => s
  | some (d, i, g, r) =>
    let n := s.groupN d i
    let me := s.groupIndex d i
    let total := phasesOf r.op n
    if s.groupState d i ≠ grRunning ∨ total ≤ r.phase ∨ s.get F.cadCount_count < r.nextTick ∨ s.clampHolds ∨
        (r.phase ≠ 0 ∧ !partDone r n me (r.phase - 1)) then s
    else
      let p := r.phase
      let r' := { r with phase := p + 1, ticks := r.nextTick :: r.ticks }
      let t := (s.putRun d i g r').put F.collEntryTick_next [d, i] (if p + 1 < total then r'.nextTick else 0)
      let succ := g.members.getD (ringNext n me) 0
      if r.op < opReduce ∧ succ ≠ s.get F.glbChipId_id ∧ s.route succ = none then
        (s.spreadWord 3 group (ringNext n me) g.hops none).loseMember d i group (ringNext n me)
      else t.sendPhase d i group g r' p

/-! ### Messages received -/

/-- R344: all pieces are present at the collector: the sums in source-index order, converted once and written. -/
def State.collectAll (s : State) (d i : Nat) (g : Group) (r : CollRun) : State :=
  match r.src, r.dst with
  | some q, some t =>
    let n := s.groupN d i
    let me := s.groupIndex d i
    let anchor := toSigned 10 g.anchor
    let e := r.elems
    let x := s.collReads (mColl d) r.tc q 0 e
    let piece (k v : Nat) (own : Wsf) : Wsf := if k = me then own else tget Wsf.zero r.work (k * e + v)
    let sums := x.2.2.map (fun v =>
      let own := ownTerm r.wsf q anchor v.2
      (v.1, (List.range (n - 1)).foldl (fun a k => collAdd r.wsf a (piece (k + 1) v.1 own)) (piece 0 v.1 own)))
    let w := x.1.collWrites (mColl d) r.tc t (collConvert r.wsf t anchor sums)
    let ads := x.2.2.foldl (fun f v =>
      let own := ownTerm r.wsf q anchor v.2
      ((List.range (n - 1)).foldl (fun (a : Wsf × BitVec 8) k =>
        let b := piece (k + 1) v.1 own
        (collAdd r.wsf a.1 b, a.2 ||| addFlags r.wsf a.1 b)) (piece 0 v.1 own, f)).2) 0#8
    let r := (r.termFlags q x.2.2).flag (ads ||| convertFlags r.wsf t anchor sums)
    s.ioOr d i (x.2.1.then w.2) (w.1.putRun d i g r)
  | _, _ => s

/-- DATA of a phase that runs or comes next, from the member that the phase takes it from. -/
def State.collReceive (s : State) (group p index first : Nat) (l : List Wsf) : State :=
  match s.runOf group with
  | none => s
  | some (d, i, g, r) =>
    let n := s.groupN d i
    let me := s.groupIndex d i
    let anchor := toSigned 10 g.anchor
    let e := r.elems
    let m := mColl d
    if r.op = opBarrier then
      if me = r.root ∧ p = 0 ∧ index < n then s.putRun d i g { r with arrived := nsIns r.arrived index } else s
    else if r.op = opReduce then
      if me ≠ r.root ∨ n ≤ index ∨ index = me ∨ e < first + l.length then s
      else
        let es := (l.zip (List.range l.length)).map (fun y => (index * e + first + y.2, y.1))
        let es := es.filter (fun y => !r.got.contains (gotKey 0 y.1))
        let r' := { r with work := es.foldl (fun k v => tset Wsf.zero k v.1 v.2) r.work
                           got := es.foldl (fun k v => nsIns k (gotKey 0 v.1)) r.got
                           granted := r.granted - (l.length * stageElem r.wsf + 223) / 224 }
        let y := collGrants group n me g 65536 r' s
        if partDone y.1 n me 0 then y.2.collectAll d i g y.1 else y.2.putRun d i g y.1
    else if index ≠ ringPrev n me ∨ !(p == r.phase || p + 1 == r.phase) ∨ phasesOf r.op n ≤ p then s
    else
      let sp := expects r.op n me r.root p e
      let es := (l.zip (List.range l.length)).map (fun y => (sp.1 + first + y.2, y.1))
      let es := es.filter (fun y => decide (y.1 < sp.2) && !r.got.contains (gotKey p y.1))
      let got := es.foldl (fun k v => nsIns k (gotKey p v.1)) r.got
      let adds := (sendsChunk r.op n (ringPrev n me) p).any Prod.snd
      match r.dst with
      | none => s
      | some t =>
        if adds then
          match r.src with
          | none => s
          | some q =>
            let x := es.foldl (fun (st : State × Io × List (Nat × Wsf) × BitVec 8) v =>
              let y := st.1.collRead m r.tc q v.1
              let own := ownTerm r.wsf q anchor y.2.2
              (y.1, st.2.1.then y.2.1, st.2.2.1 ++ [(v.1, collAdd r.wsf v.2 own)],
                st.2.2.2 ||| termFlags r.wsf q y.2.2 ||| addFlags r.wsf v.2 own)) (s, .done, [], 0#8)
            let r' : CollRun :=
              { r.flag x.2.2.2 with got := got, work := x.2.2.1.foldl (fun k v => tset Wsf.zero k v.1 v.2) r.work }
            if p = n - 2 ∧ r'.gotAll p sp.1 sp.2 then
              -- this member completes its chunk
              let done := collConvert r.wsf t anchor (r'.held sp.1 sp.2)
              let w := x.1.collWrites m r.tc t done
              let r' : CollRun := { r'.flag (convertFlags r.wsf t anchor (r'.held sp.1 sp.2)) with work := done.foldl (fun k v => tset Wsf.zero k v.1 v.2) r'.work }
              s.ioOr d i (x.2.1.then w.2) (w.1.putRun d i g r')
            else s.ioOr d i x.2.1 (x.1.putRun d i g r')
        else
          let w := s.collWrites m r.tc t es
          s.ioOr d i w.2 (w.1.putRun d i g { r with got := got, work := es.foldl (fun k v => tset Wsf.zero k v.1 v.2) r.work })

/-- ROOT's release of a barrier reaches a member (R344). -/
def State.hearRelease (s : State) (group : Nat) : State :=
  match s.runOf group with
  | none => s
  | some (d, i, g, r) => if r.op = opBarrier then s.putRun d i g { r with arrived := nsIns r.arrived r.root } else s

/-- R328: a GRANT: a member that forms sends its FORM; a source of a REDUCE whose phase has started sends the next elements that
the granted flits carry. -/
def State.hearGrant (s : State) (group flits index : Nat) : State :=
  match s.findGroup group with
  | none => s
  | some (d, i, g) =>
    let st := s.groupState d i
    if index ≠ s.groupIndex d i then s
    else if st = grForming then (if s.isLeader d i then s else s.sendForm d i group g 0)
    else if st = grReforming then
      (if s.isLeader d i then s else s.sendForm d i group g (actingLeader (g.lost.getD 0)))
    else match g.run with
    | none => s
    | some r =>
      match r.src with
      | none => s
      | some q =>
        let hi := min r.elems (r.sent + max 1 (flits * 224 / stageElem r.wsf))
        if r.op ≠ opReduce ∨ r.phase = 0 ∨ index = r.root ∨ hi ≤ r.sent then s
        else
          let x := s.collReads (mColl d) r.tc q r.sent hi
          let own := x.2.2.map (fun v => (v.1, ownTerm r.wsf q (toSigned 10 g.anchor) v.2))
          s.ioOr d i x.2.1 ((x.1.sendColl g r.root ckData group 0 index 0 r.sent (msgElems own)).putRun d i g { r with sent := hi })

/-! ### LATE and slips (R347, R348) -/

/-- The start tick of the first phase that starts at or after a tick, with whether this member has started it. -/
def CollRun.phaseFrom (r : CollRun) (t : Nat) : Nat × Bool :=
  match r.ticks.reverse.find? (fun x => decide (t ≤ x)) with
  | some x => (x, true)
  | none =>
    let k := if r.nextTick < t then (t - r.nextTick + r.phaseTicks - 1) / max 1 r.phaseTicks else 0
    (r.nextTick + k * r.phaseTicks, false)

/-- R348: LATE with a new tick: every phase not yet started moves, and the slips count towards the limit. -/
def State.applyLate (s : State) (group value : Nat) : State :=
  match s.runOf group with
  | none => s
  | some (d, i, g, r) =>
    let k := r.phaseFrom (value - r.slipStep)
    let delta := value - k.1
    let r := { r with shift := r.shift + delta, slips := r.slips + delta }
    let s := (s.putRun d i g r).bump F.cadSlipTicks_count [] delta
    let s := if r.phase < phasesOf r.op (s.groupN d i) then s.put F.collEntryTick_next [d, i] r.nextTick else s
    if r.maxSlip < r.slips then s.endColl d i ccSlipLimit else s

/-- R347: two ticks before the next phase: a member that cannot start it sends LATE, and slips with the others. -/
def State.checkLate (s : State) (group : Nat) (busy : Bool) : State :=
  match s.runOf group with
  | none => s
  | some (d, i, g, r) =>
    let n := s.groupN d i
    let cannot := (r.phase != 0 && !partDone r n (s.groupIndex d i) (r.phase - 1)) || s.clampHolds || busy
    if phasesOf r.op n ≤ r.phase ∨ s.get F.cadCount_count + 2 < r.nextTick ∨ !cannot then s
    else
      let v := r.nextTick + r.slipStep
      ((s.spreadWord 1 group v g.hops none).bump F.cadLateSent_count []).applyLate group v

/-- A LATE word at a port. -/
def State.hearLate (s : State) (port group value ttl : Nat) : State :=
  let x := s.hearWord port 1 group value ttl
  if x.2 then (x.1.bump F.cadLateRecv_count []).applyLate group value else x.1

/-- A FAIL word at a port (R346). -/
def State.hearFail (s : State) (port group code ttl : Nat) : State :=
  let x := s.hearWord port 2 group code ttl
  if !x.2 then x.1
  else match x.1.runOf group with
  | none => x.1
  | some (d, i, _, _) => x.1.endColl d i ccMemberFailed

/-- R346: the final phase is performed: the collective ends OK. -/
def State.collFinishes (s : State) (group : Nat) : State :=
  match s.runOf group with
  | none => s
  | some (d, i, _, r) =>
    let n := s.groupN d i
    let total := phasesOf r.op n
    if total ≤ r.phase ∧ partDone r n (s.groupIndex d i) (total - 1) then s.endColl d i ccOk else s

end Sys2Proof.Machine
end

