-- ==== Sys2Proof/Machine/KvOps.lean ====
section
/-! DEFINITION. The KV unit: sequence descriptors, page tables, the frame pool, appends (R173 to R184). -/

namespace Sys2Proof.Machine

/-- Why a KV instruction, or the page reach of an attention step, goes no further: an access failed with an address status; data
that cannot be used was read; an access is held; no frame can be had, with the frames taken so far (entry, frame, tier). -/
inductive KvFail where
  | addr (status addr : Nat)
  | data (status addr : Nat)
  | wait
  | nopage (s : State) (taken : List (Nat × Nat × Bool))
  deriving DecidableEq, Repr

def kvFailed (status a : Nat) : KvFail := if 0x28 ≤ status then .data status a else .addr status a

/-- A read by core `c` of class `tc`. -/
def kvRd (c tc a n : Nat) (s : State) : Except KvFail (State × List Byte) :=
  let r := s.access (mCore c) tc a (.rd n)
  match r.2 with
  | .ok b => .ok (r.1, b)
  | .fail st => .error (kvFailed st a)
  | .hold => .error .wait
  | .cxl =>
    let f := s.fresh
    .ok (f.2, (List.range n).map (fun i => BitVec.ofNat 8 (Config.peerByte f.1 i)))

def kvWr (c tc a : Nat) (bs : List Byte) (s : State) : Except KvFail State :=
  let r := s.access (mCore c) tc a (.wr bs)
  match r.2 with
  | .ok _ | .cxl => .ok r.1
  | .fail st => .error (kvFailed st a)
  | .hold => .error .wait

/-! ### Sequences and page tables -/

/-- R173: the address of a sequence's descriptor. -/
def State.seqAddr (s : State) (q : Nat) : Nat := s.get F.kvSeqTableBase_address [homeOf q] + 64 * (q % 1024)

/-- A sequence's descriptor, read by core `c`. -/
def readSeq (c tc q : Nat) (s : State) : Except KvFail (State × SeqDesc) :=
  match kvRd c tc (s.seqAddr q) 64 s with
  | .ok r => .ok (r.1, SeqDesc.ofNat (leOf r.2))
  | .error e => .error e

/-- R175: the address of the directory entry of page slot `p`, and of its leaf entry. -/
def SeqDesc.dirEntryAddr (d : SeqDesc) (p : Nat) : Nat := d.directory + 8 * (p / 256)
def leafEntryAddr (leaf p : Nat) : Nat := selfAddr (leaf + 8 * (p % 256))

def readEntry (c tc a : Nat) (s : State) : Except KvFail (State × Nat) :=
  match kvRd c tc a 8 s with
  | .ok r => .ok (r.1, leOf r.2)
  | .error e => .error e

/-! ### The frame pool (R178, R179) -/

/-- The first frame of a list of core `l` leaves it; a list whose count and head disagree is treated as empty (R185). A far list
whose first link word cannot be read gives no frame and is treated as empty until it is built again (R305). -/
def kvPop (l : Nat) (far : Bool) (s : State) : Except KvFail (State × Option Nat) :=
  let headF := if far then F.kvFarHead_address else F.kvNearHead_address
  let freeF := if far then F.kvFarFree_count else F.kvNearFree_count
  let head := s.get headF [l]
  let n := s.get freeF [l]
  if far ∧ l ∈ s.farEmpty then .ok (s, none)
  else if head = 0 ∧ n = 0 then .ok (s, none)
  else if head = 0 ∨ n = 0 then .ok (s.put F.attStatus_listErr [l] 1, none)
  else match kvRd l 0 (selfAddr head) 8 s with
    | .ok r => .ok (r.1.puts [(headF, [l], leOf r.2), (freeF, [l], n - 1)], some head)
    | .error .wait => .error .wait
    | .error e =>
      if far then
        let t := (s.access (mCore l) 0 (selfAddr head) (.rd 8)).1
        .ok ({ t with farEmpty := nsIns t.farEmpty l }, none)
      else .error e

/-- R179: the lists an append looks at, in order: its own near list, the other cores' near lists, and with spill the far lists in
the same order. Cores that are not usable or not enabled, and dies that cannot be reached, are skipped. -/
def State.kvSources (s : State) (c : Nat) (spill : Bool) : List (Nat × Bool) :=
  let others := ((List.range 63).map (fun i => (c + 1 + i) % 64)).filter (fun l =>
    s.coreUsable l && s.flag F.kvControl_enable [l] && s.dieReach (c / 16) (l / 16) == 0)
  let all := c :: others
  all.map (fun l => (l, false)) ++ (if spill then all.map (fun l => (l, true)) else [])

/-- The held frames of a core, one more or one fewer. -/
def State.heldUp (s : State) (c : Nat) (far : Bool) : State :=
  let f := if far then F.kvHeld_far else F.kvHeld_near
  s.put f [c] (s.get f [c] + 1)
def State.heldDown (s : State) (c : Nat) (far : Bool) : State :=
  let f := if far then F.kvHeld_far else F.kvHeld_near
  s.put f [c] (s.get f [c] - 1)

def kvTake (c : Nat) : List (Nat × Bool) → State → Except KvFail (State × Option (Nat × Bool))
  | [], s => .ok (s, none)
  | p :: t, s =>
    match kvPop p.1 p.2 s with
    | .error e => .error e
    | .ok (s, some f) =>
      let s := s.heldUp c p.2
      .ok (if p.1 = c then s else s.bump F.kvBorrowCount_count [c], some (f, p.2))
    | .ok (s, none) => kvTake c t s

/-- A frame for an append: one that was borrowed and acknowledged before, or from the sources of R179. -/
def kvObtain (c : Nat) (spill : Bool) (s : State) : Except KvFail (State × Option (Nat × Bool)) :=
  let got := tget [] s.gotFrames c
  match got.find? (fun g => !g.1 || spill) with
  | some g => .ok ({ s with gotFrames := tset [] s.gotFrames c (got.erase g) }, some (g.2, g.1))
  | none => kvTake c (s.kvSources c spill) s

/-- Frames that an append took return to its core's own lists, and their entries are cleared (R182). -/
def State.kvReturn (s : State) (c tc : Nat) (taken : List (Nat × Nat × Bool)) : State :=
  taken.foldl (fun s x =>
    let s := match kvWr c tc x.1 (leBytes 8 0) s with
      | .ok s => s
      | .error _ => s
    (s.joinList c x.2.1 x.2.2).heldDown c x.2.2) s

/-! ### Appends (R181) -/

/-- What an append has come to in its second step: the frames it has linked, the newest first. -/
structure KvLinks where
  s : State
  taken : List (Nat × Nat × Bool) := []
  deriving DecidableEq, Repr

/-- The frame that the entry at `a` names; a new one is linked where it names none. A new leaf's entries are zero. -/
def kvLink (c tc a : Nat) (spill leaf : Bool) (x : KvLinks) : Except KvFail (KvLinks × Nat) :=
  match readEntry c tc a x.s with
  | .error e => .error e
  | .ok (s, v) =>
    if entryValid v then .ok ({ x with s := s }, entryFrame v)
    else match kvObtain c spill s with
      | .error e => .error e
      | .ok (s, none) => .error (.nopage s x.taken)
      | .ok (s, some (f, far)) =>
        match (if leaf then kvWr c tc (selfAddr f) (leBytes 2048 0) s else .ok s) with
        | .error e => .error e
        | .ok s =>
          match kvWr c tc a (leBytes 8 (mkEntry f far)) s with
          | .error e => .error e
          | .ok s => .ok ({ s := s, taken := (a, f, far) :: x.taken }, f)

/-- The frames of a list of page slots. -/
def kvPages (c tc : Nat) (d : SeqDesc) (spill : Bool) : List Nat → KvLinks → Except KvFail (KvLinks × List (Nat × Nat))
  | [], x => .ok (x, [])
  | p :: t, x =>
    match kvLink c tc (d.dirEntryAddr p) spill true x with
    | .error e => .error e
    | .ok (x, leaf) =>
      match kvLink c tc (leafEntryAddr leaf p) spill false x with
      | .error e => .error e
      | .ok (x, f) =>
        match kvPages c tc d spill t x with
        | .error e => .error e
        | .ok (x, l) => .ok (x, (p, f) :: l)

/-- The page slots of positions `lo` to `lo + n - 1`. -/
def SeqDesc.slotsOf (d : SeqDesc) (lo n : Nat) : List Nat := ((List.range n).map (fun j => d.pageOf (lo + j))).eraseDups

/-- `w` bits written at bit offset `bo` from local address `a`. -/
def kvBits (c tc a bo w v : Nat) (s : State) : Except KvFail State :=
  let n := (bo % 8 + w + 7) / 8
  match kvRd c tc (selfAddr (a + bo / 8)) n s with
  | .error e => .error e
  | .ok (s, b) => kvWr c tc (selfAddr (a + bo / 8)) (leBytes n (putBits (leOf b) (bo % 8) w v)) s

/-- Elements and scales of token `j` of an append, at position `k` in frame `f` (R176). -/
def kvToken (c tc : Nat) (d : SeqDesc) (dk dv : Desc) (j k f : Nat) (s : State) : Except KvFail State :=
  let t := k % d.pt
  (List.range d.hKv).foldlM (fun s h => do
    let s ← (List.range d.dK).foldlM (fun s i =>
      kvBits c tc f (d.kBit h t i) d.fk.width (s.elemCode dk j (h * d.dK + i)) s) s
    let s ← (List.range d.dV).foldlM (fun s i =>
      kvBits c tc f (d.vBit h t i) d.fv.width (s.elemCode dv j (h * d.dV + i)) s) s
    let s ← if d.fk.isMx then (List.range ((d.dK + 31) / 32)).foldlM (fun s b =>
        kvWr c tc (selfAddr (f + d.kScaleOff h t (32 * b))) [BitVec.ofNat 8 (s.scaleCode dk j (h * d.dK + 32 * b))] s) s
      else .ok s
    if d.fv.isMx then (List.range d.dV).foldlM (fun s i =>
        kvWr c tc (selfAddr (f + d.vScaleOff h t i)) [BitVec.ofNat 8 (s.scaleCode dv j (h * d.dV + i))] s) s
      else .ok s) s

/-- How a KV instruction leaves its queue. -/
inductive KvExit where
  | done (s : State)
  | stop (s : State) (d : Detail)
  | discard (s : State) (status addr : Nat)
  | wait
  deriving DecidableEq, Repr

/-- An access that fails stops the instruction, counted as a failed access (R47), in the state `s` that it leaves. -/
def KvFail.exit (e : KvFail) (s : State) (c tc q : Nat) (write : Bool) : KvExit :=
  match e with
  | .addr st a => .stop (s.addrError st (mCore c) write a) (excDetail st 0)
  | .data st a => .discard s st a
  | .wait => .wait
  | .nopage s taken =>
    let s := s.kvReturn c tc taken
    .stop (((s.bump F.kvNopageCount_count [c]).put F.kvLastNopage_seq [c] q).put F.attStatus_nopage [c] 1)
      { status := 0x1A }

/-- A check's outcome as an exit; none where it passes. -/
def Exit.kv (e : Exit) (s : State) : Option KvExit :=
  match e with
  | .stop d => some (.stop s d)
  | .wait => some .wait
  | .go => none

/-- R233: the sequence number an instruction names. -/
def seqNum (sl : Slot) (r : SReg) : Nat := (sl.s r).toNat % 2 ^ 16

/-! States of class 0x08. -/
def seqFree : Nat := 0
def seqOpen : Nat := 1
def seqSealed : Nat := 2

/-- R174: the formats of a sequence. -/
def kvFmtOk (code : Nat) : Bool :=
  match Fmt.ofCode code with
  | some f => f == .e4m3 || f == .e5m2 || f == .bf16 || f == .fp16 || f == .mxE4m3 || f == .mxE5m2 || f == .mxE2m1
  | none => false

/-- R174: a template is in range, its page fits a frame. -/
def SeqDesc.templateOk (d : SeqDesc) (frame : Nat) : Bool :=
  decide (d.pageCode ≤ 2) && kvFmtOk d.fmtK && kvFmtOk d.fmtV &&
  decide (1 ≤ d.dK) && decide (d.dK ≤ 256) && decide (1 ≤ d.dV) && decide (d.dV ≤ 256) &&
  decide (1 ≤ d.hKv) && decide (d.hKv ≤ 8) && decide (d.flags < 4) && d.directory % 4096 == 0 &&
  (if d.windowed then
    decide (2 ≤ d.windowPages) && decide (d.windowPages ≤ 256) && decide (1 ≤ d.windowTokens) &&
      decide (d.windowTokens ≤ (d.windowPages - 1) * d.pt)
   else d.windowPages == 0 && d.windowTokens == 0) &&
  decide (d.pageBytes ≤ frame)

def State.frameBytes (s : State) (c : Nat) : Nat := 4096 * 2 ^ s.get F.kvControl_frameCode [c]

/-- The 64 bytes of a descriptor that KVOPEN writes from a template's number. -/
def openImage (t : Nat) : List Byte :=
  let f (off n : Nat) : Nat := bits t (8 * off) (8 * n)
  leBytes 1 seqOpen ++ leBytes 11 (f 1 11) ++ leBytes 4 0 ++ leBytes 4 (f 0x10 4) ++ leBytes 4 0 ++ leBytes 8 (f 0x18 8) ++
    leBytes 32 0

/-- KVOPEN (R174, R184, R233). -/
def kvOpen (s : State) (c : Nat) (sl : Slot) (sseq sa : SReg) : KvExit :=
  let q := seqNum sl sseq
  let a := (sl.s sa).toNat
  let run := (a, 64)
  let t := s.peekLE (localOf a) 64
  let d := SeqDesc.ofNat t
  match (firstOf
    [ fun _ => require (homeOf q == c) xShape 1,
      fun _ => require (a % 64 == 0 && s.runInSpad c run) xShape 2,
      fun _ => require (d.templateOk (s.frameBytes c)) xShape 2,
      fun _ => s.bankCheck c [run] ]).kv s with
  | some e => e
  | none =>
    match s.parityHit [run] with
    | some p => .discard (s.parityFound p (mCore c) false true) stParity (selfAddr p)
    | none =>
      match readSeq c sl.tc q s with
      | .error e => e.exit s c sl.tc q false
      | .ok (s', old) =>
        if old.st ≠ seqFree then .stop s (refusal 8 old.st q)
        else match kvWr c sl.tc d.directory (leBytes 4096 0) s' with
          | .error e => e.exit s c sl.tc q true
          | .ok s' =>
            match kvWr c sl.tc (s'.seqAddr q) (openImage t) s' with
            | .error e => e.exit s c sl.tc q true
            | .ok s' => .done s'

/-- R233: a tensor of an append, `n` rows of `cols` elements in this core's scratchpad; a microscaled one along `axis`. -/
def State.kvTensorOk (s : State) (c : Nat) (x : Desc) (n cols axis : Nat) : Bool :=
  s.inSpad c x && x.rows == n && x.cols == cols && (!x.fmt.isMx || (x.blockAxis == axis && x.axisOrigin % 32 == 0))

def maxTokens : Nat := 8388608

/-- R181: steps 2 to 4 of an append of `n` tokens to a sequence found OPEN. -/
def kvAppend (s : State) (c tc q : Nat) (d : SeqDesc) (n : Nat) (dk dv : Desc) : KvExit :=
  let spill := s.flag F.kvControl_spillEn [c] && d.spill
  match kvPages c tc d spill (d.slotsOf d.length n) { s := s } with
  | .error e => e.exit s c tc q true
  | .ok (x, pages) =>
    let near := d.near + (x.taken.filter (fun t => !t.2.2)).length
    let far := d.far + (x.taken.filter (fun t => t.2.2)).length
    let linked : Except KvFail State := do
      let s ← kvWr c tc (x.s.seqAddr q + 0x14) (leBytes 4 near) x.s
      kvWr c tc (s.seqAddr q + 0x20) (leBytes 4 far) s
    match linked with
    | .error e => e.exit s c tc q true
    | .ok s2 =>
      let frame (k : Nat) : Nat := ((pages.find? (fun p => p.1 == d.pageOf k)).map Prod.snd).getD 0
      let data := (List.range n).foldlM (fun s j => kvToken c tc d dk dv j (d.length + j) (frame (d.length + j)) s) s2
      match data with
      | .error e => e.exit s2 c tc q true
      | .ok s3 =>
        match kvWr c tc (s3.seqAddr q + 0xC) (leBytes 4 (d.length + n)) s3 with
        | .error e => e.exit s2 c tc q true
        | .ok s4 => .done s4

/-- KVAPP (R181 to R184, R233). -/
def kvApp (s : State) (c : Nat) (sl : Slot) (sseq : SReg) (nm1 : BitVec 8) (tk tv : TReg) : KvExit :=
  let q := seqNum sl sseq
  let n := nm1.toNat + 1
  match sl.td tk, sl.td tv with
  | some dk, some dv =>
    match readSeq c sl.tc q s with
    | .error e => e.exit s c sl.tc q false
    | .ok (s', d) =>
      match (firstOf
        [ fun _ => require (dk.fmt == d.fk) xFormat 3,
          fun _ => require (dv.fmt == d.fv) xFormat 4,
          fun _ => require (homeOf q == c) xShape 1,
          fun _ => require (!d.fv.isMx || (d.length % 32 == 0 && n % 32 == 0)) xShape 2,
          fun _ => require (decide (d.length + n ≤ maxTokens)) xShape 2,
          fun _ => require (s.kvTensorOk c dk n (d.hKv * d.dK) 0) xShape 3,
          fun _ => require (s.kvTensorOk c dv n (d.hKv * d.dV) 1) xShape 4,
          fun _ => if d.st = seqOpen then .go else .stop (refusal 8 d.st q),
          fun _ => s.bankCheck c (dk.allRuns ++ dv.allRuns) ]).kv s with
      | some e => e
      | none =>
        match s.parityHit (dk.allRuns ++ dv.allRuns) with
        | some a => .discard (s.parityFound a (mCore c) false true) stParity (selfAddr a)
        | none => kvAppend s' c sl.tc q d n dk dv
  | _, _ =>
    match (needTds sl [(3, tk), (4, tv)]).kv s with
    | some e => e
    | none => .wait

/-- KVSEAL (R184). -/
def kvSeal (s : State) (c : Nat) (sl : Slot) (sseq : SReg) : KvExit :=
  let q := seqNum sl sseq
  if homeOf q ≠ c then .stop s (excDetail xShape 1)
  else match readSeq c sl.tc q s with
    | .error e => e.exit s c sl.tc q false
    | .ok (s', d) =>
      if d.st ≠ seqOpen then .stop s (refusal 8 d.st q)
      else match kvWr c sl.tc (s'.seqAddr q) (leBytes 1 seqSealed) s' with
        | .error e => e.exit s c sl.tc q true
        | .ok s' => .done s'

/-- R180: every frame of a sequence, pages and leaves: frame and tier. -/
def kvFrames (c tc : Nat) (d : SeqDesc) (s : State) : Except KvFail (State × List (Nat × Bool)) :=
  (List.range 512).foldlM (fun (acc : State × List (Nat × Bool)) i => do
    let r ← readEntry c tc (d.dirEntryAddr (256 * i)) acc.1
    if entryValid r.2 then
      let leaf := entryFrame r.2
      let x ← (List.range 256).foldlM (fun (acc : State × List (Nat × Bool)) j => do
        let y ← readEntry c tc (leafEntryAddr leaf j) acc.1
        .ok (y.1, if entryValid y.2 then acc.2 ++ [(entryFrame y.2, entryFar y.2)] else acc.2)) (r.1, acc.2)
      .ok (x.1, x.2 ++ [(leaf, entryFar r.2)])
    else .ok (r.1, acc.2)) (s, [])

/-- KVFREE (R180, R184). The descriptor then holds no frames. -/
def kvFree (s : State) (c : Nat) (sl : Slot) (sseq : SReg) : KvExit :=
  let q := seqNum sl sseq
  if homeOf q ≠ c then .stop s (excDetail xShape 1)
  else match readSeq c sl.tc q s with
    | .error e => e.exit s c sl.tc q false
    | .ok (s', d) =>
      if d.st ≠ seqOpen ∧ d.st ≠ seqSealed then .stop s (refusal 8 d.st q)
      else match kvFrames c sl.tc d s' with
        | .error e => e.exit s c sl.tc q false
        | .ok (s', l) =>
          let last : Except KvFail State := do
            let s' ← l.foldlM (fun s f => do
              let s ← kvWr c sl.tc (selfAddr f.1) (leBytes 8 (s.listHead c f.2)) s
              .ok ((s.joined c f.1 f.2).heldDown c f.2)) s'
            let s ← kvWr c sl.tc (s'.seqAddr q + 0x14) (leBytes 4 0) s'
            let s ← kvWr c sl.tc (s.seqAddr q + 0x20) (leBytes 4 0) s
            kvWr c sl.tc (s.seqAddr q) (leBytes 1 seqFree) s
          match last with
          | .error e => e.exit s c sl.tc q true
          | .ok s' => .done s'

/-! ### Borrowing by request (R179) -/

/-- A lender serves a borrower's request: a frame of the list leaves it and is in transit; none where it has none. -/
def State.kvBorrow (s : State) (l b : Nat) (far : Bool) : State :=
  if !s.coreUsable l || !s.flag F.kvControl_enable [l] then s
  else match kvPop l far s with
    | .ok (s, some f) =>
      { s.put F.kvPending_count [l] (s.get F.kvPending_count [l] + 1) with
        loans := s.loans ++ [{ lender := l, borrower := b, far := far, frame := f }] }
    | .ok (s, none) => s
    | .error _ => s

/-- The borrower acknowledges the oldest frame in transit to it from the lender: it is the borrower's held frame. -/
def State.kvAck (s : State) (l b : Nat) : State :=
  match s.loans.find? (fun x => x.lender == l && x.borrower == b) with
  | none => s
  | some x =>
    let s := { s with loans := s.loans.erase x, gotFrames := tset [] s.gotFrames b (tget [] s.gotFrames b ++ [(x.far, x.frame)]) }
    ((s.put F.kvPending_count [l] (s.get F.kvPending_count [l] - 1)).bump F.kvBorrowCount_count [b]).heldUp b x.far

end Sys2Proof.Machine
end

