-- ==== Sys2Proof/Machine/AttnRun.lean ====
section
/-! DEFINITION. The attention-step unit: the checks of its instructions at their queue exit, the pages they fetch, and what they
write (R158 to R169, R231, R237). -/

namespace Sys2Proof.Machine

/-- A step's operands by name: those that ASTEP, AMAX and AEXP share, the state tile or O region, the maximum vector. -/
structure AttnStep where
  tq : TReg
  tout : Option TReg
  tz : TReg
  tm : Option TReg
  a : AttnArgs
  /-- 0 ASTEP, 1 AMAX, 2 AEXP -/
  kind : Nat
  deriving DecidableEq, Repr

def attnOf : Instr → Option AttnStep
  | .astep _ tq tout tz a => some { tq := tq, tout := some tout, tz := tz, tm := none, a := a, kind := 0 }
  | .amax _ tq tz tm a => some { tq := tq, tout := none, tz := tz, tm := some tm, a := a, kind := 1 }
  | .aexp _ tq tout tz tm a => some { tq := tq, tout := some tout, tz := tz, tm := some tm, a := a, kind := 2 }
  | _ => none

/-- The descriptors a step reads, with their operand numbers (R240). -/
def AttnStep.tds (x : AttnStep) : List (Nat × TReg) :=
  (1, x.tq) :: ((x.tout.map (fun t => (2, t))).toList ++ [(3, x.tz), (4, x.a.ts)] ++
    (match x.a.src with | .direct tk tv _ _ => [(14, tk), (15, tv)] | .paged .. => []) ++
    (x.tm.map (fun t => (18, t))).toList)

def AttnStep.k0 (x : AttnStep) (sl : Slot) : Nat := (sl.s x.a.sk0).toNat
def AttnStep.scale (x : AttnStep) (sl : Slot) : Nat := (sl.s x.a.sc).toNat % 2 ^ 32

/-- R231: the base position and the valid count of a DIRECT source. -/
def directBase (sl : Slot) (sbv : SReg) : Nat := (sl.s sbv).toNat % 2 ^ 32
def directValid (sl : Slot) (sbv : SReg) : Nat := (sl.s sbv).toNat / 2 ^ 32

/-- Widths and formats of a step's keys and values. -/
structure KvShape where
  dk : Nat
  dv : Nat
  fk : Fmt
  fv : Fmt
  deriving DecidableEq, Repr

def SeqDesc.shape (d : SeqDesc) : KvShape := { dk := d.dK, dv := d.dV, fk := d.fk, fv := d.fv }

/-- The bytes of one key block of `b` keys in the page layout (R159, R176). -/
def KvShape.blockBytes (h : KvShape) (b : Nat) : Nat :=
  (b * (h.dk * h.fk.width + h.dv * h.fv.width) + 7) / 8 + (if h.fk.isMx then (h.dk + 31) / 32 * b else 0) +
    (if h.fv.isMx then (b + 31) / 32 * h.dv else 0)

/-- The entries of an accumulator store that rows of `w` entries of a region reach. -/
def Desc.regionEnd (d : Desc) (m w : Nat) : Nat := d.entry0 + (m - 1) * d.stride + w

/-- A WSF region of `m` rows by `w` entries in this core's accumulator store. -/
def State.regionOk (s : State) (c : Nat) (d : Desc) (m w : Nat) : Bool :=
  d.split == 0 && d.base % 16 == 0 && s.runInAcc c (d.base, 16) && decide (m ≤ d.rows) && decide (w ≤ d.stride) &&
    decide (d.regionEnd m w ≤ 131072)

/-- Two regions share an entry. -/
def regionsMeet (a b : Desc) (m wa wb : Nat) : Bool :=
  (List.range m).any (fun r => (List.range m).any (fun q =>
    let x := a.entry0 + r * a.stride
    let y := b.entry0 + q * b.stride
    decide (x < y + wb) && decide (y < x + wa)))

/-- Steps 5 to 7 of R239 for a step with keys of shape `h`; `kop` and `vop` are the operand numbers that name K and V. `extra`
are the checks of its source. -/
def checkAttn (s : State) (c : Nat) (sl : Slot) (x : AttnStep) (h : KvShape) (kop vop : Nat) (extra : List (Unit → Exit)) :
    Exit :=
  let get (t : Option TReg) : Option Desc := t.bind sl.td
  let b := x.a.b.toNat
  match sl.td x.tq, sl.td x.tz, sl.td x.a.ts with
  | some dq, some dz, some ds =>
    let m := dq.rows
    let on (t : Option TReg) (f : Desc → Exit) : Exit :=
      match get t with
      | some d => f d
      | none => .go
    let first : List (Unit → Exit) := [
      fun _ => require (mmaFmt dq.fmt && dq.fmt != .int8) xFormat 1,
      fun _ => on x.tout (fun d => require (d.fmt == (if x.kind = 0 then .fp32 else .wsf)) xFormat 2),
      fun _ => require (dz.fmt == .wsf) xFormat 3,
      fun _ => require (mmaFmt h.fk && h.fk != .int8 && pairOk h.fk dq.fmt) xFormat kop,
      fun _ => require (h.fv.isFloat && pairOk h.fv .bf16) xFormat vop,
      fun _ => on x.tm (fun d => require (d.fmt == .fp32) xFormat 18),
      fun _ => require (s.inSpad c dq && decide (m ≤ 256) && decide (1 ≤ h.dk) && decide (h.dk ≤ 256) && dq.cols == h.dk &&
        (!dq.fmt.isMx || (dq.blockAxis == 0 && dq.axisOrigin % 32 == 0))) xShape 1,
      fun _ => on x.tout (fun d =>
        if x.kind = 0 then require (s.inSpad c d && d.rows == m && d.cols == 4 + h.dv) xShape 2
        else require (s.regionOk c d m (h.dv + 1)) xShape 2),
      fun _ => require (s.regionOk c dz m b && decide (b ≤ dz.cols)) xShape 3,
      fun _ => on x.tout (fun d => require (x.kind == 0 || !regionsMeet d dz m (h.dv + 1) b) xShape 3),
      fun _ => require (s.inSpad c ds && decide (2 * h.blockBytes b ≤ (ds.dataRuns.map Prod.snd).sum)) xShape 4,
      fun _ => let v := ofFp32 (x.scale sl); require (isFin v && Val.zero.lt v) xShape 9,
      fun _ => require (x.k0 sl % 32 == 0) xShape 10,
      fun _ => require (decide (1 ≤ b) && decide (b ≤ 256) && decide (1 ≤ h.dv) && decide (h.dv ≤ 256)) xShape 11]
    let last : List (Unit → Exit) := [
      fun _ => on x.tm (fun d => require (s.inSpad c d && d.rows == m && d.cols == 1) xShape 18),
      fun _ => if x.kind = 2 then on x.tout (fun d => require (d.anchor == dz.anchor) xAnchor 3) else .go]
    firstOf (first ++ extra ++ last)
  | _, _, _ => needTds sl x.tds

/-- A DIRECT source's checks (R158, R176): tensors in this core's scratchpad in the page layout, that hold the valid keys. -/
def checkDirect (s : State) (c : Nat) (sl : Slot) (x : AttnStep) (dk dv : Desc) (sbv : SReg) : List (Unit → Exit) :=
  let base := directBase sl sbv
  let k0 := x.k0 sl
  let n := min (k0 + x.a.b.toNat) (base + directValid sl sbv) - base
  [ fun _ => require (s.inSpad c dk && (!dk.fmt.isMx || (dk.blockAxis == 1 && dk.axisOrigin % 32 == 0)) &&
      (n == 0 || decide (n ≤ dk.cols))) xShape 14,
    fun _ => require (s.inSpad c dv && (!dv.fmt.isMx || (dv.blockAxis == 1 && dv.axisOrigin % 32 == 0)) &&
      (n == 0 || decide (n ≤ dv.rows))) xShape 15,
    fun _ => require (decide (base ≤ k0)) xShape 16 ]

/-- A PAGED source's checks: the head, and the key range of a windowed sequence (R159, R231). -/
def checkPaged (sl : Slot) (x : AttnStep) (d : SeqDesc) (head : Fin 8) : List (Unit → Exit) :=
  [ fun _ => require (!d.windowed || (decide (d.residentLo ≤ x.k0 sl) && decide (x.k0 sl + x.a.b.toNat ≤ d.length))) xShape 10,
    fun _ => require (decide (head.val < d.hKv)) xShape 13 ]

/-- The scratchpad runs a step touches. -/
def AttnStep.runs (x : AttnStep) (sl : Slot) : List (Nat × Nat) := x.tds.flatMap (fun p => sl.runs p.2)

/-- The scratchpad runs a step reads: the query tile, the state tile or maximum it updates, a DIRECT source. -/
def AttnStep.reads (x : AttnStep) (sl : Slot) : List (Nat × Nat) :=
  sl.runs x.tq ++ (if x.kind = 0 then (x.tout.map sl.runs).getD [] else []) ++ (x.tm.map sl.runs).getD [] ++
    (match x.a.src with | .direct tk tv _ _ => sl.runs tk ++ sl.runs tv | .paged .. => [])

/-! ### Page reach (R183, R239 step 9) -/

/-- The frames of the keys of a block below LENGTH, found through the page tables. -/
def fetchFrames (c tc : Nat) (d : SeqDesc) : List Nat → State → Except KvFail (State × List Nat)
  | [], s => .ok (s, [])
  | k :: t, s =>
    let p := d.pageOf k
    match readEntry c tc (d.dirEntryAddr p) s with
    | .error e => .error e
    | .ok (s, v) =>
      match readEntry c tc (leafEntryAddr (entryFrame v) p) s with
      | .error e => .error e
      | .ok (s, w) =>
        match fetchFrames c tc d t s with
        | .error e => .error e
        | .ok (s, l) => .ok (s, entryFrame w :: l)

/-- The bytes of head `h` of key `k` in frame `f`. -/
def SeqDesc.keyRuns (d : SeqDesc) (h k f : Nat) : List (Nat × Nat) :=
  let t := k % d.pt
  let run (bo w : Nat) : Nat × Nat := (f + bo / 8, (bo % 8 + w + 7) / 8)
  (List.range d.dK).map (fun i => run (d.kBit h t i) d.fk.width) ++
  (List.range d.dV).map (fun i => run (d.vBit h t i) d.fv.width) ++
  (if d.fk.isMx then (List.range ((d.dK + 31) / 32)).map (fun b => (f + d.kScaleOff h t (32 * b), 1)) else []) ++
  (if d.fv.isMx then (List.range d.dV).map (fun i => (f + d.vScaleOff h t i, 1)) else [])

/-- Every run read, for its failures and its corrections. -/
def fetchRuns (c tc : Nat) : List (Nat × Nat) → State → Except KvFail State
  | [], s => .ok s
  | r :: t, s =>
    match kvRd c tc (selfAddr r.1) r.2 s with
    | .error e => .error e
    | .ok (s, _) => fetchRuns c tc t s

/-- How a step leaves its queue: started with its snapshot and frames, or as a KV instruction does. -/
inductive AttnExit where
  | go (s : State) (snap : Nat) (frames : List Nat)
  | other (x : KvExit)
  deriving DecidableEq, Repr

/-- The checks of steps 4 to 9 that ASTEP, AMAX and AEXP make. -/
def attnExit (s : State) (c : Nat) (sl : Slot) (x : AttnStep) : AttnExit :=
  let unit : Exit := if s.get F.attStatus_state [c] = 3 then .stop (refusal 5 3 0) else .go
  let out (e : Exit) : Option KvExit := e.kv s
  let scratch : Unit → Option KvExit := fun _ =>
    match out (firstOf [fun _ => unit, fun _ => s.bankCheck c (x.runs sl)]) with
    | some e => some e
    | none => match s.parityHit (x.reads sl) with
      | some a => some (.discard (s.parityFound a (mCore c) false true) stParity (selfAddr a))
      | none => none
  match out (needTds sl x.tds) with
  | some e => .other e
  | none =>
    match x.a.src with
    | .direct tk tv sbv _ =>
      match sl.td tk, sl.td tv with
      | some dk, some dv =>
        let h : KvShape := { dk := dk.rows, dv := dv.cols, fk := dk.fmt, fv := dv.fmt }
        (match out (checkAttn s c sl x h 14 15 (checkDirect s c sl x dk dv sbv)) with
        | some e => .other e
        | none => match scratch () with
          | some e => .other e
          | none => .go s 0 [])
      | _, _ => .other .wait
    | .paged sseq head =>
      let q := seqNum sl sseq
      match kvRd c sl.tc (s.seqAddr q) 64 s with
      | .error e => .other (e.exit s c sl.tc q false)
      | .ok (s', b) =>
        let d := SeqDesc.ofNat (leOf b)
        match out (checkAttn s c sl x d.shape 12 12 (checkPaged sl x d head)) with
        | some e => .other e
        | none => match out unit with
          | some e => .other e
          | none =>
            if d.st ≠ seqOpen ∧ d.st ≠ seqSealed then .other (.stop s (refusal 8 d.st q))
            else match scratch () with
              | some e => .other e
              | none =>
                let ks := ((List.range x.a.b.toNat).map (fun j => x.k0 sl + j)).filter (fun k => decide (k < d.length))
                match fetchFrames c sl.tc d ks s' with
                | .error e => .other (e.exit s c sl.tc q false)
                | .ok (s', fs) =>
                  match fetchRuns c sl.tc ((ks.zip fs).flatMap (fun p => d.keyRuns head.val p.1 p.2)) s' with
                  | .error e => .other (e.exit s c sl.tc q false)
                  | .ok s' => .go s' (leOf b) fs

/-! ### Effects -/

/-- The keys and values a step reads. -/
def State.keyBlock (s : State) (sl : Slot) (x : AttnStep) (r : Running) : Option KeyBlock :=
  match x.a.src with
  | .paged _ head => some (s.pagedBlock (SeqDesc.ofNat r.snap) r.frames head.val (x.k0 sl))
  | .direct tk tv sbv _ =>
    match sl.td tk, sl.td tv with
    | some dk, some dv => some (s.directBlock dk dv (directBase sl sbv) (directValid sl sbv) (x.k0 sl))
    | _, _ => none

def AttnStep.par (x : AttnStep) (sl : Slot) (r : Running) : StepPar :=
  { qbase := (sl.s x.a.sqb).toNat, scale := x.scale sl, k0 := x.k0 sl, b := x.a.b.toNat, causal := x.a.causal
    win := if !x.a.win then none else match x.a.src with
      | .paged .. => some (SeqDesc.ofNat r.snap).windowTokens
      | .direct _ _ _ sw => some (sl.s sw).toNat }

/-- The staging area holds what the unit put there: free values, for a PAGED source (R159, R167). -/
def State.stage (s : State) (sl : Slot) (x : AttnStep) : State :=
  match x.a.src with
  | .direct .. => s
  | .paged .. =>
    (sl.runs x.a.ts).foldl (fun s r =>
      let f := s.fresh
      f.2.pokes (localOf r.1) ((List.range r.2).map (fun i => BitVec.ofNat 8 (Config.peerByte f.1 i)))) s

/-- The scores of row `r` (R161). -/
def State.scoreRow (s : State) (dq dz : Desc) (kb : KeyBlock) (p : StepPar) (r : Nat) : List Val × BitVec 8 :=
  let zs := (List.range p.b).map (fun j => s.score dq kb p dz.anchor r j)
  (zs.map Prod.fst, zs.foldl (fun f z => f ||| z.2) 0#8)

/-- The entries of the score region of row `r` receive the products (R161). -/
def State.writeScores (t s : State) (c : Nat) (dq dz : Desc) (kb : KeyBlock) (p : StepPar) (r : Nat) : State :=
  (List.range p.b).foldl (fun t j =>
    t.accSet c (dz.entry0 + r * dz.stride + j) (s.qkCell dq kb dz.anchor r j).1) t

/-- R165: what AEXP adds to one row of its O region. -/
def State.aexpRow (s : State) (c : Nat) (compat : Bool) (kb : KeyBlock) (zs : List Val) (m : Val) (d : Desc) (r : Nat) :
    State × BitVec 8 :=
  let ps := s.probs c compat zs m
  let x := (List.range kb.dv).foldl (fun (st : State × BitVec 8) i =>
    let w := pvCell kb zs ps.1 d.anchor i
    (st.1.accAdd c (d.entry0 + r * d.stride + i) w.1, st.2 ||| w.2)) (s, ps.2)
  (ps.1.foldl (fun (t : State) v => t.accAdd c (d.entry0 + r * d.stride + kb.dv) (Wsf.ofTerm 126 (-102) v)) x.1,
    x.2 ||| (if m.isNan || ps.1.any Val.isNan then flInvalid else 0#8))

/-- ASTEP, AMAX and AEXP over every query row. -/
def State.doAttn (s : State) (c : Nat) (sl : Slot) (x : AttnStep) (run : Running) : State × BitVec 8 :=
  match sl.td x.tq, sl.td x.tz, s.keyBlock sl x run with
  | some dq, some dz, some kb =>
    let p := x.par sl run
    let y := (List.range dq.rows).foldl (fun (st : State × BitVec 8) r =>
      let z := s.scoreRow dq dz kb p r
      let t := st.1.writeScores s c dq dz kb p r
      let fl := st.2 ||| z.2
      match x.kind, x.tout.bind sl.td, x.tm.bind sl.td with
      | 0, some d, _ =>
        let u := s.astepRow c sl.compat kb z.1 (Config.pvAnchor (dz.anchor + 512).toNat) (s.tileRow d r kb.dv)
        (t.setTileRow d r u.1, fl ||| u.2)
      | 1, _, some d =>
        let m := valMax (s.elem d r 0) (z.1.foldl valMax (.inf true))
        let q := toFp32 m
        (t.setElemCode d r 0 q.1, fl ||| q.2 ||| flagOp [s.elem d r 0] m)
      | _, some d, some dm =>
        let u := t.aexpRow c sl.compat kb z.1 (s.elem dm r 0) d r
        (u.1, fl ||| u.2)
      | _, _, _ => (t, fl)) (s, 0#8)
    (y.1.stage sl x, y.2)
  | _, _, _ => (s, 0#8)

/-! ### AFIN and AMRG -/

/-- Steps 4 to 6 for AFIN (R158, R231, R237). -/
def checkAfin (s : State) (c : Nat) (sl : Slot) (tout td : TReg) (tl tm : Option TReg) : Exit :=
  let opt (t : Option TReg) (f : Desc → Exit) : Exit :=
    match t.bind sl.td with
    | some d => f d
    | none => .go
  firstOf
    [ fun _ => needTds sl ([(1, tout), (2, td)] ++ (tl.map (fun t => (3, t))).toList ++ (tm.map (fun t => (6, t))).toList),
      fun _ => opt (some tout) (fun d => require (d.fmt == (if tm.isSome then .wsf else .fp32)) xFormat 1),
      fun _ => opt (some td) (fun d => require (d.fmt != .wsf && d.fmt != .int32 && d.fmt != .int64) xFormat 2),
      fun _ => opt tl (fun d => require (d.fmt == .fp32) xFormat 3),
      fun _ => opt tm (fun d => require (d.fmt == .fp32) xFormat 6),
      fun _ => opt (some tout) (fun o => opt (some td) (fun d => firstOf
        [ fun _ => if tm.isSome then require (s.regionOk c o d.rows (d.cols + 1)) xShape 1
            else require (s.inSpad c o && o.rows == d.rows && o.cols == 4 + d.cols) xShape 1,
          fun _ => require (s.inSpad c d) xShape 2,
          fun _ => opt tl (fun l => require (s.inSpad c l && l.rows == d.rows && l.cols == 1) xShape 3),
          fun _ => opt tm (fun l => require (s.inSpad c l && l.rows == d.rows && l.cols == 1) xShape 6) ])) ]

/-- R163, R165: the output of one element, and its flags; a row whose l is +0 gives +0. -/
def quotient (o l : Val) : Val × BitVec 8 :=
  if l.isZero then (Val.zero, 0#8) else let q := o.div l; (q, flagOp [o, l] q)

def State.doAfin (s : State) (c : Nat) (sl : Slot) (tout td : TReg) (tl tm : Option TReg) : State × BitVec 8 :=
  match sl.td tout, sl.td td with
  | some o, some d =>
    let lsum (r : Nat) : Val × BitVec 8 :=
      match tm with
      | none => (s.elem o r 1, 0#8)
      | some _ => (s.accGet c (o.entry0 + r * o.stride + d.cols)).convert (-102)
    let val (r i : Nat) : Val × BitVec 8 :=
      match tm with
      | none => quotient (s.elem o r (4 + i)) (lsum r).1
      | some _ =>
        let x := (s.accGet c (o.entry0 + r * o.stride + i)).convert o.anchor
        let q := quotient x.1 (lsum r).1
        (q.1, x.2 ||| (lsum r).2 ||| q.2)
    let fl := (List.range d.rows).foldl (fun f r => (List.range d.cols).foldl (fun f i => f ||| (val r i).2) f) 0#8
    let y := s.writeTensor d 0 d.rows (fun r i => (val r i).1)
    match tl.bind sl.td with
    | none => (y.1, y.2 ||| fl)
    | some dl =>
      let m (r : Nat) : Val :=
        match tm.bind sl.td with
        | some dm => s.elem dm r 0
        | none => s.elem o r 0
      (List.range d.rows).foldl (fun (st : State × BitVec 8) r =>
        let g := s.log2 c sl.compat (lsum r).1
        let e := (m r).add g.1
        let q := toFp32 e
        (st.1.setElemCode dl r 0 q.1, st.2 ||| g.2 ||| q.2 ||| flagOp [m r, g.1] e)) (y.1, y.2 ||| fl)
  | _, _ => (s, 0#8)

/-- Tile `i` of AMRG's source (R231). -/
def Desc.tile (d : Desc) (i : Nat) : Desc := { d with base := d.base + i * d.rows * d.stride * 4 }

def checkAmrg (s : State) (c : Nat) (sl : Slot) (ta tout : TReg) (nm1 : BitVec 6) : Exit :=
  match sl.td ta, sl.td tout with
  | some a, some o => firstOf
    [ fun _ => require (a.fmt == .fp32) xFormat 1,
      fun _ => require (o.fmt == .fp32) xFormat 2,
      fun _ => require ((List.range (nm1.toNat + 1)).all (fun i => s.inSpad c (a.tile i)) && decide (5 ≤ a.cols) &&
        decide (a.cols ≤ 260)) xShape 1,
      fun _ => require (s.inSpad c o && o.rows == a.rows && o.cols == a.cols) xShape 2,
      fun _ => require (nm1 != 0#6) xShape 3 ]
  | _, _ => needTds sl [(1, ta), (2, tout)]

/-- R169. -/
def State.doAmrg (s : State) (c : Nat) (sl : Slot) (ta tout : TReg) (nm1 : BitVec 6) : State × BitVec 8 :=
  match sl.td ta, sl.td tout with
  | some a, some o =>
    (List.range o.rows).foldl (fun (st : State × BitVec 8) r =>
      let x := s.mergeTiles c sl.compat (a.cols - 4) ((List.range (nm1.toNat + 1)).map (fun i =>
        s.tileRow (a.tile i) r (a.cols - 4)))
      (st.1.setTileRow o r x.1, st.2 ||| x.2)) (s, 0#8)
  | _, _ => (s, 0#8)

/-- The scratchpad runs that AFIN and AMRG touch, and those they read. -/
def afinRuns (sl : Slot) (tout td : TReg) (tl tm : Option TReg) : List (Nat × Nat) :=
  sl.runs tout ++ sl.runs td ++ (tl.map sl.runs).getD [] ++ (tm.map sl.runs).getD []
def afinReads (sl : Slot) (tout : TReg) (tm : Option TReg) : List (Nat × Nat) := sl.runs tout ++ (tm.map sl.runs).getD []
def amrgReads (sl : Slot) (ta : TReg) (nm1 : BitVec 6) : List (Nat × Nat) :=
  match sl.td ta with
  | some a => (List.range (nm1.toNat + 1)).flatMap (fun i => (a.tile i).allRuns)
  | none => []

end Sys2Proof.Machine
end

