-- ==== Sys2Proof/Machine/Foots.lean ====
section
/-! DEFINITION. What each instruction reads and writes, for R80, R244 and R247: its footprint. -/

namespace Sys2Proof.Machine

/-- An elementwise vector instruction by its operands (R228). -/
def vecOf : Instr → Option VecIns :=
  let tb : VecB → Option TReg := fun b => match b with | .tensor t => some t | .scalar _ => none
  let sb : VecB → Option SReg := fun b => match b with | .tensor _ => none | .scalar r => some r
  fun i => match i with
  | .vadd _ td ta b => some { op := .add, td := td, ta := some ta, tb := tb b, tc := none, sb := sb b }
  | .vsub _ td ta b => some { op := .sub, td := td, ta := some ta, tb := tb b, tc := none, sb := sb b }
  | .vmul _ td ta b => some { op := .mul, td := td, ta := some ta, tb := tb b, tc := none, sb := sb b }
  | .vfma _ td ta b tc => some { op := .fma, td := td, ta := some ta, tb := tb b, tc := some tc, sb := sb b }
  | .vmin _ td ta b => some { op := .min, td := td, ta := some ta, tb := tb b, tc := none, sb := sb b }
  | .vmax _ td ta b => some { op := .max, td := td, ta := some ta, tb := tb b, tc := none, sb := sb b }
  | .vabs _ td ta => some { op := .abs, td := td, ta := some ta, tb := none, tc := none, sb := none }
  | .vneg _ td ta => some { op := .neg, td := td, ta := some ta, tb := none, tc := none, sb := none }
  | .vscale _ td ta b => some { op := .scale, td := td, ta := some ta, tb := none, tc := none, sb := sb b }
  | .vcmp _ td ta b rel => some { op := .cmp rel.val, td := td, ta := some ta, tb := tb b, tc := none, sb := sb b }
  | .vsel _ td ta b tc => some { op := .sel, td := td, ta := some ta, tb := tb b, tc := some tc, sb := sb b }
  | .vcvt _ td ta => some { op := .cvt, td := td, ta := some ta, tb := none, tc := none, sb := none }
  | .vbcast _ td b => some { op := .bcast, td := td, ta := none, tb := none, tc := none, sb := sb b }
  | _ => none

/-- A reduction: its operation, destination and source. -/
def redOf : Instr → Option (RedOp × TReg × TReg)
  | .vrsum _ td ta => some (.sum, td, ta)
  | .vrmax _ td ta => some (.max, td, ta)
  | .vrmin _ td ta => some (.min, td, ta)
  | _ => none

/-- The registers of operand b and of n. -/
def cmpRegs : CmpB → List SReg
  | .reg r => [r]
  | .imm _ => []
def syncRegs : SyncN → List SReg
  | .reg r => [r]
  | .imm _ => []

/-- The bytes a posted addition touches at its target. -/
def addBytes : Instr → Nat
  | .ataddI32 .. | .ataddF32 .. => 4
  | .ataddI64 .. => 8
  | .ataddBf16 .. => 2
  | _ => 16

/-- Runs by the storage they name: on this chip the one storage address, else the global address (R80, R32). -/
def State.canonRun (s : State) (r : Nat × Nat) : Nat × Nat :=
  if s.isHere r.1 then (canon (localOf r.1), r.2) else r

/-- The rows of a WSF region that AEXP adds to: its columns and the sum beside them. -/
def regionRuns (d : Desc) : List (Nat × Nat) :=
  (List.range d.rows).map (fun r => (d.byteAddr r 0, 16 * (d.cols + 1)))

/-- Scalar registers an attention step reads. -/
def AttnStep.regs (x : AttnStep) : List SReg :=
  [x.a.sqb, x.a.sc, x.a.sk0] ++ (match x.a.src with
    | .paged q _ => [q]
    | .direct _ _ sbv sw => if x.a.win then [sbv, sw] else [sbv])

/-- The scratchpad and accumulator runs of an attention step that it writes. -/
def AttnStep.writes (x : AttnStep) (sl : Slot) : List (Nat × Nat) :=
  sl.runs x.tz ++ sl.runs x.a.ts ++
    (match x.tout with
    | some t => if x.kind = 2 then ((sl.td t).map regionRuns).getD [] else sl.runs t
    | none => []) ++
    (if x.kind = 1 then (x.tm.map sl.runs).getD [] else [])

/-- The runs of an instruction at a unit that it reads and that it writes, in this core's scratchpad and accumulator store. -/
def unitReads (sl : Slot) (i : Instr) : List (Nat × Nat) :=
  match vecOf i with
  | some v => (v.tds.drop 1).flatMap (fun p => sl.runs p.2)
  | none => match redOf i with
    | some r => sl.runs r.2.2
    | none => match attnOf i with
      | some x => x.reads sl
      | none => match i with
        | .mma _ tw tx _ _ => sl.runs tw ++ sl.runs tx
        | .macc _ ts _ => sl.runs ts
        | .mcvt _ ts _ => sl.runs ts
        | .spl _ _ ta .. => sl.runs ta
        | .spld _ _ _ sa => [((sl.s sa).toNat, 5152)]
        | .rstat _ _ ta .. | .rstatc _ _ ta .. => sl.runs ta
        | .afin _ tout _ _ tm => afinReads sl tout tm
        | .amrg _ ta _ nm1 => amrgReads sl ta nm1
        | .nbseq _ _ _ cnm1 sa => [((sl.s sa).toNat, 32 * (cnm1.val + 1))]
        | .nbload _ _ ta .. => sl.runs ta
        | .kvopen _ _ sa => [((sl.s sa).toNat, 64)]
        | .kvapp _ _ _ tk tv => sl.runs tk ++ sl.runs tv
        | _ => []

def unitWrites (sl : Slot) (i : Instr) : List (Nat × Nat) :=
  match vecOf i with
  | some v => sl.runs v.td
  | none => match redOf i with
    | some r => sl.runs r.2.1
    | none => match attnOf i with
      | some x => x.writes sl
      | none => match i with
        | .mma _ _ _ tout _ | .macc _ _ tout | .mzero _ tout => sl.runs tout
        | .mcvt _ _ td => sl.runs td
        | .spl _ td .. | .rstat _ td .. | .rstatc _ td .. => sl.runs td
        | .afin _ _ td tl _ => sl.runs td ++ (tl.map sl.runs).getD []
        | .amrg _ _ tout _ => sl.runs tout
        | _ => []

/-- The runs of scratchpad bytes that an instruction touches (R246). -/
def touchedRuns (sl : Slot) (i : Instr) : List (Nat × Nat) := unitReads sl i ++ unitWrites sl i

/-- Registers, predicates and descriptors of an instruction, by what it does with them. -/
def regFoot (i : Instr) : Foot :=
  let r3 (sd sa sb : SReg) : Foot := { sr := srs [sa, sb], sw := srs [sd] }
  let r2 (sd sa : SReg) : Foot := { sr := srs [sa], sw := srs [sd] }
  let cmp (pd : PReg) (sa : SReg) (b : CmpB) : Foot :=
    { sr := srs (sa :: cmpRegs b), pw := if pd = 0 then [] else [pd.val] }
  let p3 (pd pa pb : PReg) : Foot := { pr := [pa.val, pb.val], pw := if pd = 0 then [] else [pd.val] }
  let td (l : List TReg) (r : List SReg) : Foot := { tr := trs l, sr := srs r }
  match vecOf i with
  | some v => td (v.tds.map Prod.snd) v.sb.toList
  | none => match attnOf i with
    | some x => td (x.tds.map Prod.snd) x.regs
    | none => match i with
      | .srd _ sd _ => { sw := srs [sd] }
      | .add _ d a b | .sub _ d a b | .and _ d a b | .or _ d a b | .xor _ d a b | .shl _ d a b | .shr _ d a b
      | .sra _ d a b | .mul _ d a b | .mulhu _ d a b | .min _ d a b | .max _ d a b | .minu _ d a b | .maxu _ d a b
      | .fadd _ d a b | .fsub _ d a b | .fmul _ d a b | .fmin _ d a b | .fmax _ d a b => r3 d a b
      | .i2f _ d a _ | .f2i _ d a _ => r2 d a
      | .addImm _ d a _ | .subImm _ d a _ | .andImm _ d a _ | .orImm _ d a _ | .xorImm _ d a _ | .shlImm _ d a _
      | .shrImm _ d a _ | .sraImm _ d a _ | .mulImm _ d a _ | .mulhuImm _ d a _ | .minImm _ d a _ | .maxImm _ d a _
      | .minuImm _ d a _ | .maxuImm _ d a _ | .faddImm _ d a _ | .fsubImm _ d a _ | .fmulImm _ d a _ | .fminImm _ d a _
      | .fmaxImm _ d a _ | .i2fImm _ d a _ | .f2iImm _ d a _ => r2 d a
      | .eq _ d a b | .ne _ d a b | .lt _ d a b | .le _ d a b | .ltu _ d a b | .leu _ d a b | .feq _ d a b | .fne _ d a b
      | .flt _ d a b | .fle _ d a b => cmp d a b
      | .pand _ d a b | .por _ d a b | .pxor _ d a b | .pandn _ d a b => p3 d a b
      | .br _ sl _ => { sw := srs [sl] }
      | .jr _ sl sa => r2 sl sa
      | .ld8 _ d a _ | .ld16 _ d a _ | .ld32 _ d a _ | .ld64 _ d a _ | .lds8 _ d a _ | .lds16 _ d a _ | .lds32 _ d a _ =>
        r2 d a
      | .st8 _ d a _ | .st16 _ d a _ | .st32 _ d a _ | .st64 _ d a _ | .ataddI32 _ d a _ | .ataddI64 _ d a _
      | .ataddF32 _ d a _ | .ataddBf16 _ d a _ => { sr := srs [d, a] }
      | .ataddWsf _ d a _ => { sr := srs [d, d + 1, a] }
      | .tdld _ t a _ => { sr := srs [a], tw := trs [t] }
      | .tdst _ t a _ => { sr := srs [a], tr := trs [t] }
      | .tdset _ t _ a => { sr := srs [a], tr := trs [t], tw := trs [t] }
      | .tdcp _ t u => { tr := trs [u], tw := trs [t] }
      | .tdinv _ t => { tw := trs [t] }
      | .dmaq _ _ a .. => { sr := srs [a] }
      | .mma _ a b c _ => td [a, b, c] []
      | .macc _ a b | .mcvt _ a b => td [a, b] []
      | .mzero _ a => td [a] []
      | .vrsum _ a b | .vrmax _ a b | .vrmin _ a b => td [a, b] []
      | .spl _ a b _ pm => td [a, b] pm.toList
      | .spld _ _ _ a => { sr := srs [a] }
      | .rstat _ a b _ _ shs se si _ => td [a, b] (shs.toList ++ [se, si])
      | .rstatc _ a b _ se => td [a, b] [se]
      | .afin _ a b tl tm => td ([a, b] ++ tl.toList ++ tm.toList) []
      | .amrg _ a b _ => td [a, b] []
      | .nbseq _ _ _ _ a => { sr := srs [a] }
      | .nbload _ _ t .. => td [t] []
      | .kvopen _ q a => { sr := srs [q, a] }
      | .kvapp _ q _ a b => td [a, b] [q]
      | .kvseal _ q | .kvfree _ q => { sr := srs [q] }
      | .cform _ g a | .crun _ g a .. => { sr := srs [g, a] }
      | .cleave _ g => { sr := srs [g] }
      | .semsig _ _ n | .semwait _ _ n => { sr := srs (syncRegs n) }
      | .semsigr _ n a => { sr := srs (a :: syncRegs n) }
      | .twait _ a => { sr := srs [a] }
      | _ => {}

/-- R80: the footprint of an instruction of a slot. -/
def State.foot (s : State) (sl : Slot) (i : Instr) : Foot :=
  let f := regFoot i
  let guard : List Nat := match issueOf i with
    | some g => if g.pred = 0 then [] else [g.pred.val]
    | none => []
  let acc : List (Bool × Nat × Nat) :=
    match accessOf sl i with
    | some x =>
      let len := if isAdd i then addBytes i else x.op.len
      [(x.op.isWrite, s.canonRun (x.addr, len))]
    | none => []
  { f with
    pr := f.pr ++ guard
    mem := rdRuns ((unitReads sl i).map s.canonRun) ++ wrRuns ((unitWrites sl i).map s.canonRun) ++ acc }

/-- The sequence that an instruction of the KV unit, or a step with a PAGED source, names (R183). -/
def kvSeqOf (sl : Slot) : Instr → Option Nat
  | .kvopen _ q _ | .kvapp _ q .. | .kvseal _ q | .kvfree _ q => some (seqNum sl q)
  | _ => none
def stepSeqOf (sl : Slot) (i : Instr) : Option Nat :=
  match attnOf i with
  | some x => (match x.a.src with | .paged q _ => some (seqNum sl q) | .direct .. => none)
  | none => none

/-- R80: an instruction waits for an unfinished one: their footprints conflict, or a step reads a sequence that an earlier KV
instruction of the command writes. -/
def State.waitsFor (s : State) (sl : Slot) (later earlier : Instr) : Bool :=
  (s.foot sl earlier).conflict (s.foot sl later) ||
  (match kvSeqOf sl earlier, stepSeqOf sl later with
  | some a, some b => a == b
  | _, _ => false)

end Sys2Proof.Machine
end

