-- ==== Sys2Proof/Machine/Units.lean ====
section
/-! DEFINITION. The units of a core: how an instruction leaves its issue queue (R96, R98, R239), what it then does, and how the
instruction that a unit executes ends (R113 to R126, R141 to R144, R155, R156, R172, R190). -/

namespace Sys2Proof.Machine

/-! ### Leaving a queue -/

/-- How an instruction leaves its unit's issue queue: the unit executes it; it has done what it does at its exit; it stops;
its command is discarded for data that cannot be used; it waits. -/
inductive Leave where
  | start (s : State) (r : Running)
  | done (s : State)
  | stop (s : State) (d : Detail)
  | discard (s : State) (status addr : Nat)
  | wait
  deriving DecidableEq, Repr

def KvExit.leave : KvExit → Leave
  | .done s => .done s
  | .stop s d => .stop s d
  | .discard s st a => .discard s st a
  | .wait => .wait

/-- Checks, then what follows where they pass. -/
def Exit.leave (e : Exit) (s : State) (f : Unit → Leave) : Leave :=
  match e with
  | .stop d => .stop s d
  | .wait => .wait
  | .go => f ()

/-- Codes of units (R97). -/
def stIdle : Nat := 0
def stBusy : Nat := 1
def stReplay : Nat := 2
def stFaulted : Nat := 3

/-- R96: a class that is FAULTED refuses. -/
def State.notFaulted (s : State) (f : Fld) (c cls : Nat) : Exit :=
  if s.get f [c] = stFaulted then .stop (refusal cls stFaulted 0) else .go

/-- R107 to R115, R239: a matrix instruction. An injected error is taken by the next MMA (R126). -/
def leaveMatrix (s : State) (c : Nat) (sl : Slot) (e : UEntry) : Leave :=
  let chk : Exit := match e.instr with
    | .mma _ tw tx tout _ => checkMma s c sl tw tx tout
    | .macc _ ts tout => checkMacc s c sl ts tout
    | .mzero _ tout => checkMzero s c sl tout
    | .mcvt _ ts td => checkMcvt s c sl ts td
    | _ => .go
  (firstOf [fun _ => chk, fun _ => s.notFaulted F.mxaStatus_state c 1, fun _ => s.bankCheck c (touchedRuns sl e.instr)]).leave s
    (fun _ =>
      let s' := s.put F.mxaStatus_state [c] stBusy
      match e.instr with
      | .mma .. => .start (s'.modCore c (fun x => { x with injMxa := 0 })) { entry := e, inj := (s.core c).injMxa }
      | _ => .start s' { entry := e })

/-- R141 to R143: SPLD. -/
def leaveSpld (s : State) (c : Nat) (sl : Slot) (e : UEntry) (t : Fin 4) (b : Fin 2) (sa : SReg) : Leave :=
  let a := (sl.s sa).toNat
  let k := 2 * t.val + b.val
  let st := s.bankState c k
  let bound : Bool := match (s.core c).runs .vector with
    | some r => r.bind == k
    | none => false
  (firstOf
    [ fun _ => require (a % 64 == 0 && s.runInSpad c (a, 5152)) xShape 3,
      fun _ => s.notFaulted F.vsuStatus_vecState c 2,
      fun _ => if st = bankLive then .stop (refusal 3 bankLive k) else .go,
      fun _ => s.bankCheck c [(a, 5152)],
      fun _ => if bound || st == bankLoading then .wait else .go ]).leave s
    (fun _ => .done (((s.setBank c k bankLoading).put F.vsuStatus_vecState [c] stBusy).modCore c (fun x =>
      { x with loading := x.loading ++ [e] })))

/-- R142 to R144: SPSW. -/
def leaveSpsw (s : State) (c : Nat) (t : Fin 4) (b : Fin 2) : Leave :=
  let k := 2 * t.val + b.val
  let st := s.bankState c k
  (firstOf
    [ fun _ => if (s.core c).loading.isEmpty then .go else .wait,
      fun _ => s.notFaulted F.vsuStatus_vecState c 2,
      fun _ => if st = bankReady then .go else .stop (refusal 3 st k) ]).leave s
    (fun _ => .done ((s.setBank c k bankLive).setBank c (2 * t.val + (1 - b.val)) bankReady))

/-- R127, R228, R229: an instruction of the vector and spline unit; a lookup binds its bank (R144). -/
def leaveVector (s : State) (c : Nat) (sl : Slot) (e : UEntry) : Leave :=
  match e.instr with
  | .spld _ t b sa => leaveSpld s c sl e t b sa
  | .spsw _ t b => leaveSpsw s c t b
  | i =>
    let chk : Exit := match vecOf i with
      | some v => checkVec s c sl v
      | none => match redOf i with
        | some r => checkRed s c sl r.2.1 r.2.2
        | none => match i with
          | .spl _ td ta fn _ => checkSpl s c sl td ta fn.val
          | _ => .go
    let bank : Nat := match i with
      | .spl _ _ _ fn _ => if 12 ≤ fn.val then s.liveBank c (fn.val - 12) else 8
      | _ => 8
    (firstOf
      [ fun _ => chk, fun _ => s.notFaulted F.vsuStatus_vecState c 2,
        fun _ => s.bankCheck c (touchedRuns sl i),
        fun _ => if ((s.core c).runs .vector).isSome then .wait else .go ]).leave s
      (fun _ => .start ((s.put F.vsuStatus_vecState [c] stBusy).modCore c (fun x => { x with injVsu := 0 }))
        { entry := e, inj := (s.core c).injVsu, bind := bank })

/-- R147 to R153, R230: a row statistics instruction. -/
def leaveRowstat (s : State) (c : Nat) (sl : Slot) (e : UEntry) : Leave :=
  let chk : Exit := match e.instr with
    | .rstat _ td ta partl _ _ _ _ r => checkRstat s c sl td ta partl r
    | .rstatc _ td ta _ _ => checkRstatc s c sl td ta
    | _ => .go
  (firstOf
    [ fun _ => chk, fun _ => s.notFaulted F.vsuStatus_rstState c 4,
      fun _ => s.bankCheck c (touchedRuns sl e.instr) ]).leave s
    (fun _ => .start ((s.put F.vsuStatus_rstState [c] stBusy).modCore c (fun x => { x with injVsu := 0 }))
      { entry := e, inj := (s.core c).injVsu })

/-- R158 to R160, R172: an attention-step instruction. -/
def leaveAttention (s : State) (c : Nat) (sl : Slot) (e : UEntry) : Leave :=
  let busy (s : State) : State := s.put F.attStatus_state [c] stBusy
  match attnOf e.instr with
  | some x =>
    (match attnExit s c sl x with
    | .go s' snap fs => .start (busy s') { entry := e, snap := snap, frames := fs }
    | .other k => k.leave)
  | none =>
    let chk : Exit := match e.instr with
      | .afin _ tout td tl tm => checkAfin s c sl tout td tl tm
      | .amrg _ ta tout nm1 => checkAmrg s c sl ta tout nm1
      | _ => .go
    (firstOf [fun _ => chk, fun _ => s.notFaulted F.attStatus_state c 5,
      fun _ => s.bankCheck c (touchedRuns sl e.instr)]).leave s (fun _ => .start (busy s) { entry := e })

/-! ### The near-bank queue (R190) -/

/-- The element codes of a tensor in element order, and the scale bytes of each of its blocks of 32 (R190, R195). -/
def State.tensorCodes (s : State) (d : Desc) : List Nat :=
  (List.range (d.rows * d.cols)).map (fun x => s.elemCode d (x / d.cols) (x % d.cols))
def State.tensorScales (s : State) (d : Desc) : List Nat :=
  if d.fmt.isMx then (List.range ((d.rows * d.cols + 31) / 32)).map (fun b =>
    s.scaleCode d (32 * b / d.cols) (32 * b % d.cols)) else []

/-- R194: formats that LOADV admits. -/
def loadvOk (f : Fmt) : Bool := f != .wsf && f != .int32 && f != .int64

def leaveNbseq (s : State) (c n : Nat) (sl : Slot) (start cnm1 : Fin 64) (sa : SReg) : Leave :=
  let a := (sl.s sa).toNat
  let run := (a, 32 * (cnm1.val + 1))
  (firstOf
    [ fun _ => require (a % 32 == 0 && s.runInSpad c run) xShape 4,
      fun _ => if s.chanUsable c n then .go else .stop (unusable 7 n),
      fun _ => s.bankCheck c [run],
      fun _ => if (s.run c n).isSome || (s.nextRun c n).isSome then .wait else .go ]).leave s
    (fun _ =>
      match s.parityHit [run] with
      | some p => .discard (s.parityFound p (mCore c) false true) stParity (selfAddr p)
      | none => .done ((List.range (cnm1.val + 1)).foldl (fun s j =>
          s.pokes (seqStore c n + 32 * ((start.val + j) % 64)) (s.peeks (localOf a + 32 * j) 32)) s))

def leaveNbload (s : State) (c n : Nat) (sl : Slot) (e : UEntry) (ta : TReg) (mask : BitVec 4) (index : Bool)
    (ioff : BitVec 12) : Leave :=
  match sl.td ta with
  | none => (needTds sl [(2, ta)]).leave s (fun _ => .wait)
  | some d =>
    let len := d.rows * d.cols
    (firstOf
      [ fun _ => require (if index then d.fmt == .int32 else loadvOk d.fmt) xFormat 2,
        fun _ => require (s.inSpad c d && decide (len ≤ 4096)) xShape 2,
        fun _ => require (mask != 0#4) xShape 3,
        fun _ => require (!index || decide (ioff.toNat + len ≤ 4096)) xShape 5,
        fun _ => if s.chanUsable c n && (List.range 4).all (fun k => !mask.getLsbD k || s.nbrUsable c n k) then .go
          else .stop (unusable 7 n),
        fun _ => s.bankCheck c d.allRuns,
        fun _ => if (s.run c n).isSome || (s.nextRun c n).isSome || s.chanMode c n == modeSwitching ||
            (tget none (s.core c).nbloads n).isSome || (s.chanMode c n == modeMemory && (s.chan c n).holder.isSome)
          then .wait else .go ]).leave s
      (fun _ => .done (s.modCore c (fun x => { x with nbloads := tset none x.nbloads n (some e) })))

/-- R190, R191, R446: NBRUN: the run checks, the mode, then the run slot or the next slot. -/
def leaveNbrun (s : State) (c n : Nat) (sl : Slot) (e : UEntry) (start event : Fin 64) : Leave :=
  let mode := s.chanMode c n
  let run : NbRun := { start := start.val, step := start.val, slot := e.slot, seq := e.seq, tc := sl.tc, event := event.val }
  (firstOf
    [ fun _ => checkRun s c n start.val,
      fun _ => if s.chanUsable c n then .go else .stop (unusable 7 n),
      fun _ => if s.regionWanted (offChan c n) then .wait else .go,
      fun _ => if mode = modeProcessor ∨ mode = modeShared then .go else .stop (refusal 7 mode n),
      fun _ => if (s.nextRun c n).isSome || (tget none (s.core c).nbloads n).isSome then .wait else .go ]).leave s
    (fun _ => .done (if (s.run c n).isNone then s.startRun c n run else s.setNextRun c n (some run)))

/-- R190, R199: NBMODE is at the unit until the channel reaches the mode. -/
def leaveNbmode (s : State) (c n : Nat) (e : UEntry) (mode : Fin 4) : Leave :=
  if !s.chanUsable c n then .stop s (unusable 7 n)
  else if s.chanMode c n = modeSwitching then .wait
  else match s.requestMode c n mode.val with
    | none => .stop s (refusal 7 (s.chanMode c n) n)
    | some s' => if s'.chanMode c n = modeSwitching then .start s' { entry := e } else .done s'

def leaveNearbank (s : State) (c : Nat) (sl : Slot) (e : UEntry) : Leave :=
  match e.instr with
  | .nbmode _ n mode => leaveNbmode s c n.val e mode
  | .nbseq _ n start cnm1 sa => leaveNbseq s c n.val sl start cnm1 sa
  | .nbload _ n ta mask index ioff => leaveNbload s c n.val sl e ta mask index ioff
  | .nbrun _ n start event => leaveNbrun s c n.val sl e start event
  | _ => .done s

/-! ### The KV, collective and DMA queues -/

/-- R183: an attention step of the core that names sequence `q` has not finished: an earlier one of the same command, or any of
another slot (DESIGN CHOICE for the latter). -/
def State.stepReads (s : State) (c : Nat) (e : UEntry) (q : Nat) : Bool :=
  let x := s.core c
  (x.queue .attention ++ ((x.runs .attention).map Running.entry).toList).any (fun a =>
    (a.slot != e.slot || decide (a.seq < e.seq)) &&
    (match s.slot c a.slot.val with
    | some sl => stepSeqOf sl a.instr == some q
    | none => false))

/-- R183: a KV instruction waits for the steps that name its sequence, and while the KV unit is not enabled (DESIGN CHOICE). -/
def leaveKv (s : State) (c : Nat) (sl : Slot) (e : UEntry) : Leave :=
  let held : Bool := match kvSeqOf sl e.instr with
    | some q => s.stepReads c e q
    | none => false
  if held || !s.flag F.kvControl_enable [c] then .wait
  else match e.instr with
    | .kvopen _ q sa => (kvOpen s c sl q sa).leave
    | .kvapp _ q nm1 tk tv => (kvApp s c sl q nm1 tk tv).leave
    | .kvseal _ q => (kvSeal s c sl q).leave
    | .kvfree _ q => (kvFree s c sl q).leave
    | _ => .done s

/-- Whether a read of CFORM is held at its target. -/
def State.cformHeld (s : State) (c tc group addr : Nat) : Bool :=
  let x := s.fetch (mColl (c / 16)) tc addr 64
  match x.2 with
  | .hold => true
  | .ok b =>
    let q := GroupDesc.ofBytes b
    q.ok group && decide (q.engine < 4) && (x.1.fetch (mColl q.engine) tc q.members (4 * (q.n + q.spares))).2 == .hold
  | _ => false

/-- R234, R338 to R341: the collective instructions. -/
def leaveCollective (s : State) (c : Nat) (sl : Slot) (e : UEntry) : Leave :=
  let st (g : Nat) : Nat := match s.findGroup g with
    | some y => s.groupState y.1 y.2.1
    | none => grNone
  match e.instr with
  | .cform _ sg sa =>
    let g := (sl.s sg).toNat
    let a := (sl.s sa).toNat
    (firstOf
      [ fun _ => require (a % 64 == 0) xShape 2,
        fun _ => if st g = grNone then .go else .stop (refusal 9 (st g) g),
        fun _ => if s.cformHeld c sl.tc g a then .wait else .go ]).leave s (fun _ => .done (s.cform c sl.tc g a))
  | .crun _ sg sa event evEn =>
    let g := (sl.s sg).toNat
    let a := (sl.s sa).toNat
    let ev : Option Nat := if evEn then some event.val else none
    (match s.crunCheck c sl.tc g a with
    | .stop d => .stop s d
    | .wait => .wait
    | .ends s' d code => .done (s'.crunEnds c sl.tc g a d code ev)
    | .start s' d i x src dst =>
      let r := s'.crunStart c e.slot.val e.seq ev a d i x src dst
      match r.2 with
      | .hold => .wait
      | _ => .done r.1)
  | .cleave _ sg =>
    let g := (sl.s sg).toNat
    if st g = grFormed ∨ st g = grRunning ∨ st g = grReforming then .done (s.cleave g) else .stop s (refusal 9 (st g) g)
  | _ => .done s

/-- R226, R250, R253: DMAQ hands its engine a descriptor. -/
def leaveDma (s : State) (c : Nat) (sl : Slot) (e : UEntry) : Leave :=
  match e.instr with
  | .dmaq _ eng sa event evEn =>
    let a := (sl.s sa).toNat
    let st := s.dmaState c eng.val
    let x := s.eng c eng.val
    (firstOf
      [ fun _ => require (a % 64 == 0) xShape 2,
        fun _ => if st = dmaStopped ∨ st = dmaFaulted then .stop (refusal 6 st eng.val) else .go,
        fun _ => if dmaCap ≤ x.queue.length then .wait else .go ]).leave s
      (fun _ => .done (s.setEng c eng.val { x with
        queue := x.queue ++ [{ addr := a, tc := sl.tc, owner := some e, event := if evEn then some event.val else none }] }))
  | _ => .done s

/-- An instruction at the head of its unit's queue; one that needs the unit free waits while the unit executes another (R98). -/
def leave (s : State) (c : Nat) (u : UnitId) (sl : Slot) (e : UEntry) : Leave :=
  let free : Bool := ((s.core c).runs u).isNone
  match u with
  | .matrix => if free then leaveMatrix s c sl e else .wait
  | .vector => leaveVector s c sl e
  | .rowstat => if free then leaveRowstat s c sl e else .wait
  | .attention => if free then leaveAttention s c sl e else .wait
  | .nearbank => if free then leaveNearbank s c sl e else .wait
  | .kv => leaveKv s c sl e
  | .collective => leaveCollective s c sl e
  | .dma _ => leaveDma s c sl e

/-- The head of a queue leaves it. -/
def State.dequeue (s : State) (c : Nat) (u : UnitId) : State :=
  s.modCore c (fun x => x.setQueue u ((x.queue u).drop 1))

/-- The instructions at the head of a queue leave it, one after the other, for as long as they can. -/
def kickUnit (c : Nat) (u : UnitId) : Nat → State → State
  | 0, s => s
  | n + 1, s =>
    match (s.core c).queue u with
    | [] => s
    | e :: _ =>
      match s.slot c e.slot.val with
      | none => kickUnit c u n (s.dequeue c u)
      | some sl =>
        match leave s c u sl e with
        | .wait => s
        | .start s r => kickUnit c u n ((s.dequeue c u).modCore c (·.setRuns u (some r)))
        | .done s => kickUnit c u n (s.dequeue c u)
        | .stop s d => kickUnit c u n ((s.dequeue c u).stopEntry c e d)
        | .discard s st a => kickUnit c u n ((s.dequeue c u).dataDiscard c e.slot.val st a)

/-- One pass over the queues of a core. -/
def State.kickPass (s : State) (c : Nat) : State :=
  UnitId.all.foldl (fun s u => kickUnit c u ((s.core c).queue u).length s) s

/-- A unit that executes nothing and has nothing queued is not BUSY. -/
def State.idleUnit (s : State) (c : Nat) (u : UnitId) (f : Fld) : State :=
  let x := s.core c
  if s.get f [c] = stBusy ∧ (x.runs u).isNone ∧ (x.queue u).isEmpty ∧ (u ≠ .vector ∨ x.loading.isEmpty) then
    s.put f [c] stIdle
  else s

/-- Every instruction of core `c` that can leave its queue does so: a pass may free what a queue before waited for. -/
def State.kick (s : State) (c : Nat) : State :=
  let s := if s.coreUsable c ∧ !s.issueHalted then (((s.kickPass c).kickPass c).kickPass c).kickPass c else s
  (((s.idleUnit c .matrix F.mxaStatus_state).idleUnit c .vector F.vsuStatus_vecState).idleUnit c .rowstat
    F.vsuStatus_rstState).idleUnit c .attention F.attStatus_state

/-- What a change may have released, on every core: instructions at their queue exits, accesses that wait beside the machine, a
region that a mailbox request waits for. -/
def State.kickAll (s : State) : State :=
  let s := if s.heldAcc.isEmpty then s else s.retryHeld
  ((s.cores.map Prod.fst).foldl (fun s c => s.kick c) s).regionCheck

/-! ### The matrix array at work (R113, R120 to R126) -/

/-- A mismatch recorded: row, group, kind, whether in the repeat, column; the instruction's address. -/
def State.mxaLog (s : State) (c row group kind : Nat) (again : Bool) (col : Nat) (e : UEntry) : State :=
  s.puts [(F.mxaStatus_mismatch, [c], 1), (F.mxaMismatchLog_row, [c], row),
    (F.mxaMismatchLog_group, [c], if kind ≤ 1 then group else 0), (F.mxaMismatchLog_kind, [c], kind),
    (F.mxaMismatchLog_inReplay, [c], if again then 1 else 0),
    (F.mxaMismatchLog_column, [c], if kind = 1 then col else 0), (F.mxaMismatchPc_pc, [c], e.pc)]

def State.setRunning (s : State) (c : Nat) (u : UnitId) (r : Running) : State := s.modCore c (·.setRuns u (some r))

/-- R121, R122: a mismatch of the array on row `row`: the first begins the replay of an MMA or the repeat of another instruction,
the second is a core fault. -/
def State.mxaMismatch (s : State) (c : Nat) (r : Running) (mma : Bool) (group kind col : Nat) : State :=
  let s := s.mxaLog c (if mma then r.row else 0) group kind r.again col r.entry
  if r.again then ((s.put F.mxaStatus_state [c] stFaulted).bump F.mxaFaults_count [c]).coreFault c 1 kind
  else
    let s := s.setRunning c .matrix { r with again := true }
    if mma then (s.put F.mxaStatus_state [c] stReplay).bump F.mxaReplays_count [c] else s

/-- The bytes that row `m` of an MMA consumes: the weights and its activations. -/
def rowReads (sl : Slot) (tw : TReg) (dx : Desc) (m : Nat) : List (Nat × Nat) :=
  sl.runs tw ++ dx.rowRuns m dx.cols ++
    (if dx.fmt.isMx then [(dx.scaleAddr m 0, (dx.axisOrigin + dx.cols - 1) / 32 - dx.axisOrigin / 32 + 1)] else [])

/-- R113, R120, R123: the next row's checks are decided: it commits, or a mismatch does what R121 and R122 say. -/
def State.commit (s : State) (c : Nat) (mm : Option (Fin 4 × Fin 8 × BitVec 8)) : State :=
  if s.issueHalted then s
  else match (s.core c).runs .matrix with
  | none => s
  | some r =>
    match r.entry.instr, s.slot c r.entry.slot.val with
    | .mma _ tw tx tout acc, some sl =>
      (match sl.td tw, sl.td tx, sl.td tout with
      | some dw, some dx, some dt =>
        if dx.rows ≤ r.row then s
        else match s.parityHit (rowReads sl tw dx r.row) with
        | some a => s.parityDiscard c r.entry.slot.val a
        | none =>
          let injected := r.row == 0 && decide ((if r.again then 2 else 1) ≤ r.inj)
          if injected then
            let f := s.fresh
            f.2.mxaMismatch c r true (Config.cycles f.1 % 8) 0 0
          else match mm with
          | some m => s.mxaMismatch c r true m.2.1.val m.1.val m.2.2.toNat
          | none =>
            let x := s.commitRow c dw dx dt acc r.row
            let s := (x.1.orFlags c r.entry.slot.val x.2).setRunning c .matrix { r with row := r.row + 1 }
            if r.again ∧ r.row + 1 = dx.rows then s.put F.mxaStatus_state [c] stBusy else s
      | _, _, _ => s)
    | _, _ => s

/-- The instruction that a unit executes has ended; the unit is IDLE once nothing is left for it. -/
def State.afterEnd (s : State) (c : Nat) (u : UnitId) (f : Fld) : State :=
  (s.modCore c (·.setRuns u none)).idleUnit c u f

/-- Effects of a finished instruction's read of bad bytes, or of its results `f` with their flags (R70). -/
def State.finish (s : State) (c : Nat) (r : Running) (reads : List (Nat × Nat)) (f : State → State × BitVec 8)
    (after : State → State) : State :=
  match s.parityHit reads with
  | some a => s.parityDiscard c r.entry.slot.val a
  | none =>
    let x := f s
    after (x.1.orFlags c r.entry.slot.val x.2)

/-- R116, R125, R126: the running matrix instruction ends: an MMA whose rows are all committed, or a move with its effect. -/
def State.mmaEnd (s : State) (c : Nat) : State :=
  match (s.core c).runs .matrix with
  | none => s
  | some r =>
    let ends (s : State) : State := s.afterEnd c .matrix F.mxaStatus_state
    match s.slot c r.entry.slot.val with
    | none => s
    | some sl =>
      let reads := unitReads sl r.entry.instr
      match r.entry.instr with
      | .mma _ tw tx _ _ =>
        (match sl.td tw, sl.td tx with
        | some dw, some dx =>
          if r.row < dx.rows then s
          else ends ((s.bump F.mxaInstructions_count [c]).bump F.mxaMacCount_count [c] (dw.rows * dw.cols * dx.rows))
        | _, _ => s)
      | .macc _ ts tout =>
        (match sl.td ts, sl.td tout with
        | some ds, some dt => s.finish c r reads (fun s => (s.doMacc c ds dt, 0#8)) ends
        | _, _ => s)
      | .mzero _ tout =>
        (match sl.td tout with
        | some dt => s.finish c r reads (fun s => (s.doMzero c dt, 0#8)) ends
        | none => s)
      | .mcvt _ ts td =>
        (match sl.td ts, sl.td td with
        | some ds, some dd => s.finish c r reads (fun s => s.doMcvt ds dd) ends
        | _, _ => s)
      | _ => s

/-! ### The other units at work (R155, R156, R172) -/

/-- The unit code of VSU_MISMATCH_LOG (R157). -/
def vsuUnit : Instr → Nat
  | .spl .. => 1
  | .rstat .. | .rstatc .. => 2
  | _ => 0

/-- R155: a mismatch of the vector, spline or row statistics unit. -/
def State.vsuMismatch (s : State) (c : Nat) (u : UnitId) (f : Fld) (cls : Nat) (r : Running) (kind bank : Nat) : State :=
  let s := s.puts [(F.vsuStatus_mismatch, [c], 1), (F.vsuMismatchLog_unit, [c], vsuUnit r.entry.instr),
    (F.vsuMismatchLog_kind, [c], kind), (F.vsuMismatchLog_inRepeat, [c], if r.again then 1 else 0),
    (F.vsuMismatchLog_bank, [c], if kind = 2 then bank else 0), (F.vsuMismatchPc_pc, [c], r.entry.pc)]
  if r.again then ((s.put f [c] stFaulted).bump F.vsuFaults_count [c]).coreFault c cls kind
  else (s.setRunning c u { r with again := true }).bump F.vsuRepeats_count [c]

/-- R172: a mismatch of the attention-step unit. -/
def State.attMismatch (s : State) (c : Nat) (r : Running) (kind : Nat) : State :=
  let s := s.put F.attStatus_mismatch [c] 1
  if r.again then ((s.put F.attStatus_state [c] stFaulted).bump F.attFaults_count [c]).coreFault c 5 kind
  else (s.setRunning c .attention { r with again := true }).bump F.attRepeats_count [c]

/-- R121, R155, R172: a mismatch that a unit finds in the instruction it executes. -/
def State.unitRepeat (s : State) (c : Nat) (u : CheckedUnit) (kind bank : Nat) : State :=
  let x := s.core c
  match u with
  | .matrixMove =>
    (match x.runs .matrix with
    | some r => (match r.entry.instr with
      | .mma .. => s
      | _ => s.mxaMismatch c r false 0 2 0)
    | none => s)
  | .vector => (match x.runs .vector with
    | some r => s.vsuMismatch c .vector F.vsuStatus_vecState 2 r kind bank
    | none => s)
  | .rowstat => (match x.runs .rowstat with
    | some r => s.vsuMismatch c .rowstat F.vsuStatus_rstState 4 r kind bank
    | none => s)
  | .attention => (match x.runs .attention with
    | some r => s.attMismatch c r kind
    | none => s)

/-- The vector or spline instruction that runs ends with its results. -/
def State.vectorEnd (s : State) (c : Nat) (r : Running) (sl : Slot) : State :=
  let i := r.entry.instr
  let reads := unitReads sl i
  let ends (f : Fld) (s : State) : State := (s.bump f [c]).afterEnd c .vector F.vsuStatus_vecState
  match vecOf i with
  | some v =>
    let rows := match sl.td v.td with | some d => d.rows | none => 0
    s.finish c r reads (fun s => s.doVec sl v 0 rows) (ends F.vecInstructions_count)
  | none =>
    match redOf i with
    | some q =>
      let rows := match sl.td q.2.1 with | some d => d.rows | none => 0
      s.finish c r reads (fun s => s.doRed sl q.1 q.2.1 q.2.2 0 rows) (ends F.vecInstructions_count)
    | none =>
      match i with
      | .spl _ td ta fn pm =>
        let rows := match sl.td td with | some d => d.rows | none => 0
        s.finish c r reads (fun s => s.doSpl c sl td ta fn.val r.bind pm 0 rows) (ends F.splInstructions_count)
      | _ => s

def State.rowstatEnd (s : State) (c : Nat) (r : Running) (sl : Slot) : State :=
  let i := r.entry.instr
  let reads := unitReads sl i
  let ends (n : Nat) (s : State) : State := (s.bump F.rstRows_count [c] n).afterEnd c .rowstat F.vsuStatus_rstState
  match i with
  | .rstat _ td ta partl div shs se si e =>
    let rows := match sl.td td with | some d => d.rows | none => 0
    s.finish c r reads (fun s => s.doRstat sl td ta partl div shs se si e 0 rows) (ends rows)
  | .rstatc _ td ta div se => s.finish c r reads (fun s => s.doRstatc sl td ta div se) (ends 1)
  | _ => s

def State.attentionEnd (s : State) (c : Nat) (r : Running) (sl : Slot) : State :=
  let i := r.entry.instr
  let reads := unitReads sl i
  let ends (s : State) : State := s.afterEnd c .attention F.attStatus_state
  match attnOf i with
  | some x => s.finish c r reads (fun s => s.doAttn c sl x r) (fun s => ends (s.bump F.attSteps_count [c]))
  | none =>
    match i with
    | .afin _ tout td tl tm => s.finish c r reads (fun s => s.doAfin c sl tout td tl tm) ends
    | .amrg _ ta tout nm1 => s.finish c r reads (fun s => s.doAmrg c sl ta tout nm1) ends
    | _ => s

/-- R156, R172: the instruction that a unit executes ends. An injected error is found before its results are written (R157). -/
def State.unitEnd (s : State) (c : Nat) (u : StreamUnit) : State :=
  let v : UnitId := match u with | .vector => .vector | .rowstat => .rowstat | .attention => .attention
  match (s.core c).runs v with
  | none => s
  | some r =>
    match s.slot c r.entry.slot.val with
    | none => s
    | some sl =>
      let injected := decide ((if r.again then 2 else 1) ≤ r.inj)
      match u with
      | .vector => if injected then s.vsuMismatch c .vector F.vsuStatus_vecState 2 r 0 0 else s.vectorEnd c r sl
      | .rowstat => if injected then s.vsuMismatch c .rowstat F.vsuStatus_rstState 4 r 0 0 else s.rowstatEnd c r sl
      | .attention => s.attentionEnd c r sl

/-! ### Loads in progress -/

/-- R141, R142: the oldest user-table load ends: its image is checked; the bank is READY with it, or EMPTY. -/
def State.spldDone (s : State) (c : Nat) : State :=
  match (s.core c).loading with
  | [] => s
  | e :: t =>
    let s := s.modCore c (fun x => { x with loading := t })
    match e.instr, s.slot c e.slot.val with
    | .spld _ tb b sa, some sl =>
      let a := (sl.s sa).toNat
      let k := 2 * tb.val + b.val
      (match s.parityHit [(a, 5152)] with
      | some p => (s.setBank c k bankEmpty).parityDiscard c e.slot.val p
      | none =>
        let im := s.peekLE (localOf a) 5152
        if tableOk im then
          (s.setBank c k bankReady).modCore c (fun x => { x with tables := tset 0 x.tables k im })
        else (s.setBank c k bankEmpty).stopEntry c e (excDetail xTable 3))
    | _, _ => s

/-- R190, R232: the near-bank load on a channel ends: the buffers of the NBRs in its mask hold the elements. -/
def State.nbloadDone (s : State) (c n : Nat) : State :=
  match tget none (s.core c).nbloads n with
  | none => s
  | some e =>
    let s := s.modCore c (fun x => { x with nbloads := tset none x.nbloads n none })
    match e.instr, s.slot c e.slot.val with
    | .nbload _ _ ta mask index ioff, some sl =>
      (match sl.td ta with
      | none => s
      | some d =>
        match s.parityHit d.allRuns with
        | some a => s.parityDiscard c e.slot.val a
        | none =>
          let codes := s.tensorCodes d
          let scales := s.tensorScales d
          let fill (t : Table Nat) (o : Nat) (l : List Nat) : Table Nat :=
            (l.zip (List.range l.length)).foldl (fun t x => tset 0 t (o + x.2) x.1) t
          (List.range 4).foldl (fun s k =>
            if mask.getLsbD k then
              let b := s.buf c n k
              s.setBuf c n k (if index then { b with index := fill b.index ioff.toNat codes }
                else { b with vec := fill b.vec 0 codes, scales := fill b.scales 0 scales })
            else s) s)
    | _, _ => s

/-- R199: SWITCHING ends; an NBMODE that waits for the mode has finished. A load in progress is a locked sequence (R190). -/
def State.switchEnds (s : State) (c n : Nat) : State :=
  if (tget none (s.core c).nbloads n).isSome then s
  else
    let s := s.switched c n
    match (s.core c).runs .nearbank with
    | some r => (match r.entry.instr with
      | .nbmode _ m _ => if m.val = n ∧ s.chanMode c n ≠ modeSwitching then s.modCore c (·.setRuns .nearbank none) else s
      | _ => s)
    | none => s

end Sys2Proof.Machine
end

