-- ==== Sys2Proof/Machine/Words.lean ====
section
/-! DEFINITION. The instruction words in memory (R210 to R235): the layout of every class, the words that are illegal under
R211 and R213, and the instruction that a word spells. An instruction that comes as a command is the decoding of the word at its
context's program counter. -/

namespace Sys2Proof.Machine

/-- Whether an extension word is forbidden, required or allowed (R211). -/
inductive XRule where
  | no | req | opt
  deriving DecidableEq, Repr

/-- The fields of a word in the order of its layout row: lowest bit and width. -/
structure WordRow where
  x : XRule := .no
  fields : List (Nat × Nat) := []
  deriving DecidableEq, Repr

def wordR3 : WordRow := { fields := [(19, 5), (24, 5), (29, 5)] }
def wordImm : WordRow := { x := .opt, fields := [(19, 5), (24, 5), (29, 35)] }
def wordCmp : WordRow := { fields := [(19, 3), (22, 5), (27, 5), (32, 1), (33, 31)] }
def wordVec : WordRow := { fields := [(19, 6), (25, 6), (31, 6), (37, 6), (43, 1), (44, 3)] }
def wordAttn : WordRow := { x := .req, fields := [(19, 6), (25, 6), (31, 6), (37, 6), (43, 1), (44, 1), (45, 1)] }

/-- MINOR codes of the scalar classes (R215). -/
def scalarMinor (m : Nat) : Bool :=
  decide (m ≤ 0x0D) || (decide (0x10 ≤ m) && decide (m ≤ 0x14)) || m == 0x18 || m == 0x19

/-- R212 to R235: the layout of MAJOR and MINOR; none where the table does not define them. -/
def wordRow (major minor : Nat) : Option WordRow :=
  match major, minor with
  | 0x00, 0 | 0x00, 1 => some {}
  | 0x00, 2 => some { fields := [(19, 5)] }
  | 0x00, 3 => some { fields := [(19, 5), (24, 12)] }
  | 0x01, m => if scalarMinor m then some wordR3 else none
  | 0x02, m => if scalarMinor m then some wordImm else none
  | 0x03, m => if m ≤ 5 ∨ (8 ≤ m ∧ m ≤ 0x0B) then some wordCmp else none
  | 0x04, m => if m ≤ 3 then some { fields := [(19, 3), (22, 3), (25, 3)] } else none
  | 0x08, 0 => some { fields := [(19, 5), (32, 32)] }
  | 0x08, 1 => some { fields := [(19, 5), (24, 5)] }
  | 0x0C, m => if m ≤ 6 ∨ (8 ≤ m ∧ m ≤ 0x0B) ∨ (0x10 ≤ m ∧ m ≤ 0x14) then some { fields := [(19, 5), (24, 5), (29, 35)] }
    else none
  | 0x10, 0 | 0x10, 1 => some { fields := [(19, 6), (25, 5), (30, 34)] }
  | 0x10, 2 => some { fields := [(19, 6), (25, 3), (28, 5)] }
  | 0x10, 3 => some { fields := [(19, 6), (25, 6)] }
  | 0x10, 4 => some { fields := [(19, 6)] }
  | 0x14, 0 => some { fields := [(19, 2), (21, 5), (26, 6), (32, 1)] }
  | 0x18, 0 => some { fields := [(19, 6), (25, 6), (31, 6), (37, 1)] }
  | 0x18, 1 => some { fields := [(19, 6), (31, 6)] }
  | 0x18, 2 => some { fields := [(31, 6)] }
  | 0x18, 3 => some { fields := [(19, 6), (25, 6)] }
  | 0x1C, m => if m ≤ 0x0C ∨ (0x10 ≤ m ∧ m ≤ 0x12) then some wordVec else none
  | 0x1D, 0 => some { fields := [(19, 6), (25, 6), (31, 4), (35, 1), (36, 5)] }
  | 0x1D, 1 => some { fields := [(19, 2), (21, 1), (22, 5)] }
  | 0x1D, 2 => some { fields := [(19, 2), (21, 1)] }
  | 0x1E, 0 => some { fields := [(19, 6), (25, 6), (31, 1), (32, 1), (33, 1), (34, 5), (39, 5), (44, 5), (49, 9)] }
  | 0x1E, 1 => some { fields := [(19, 6), (25, 6), (32, 1), (39, 5)] }
  | 0x20, 0 | 0x20, 1 | 0x20, 2 => some wordAttn
  | 0x20, 3 => some { fields := [(19, 6), (25, 6), (31, 6), (37, 1), (38, 1), (39, 6)] }
  | 0x20, 4 => some { fields := [(19, 6), (25, 6), (31, 6)] }
  | 0x24, 0 => some { fields := [(19, 5), (24, 2)] }
  | 0x24, 1 => some { fields := [(19, 5), (24, 6), (30, 6), (36, 5)] }
  | 0x24, 2 => some { fields := [(19, 5), (24, 6), (30, 4), (34, 1), (35, 12)] }
  | 0x24, 3 => some { fields := [(19, 5), (24, 6), (30, 6)] }
  | 0x28, 0 => some { fields := [(19, 5), (24, 5)] }
  | 0x28, 1 => some { fields := [(19, 5), (24, 8), (32, 6), (38, 6)] }
  | 0x28, 2 | 0x28, 3 => some { fields := [(19, 5)] }
  | 0x2C, 0 => some { fields := [(19, 5), (24, 5)] }
  | 0x2C, 1 => some { fields := [(19, 5), (24, 5), (29, 6), (35, 1)] }
  | 0x2C, 2 => some { fields := [(19, 5)] }
  | 0x30, 0 | 0x30, 2 => some { fields := [(19, 8), (27, 1), (28, 5), (33, 16)] }
  | 0x30, 1 => some { fields := [(27, 1), (28, 5), (33, 16), (49, 5)] }
  | 0x30, 3 | 0x30, 4 => some { fields := [(19, 6)] }
  | 0x30, 5 => some { fields := [(19, 5)] }
  | _, _ => none

/-- Some bit of [63:19] that no field names is set (R213). -/
def reservedSet (r : WordRow) (w : Nat) : Bool :=
  (List.range 45).any (fun i => bit w (19 + i) && !r.fields.any (fun f => decide (f.1 ≤ 19 + i) && decide (19 + i < f.1 + f.2)))

/-- Operand numbers of the fields that the layouts mark unused in a word, with their values; `ext` is the extension word. -/
def unusedFields (major minor w ext : Nat) : List (Nat × Nat) :=
  let f (lo len : Nat) : Nat := bits w lo len
  let e (lo len : Nat) : Nat := bits ext lo len
  match major with
  | 0x02 => if bit w 6 then [(3, f 29 35)] else []
  | 0x03 => if bit w 32 then [(3, f 27 5)] else []
  | 0x1C => (if minor = 6 ∨ minor = 7 then [(3, f 31 6), (4, f 37 6)] else []) ++
      (if bit w 43 then [(3, f 36 1)] else []) ++ (if minor = 9 then [] else [(6, f 44 3)])
  | 0x1D => if minor = 0 ∧ !bit w 35 then [(5, f 36 5)] else []
  | 0x1E => if minor = 0 ∧ !bit w 33 then [(6, f 34 5)] else []
  | 0x20 =>
    if minor = 3 then (if bit w 37 then [] else [(3, f 31 6)]) ++ (if bit w 38 then [] else [(6, f 39 6)])
    else if minor = 4 then []
    else
      (if minor = 1 then [(2, f 25 6)] else []) ++
      (if bit w 43 then [(12, e 24 5), (13, e 29 3)] ++ (if bit w 45 then [] else [(17, e 49 5)])
       else [(14, e 32 6), (15, e 38 6), (16, e 44 5), (17, e 49 5)]) ++
      (if minor = 0 then [(18, e 54 6)] else []) ++ [(0, e 60 4)]
  | 0x30 => if minor = 0 ∨ minor = 2 then (if bit w 27 then [] else [(3, f 28 5)])
      else if minor = 1 then (if bit w 27 then [] else [(2, f 28 5)]) else []
  | _ => []

/-- R211, R213: a word that has no decoding, with the operand number of what makes it illegal: 0 for the word as a whole. -/
def illegalWord (w ext : Nat) : Option Nat :=
  let major := bits w 0 6
  let minor := bits w 11 8
  match wordRow major minor with
  | none => some 0
  | some r =>
    if (match r.x with | .no => bit w 6 | .req => !bit w 6 | .opt => false) then some 0
    else if reservedSet r w then some 0
    else ((unusedFields major minor w ext).find? (fun p => p.2 != 0)).map Prod.fst

/-! ### Decoding (R211 to R235) -/

/-- The fields of a word by their lowest bit: scalar registers, predicates and descriptor registers. -/
def fieldS (w lo : Nat) : SReg := Fin.ofNat 32 (bits w lo 5)
def fieldP (w lo : Nat) : PReg := Fin.ofNat 8 (bits w lo 3)
def fieldT (w lo : Nat) : TReg := Fin.ofNat 64 (bits w lo 6)

/-- The operand b of the immediate class: IMM, or the extension word (R215). -/
def fieldImm (w ext : Nat) : ImmB := if bit w 6 then .ext (BitVec.ofNat 64 ext) else .imm (BitVec.ofNat 35 (bits w 29 35))
/-- The operand b of a compare (R215). -/
def fieldCmp (w : Nat) : CmpB := if bit w 32 then .imm (BitVec.ofNat 31 (bits w 33 31)) else .reg (fieldS w 27)
/-- The operand b of the vector class: TB, or SB with VS = 1 (R228). -/
def fieldVec (w : Nat) : VecB := if bit w 43 then .scalar (fieldS w 31) else .tensor (fieldT w 31)
/-- The count of the sync class: N, or SN with NS = 1 (R235). -/
def fieldSync (w : Nat) : SyncN := if bit w 27 then .reg (fieldS w 28) else .imm (BitVec.ofNat 16 (bits w 33 16))
/-- The fields that the attention steps share, of the word and of its extension word (R231). -/
def fieldAttn (w x : Nat) : AttnArgs :=
  { ts := fieldT w 37, causal := bit w 44, win := bit w 45, sqb := fieldS x 0, sc := fieldS x 5, sk0 := fieldS x 10
    b := BitVec.ofNat 9 (bits x 15 9)
    src := if bit w 43 then .direct (fieldT x 32) (fieldT x 38) (fieldS x 44) (fieldS x 49)
      else .paged (fieldS x 24) (fieldP x 29) }

/-- The register class (R215). -/
def wordReg : Nat → Option (Issue → SReg → SReg → SReg → Instr)
  | 0x00 => some .add
  | 0x01 => some .sub
  | 0x02 => some .and
  | 0x03 => some .or
  | 0x04 => some .xor
  | 0x05 => some .shl
  | 0x06 => some .shr
  | 0x07 => some .sra
  | 0x08 => some .mul
  | 0x09 => some .mulhu
  | 0x0a => some .min
  | 0x0b => some .max
  | 0x0c => some .minu
  | 0x0d => some .maxu
  | 0x10 => some .fadd
  | 0x11 => some .fsub
  | 0x12 => some .fmul
  | 0x13 => some .fmin
  | 0x14 => some .fmax
  | 0x18 => some .i2f
  | 0x19 => some .f2i
  | _ => none

/-- The immediate class (R215). -/
def wordImmOp : Nat → Option (Issue → SReg → SReg → ImmB → Instr)
  | 0x00 => some .addImm
  | 0x01 => some .subImm
  | 0x02 => some .andImm
  | 0x03 => some .orImm
  | 0x04 => some .xorImm
  | 0x05 => some .shlImm
  | 0x06 => some .shrImm
  | 0x07 => some .sraImm
  | 0x08 => some .mulImm
  | 0x09 => some .mulhuImm
  | 0x0a => some .minImm
  | 0x0b => some .maxImm
  | 0x0c => some .minuImm
  | 0x0d => some .maxuImm
  | 0x10 => some .faddImm
  | 0x11 => some .fsubImm
  | 0x12 => some .fmulImm
  | 0x13 => some .fminImm
  | 0x14 => some .fmaxImm
  | 0x18 => some .i2fImm
  | 0x19 => some .f2iImm
  | _ => none

/-- The compare class (R215). -/
def wordCmpOp : Nat → Option (Issue → PReg → SReg → CmpB → Instr)
  | 0x00 => some .eq
  | 0x01 => some .ne
  | 0x02 => some .lt
  | 0x03 => some .le
  | 0x04 => some .ltu
  | 0x05 => some .leu
  | 0x08 => some .feq
  | 0x09 => some .fne
  | 0x0a => some .flt
  | 0x0b => some .fle
  | _ => none

/-- The predicate class (R215). -/
def wordPred : Nat → Option (Issue → PReg → PReg → PReg → Instr)
  | 0x00 => some .pand
  | 0x01 => some .por
  | 0x02 => some .pxor
  | 0x03 => some .pandn
  | _ => none

/-- The memory class (R217). -/
def wordMem : Nat → Option (Issue → SReg → SReg → BitVec 35 → Instr)
  | 0x00 => some .ld8
  | 0x01 => some .ld16
  | 0x02 => some .ld32
  | 0x03 => some .ld64
  | 0x04 => some .lds8
  | 0x05 => some .lds16
  | 0x06 => some .lds32
  | 0x08 => some .st8
  | 0x09 => some .st16
  | 0x0a => some .st32
  | 0x0b => some .st64
  | 0x10 => some .ataddI32
  | 0x11 => some .ataddI64
  | 0x12 => some .ataddF32
  | 0x13 => some .ataddBf16
  | 0x14 => some .ataddWsf
  | _ => none

/-- The vector class (R228). -/
def wordVecOp (g : Issue) (w : Nat) : Nat → Option Instr
  | 0x00 => some (.vadd g (fieldT w 19) (fieldT w 25) (if bit w 43 then .scalar (Fin.ofNat 32 (bits w 31 6)) else .tensor (fieldT w 31)))
  | 0x01 => some (.vsub g (fieldT w 19) (fieldT w 25) (if bit w 43 then .scalar (Fin.ofNat 32 (bits w 31 6)) else .tensor (fieldT w 31)))
  | 0x02 => some (.vmul g (fieldT w 19) (fieldT w 25) (if bit w 43 then .scalar (Fin.ofNat 32 (bits w 31 6)) else .tensor (fieldT w 31)))
  | 0x03 => some (.vfma g (fieldT w 19) (fieldT w 25) (if bit w 43 then .scalar (Fin.ofNat 32 (bits w 31 6)) else .tensor (fieldT w 31)) (fieldT w 37))
  | 0x04 => some (.vmin g (fieldT w 19) (fieldT w 25) (if bit w 43 then .scalar (Fin.ofNat 32 (bits w 31 6)) else .tensor (fieldT w 31)))
  | 0x05 => some (.vmax g (fieldT w 19) (fieldT w 25) (if bit w 43 then .scalar (Fin.ofNat 32 (bits w 31 6)) else .tensor (fieldT w 31)))
  | 0x06 => some (.vabs g (fieldT w 19) (fieldT w 25))
  | 0x07 => some (.vneg g (fieldT w 19) (fieldT w 25))
  | 0x08 => some (.vscale g (fieldT w 19) (fieldT w 25) (if bit w 43 then .scalar (Fin.ofNat 32 (bits w 31 6)) else .tensor (fieldT w 31)))
  | 0x09 => some (.vcmp g (fieldT w 19) (fieldT w 25) (if bit w 43 then .scalar (Fin.ofNat 32 (bits w 31 6)) else .tensor (fieldT w 31)) (fieldP w 44))
  | 0x0a => some (.vsel g (fieldT w 19) (fieldT w 25) (if bit w 43 then .scalar (Fin.ofNat 32 (bits w 31 6)) else .tensor (fieldT w 31)) (fieldT w 37))
  | 0x0b => some (.vcvt g (fieldT w 19) (fieldT w 25))
  | 0x0c => some (.vbcast g (fieldT w 19) (if bit w 43 then .scalar (Fin.ofNat 32 (bits w 31 6)) else .tensor (fieldT w 31)))
  | 0x10 => some (.vrsum g (fieldT w 19) (fieldT w 25))
  | 0x11 => some (.vrmax g (fieldT w 19) (fieldT w 25))
  | 0x12 => some (.vrmin g (fieldT w 19) (fieldT w 25))
  | _ => none

/-- R211 to R235: the instruction that a word spells on a core, its extension word beside it; none where MAJOR and MINOR are not
defined. A word that is illegal under R211 and R213 has no decoding. -/
def decodeWord (core : CoreId) (w x : Nat) : Option Instr :=
  let g : Issue := { core := core, pred := fieldP w 7, pn := bit w 10 }
  let minor := bits w 11 8
  if (illegalWord w x).isSome then none
  else match bits w 0 6, minor with
  | 0x01, m => (wordReg m).map (fun f => f g (fieldS w 19) (fieldS w 24) (fieldS w 29))
  | 0x02, m => (wordImmOp m).map (fun f => f g (fieldS w 19) (fieldS w 24) (fieldImm w x))
  | 0x03, m => (wordCmpOp m).map (fun f => f g (fieldP w 19) (fieldS w 22) (fieldCmp w))
  | 0x04, m => (wordPred m).map (fun f => f g (fieldP w 19) (fieldP w 22) (fieldP w 25))
  | 0x0C, m => (wordMem m).map (fun f => f g (fieldS w 19) (fieldS w 24) (BitVec.ofNat 35 (bits w 29 35)))
  | 0x1C, m => wordVecOp g w m
  | 0x00, 0x00 => some (.nop g)
  | 0x00, 0x01 => some (.endCmd g)
  | 0x00, 0x02 => some (.fence g (BitVec.ofNat 5 (bits w 19 5)))
  | 0x00, 0x03 => some (.srd g (fieldS w 19) (BitVec.ofNat 12 (bits w 24 12)))
  | 0x08, 0x00 => some (.br g (fieldS w 19) (BitVec.ofNat 32 (bits w 32 32)))
  | 0x08, 0x01 => some (.jr g (fieldS w 19) (fieldS w 24))
  | 0x10, 0x00 => some (.tdld g (fieldT w 19) (fieldS w 25) (BitVec.ofNat 34 (bits w 30 34)))
  | 0x10, 0x01 => some (.tdst g (fieldT w 19) (fieldS w 25) (BitVec.ofNat 34 (bits w 30 34)))
  | 0x10, 0x02 => some (.tdset g (fieldT w 19) (fieldP w 25) (fieldS w 28))
  | 0x10, 0x03 => some (.tdcp g (fieldT w 19) (fieldT w 25))
  | 0x10, 0x04 => some (.tdinv g (fieldT w 19))
  | 0x14, 0x00 => some (.dmaq g (Fin.ofNat 4 (bits w 19 2)) (fieldS w 21) (fieldT w 26) (bit w 32))
  | 0x18, 0x00 => some (.mma g (fieldT w 19) (fieldT w 25) (fieldT w 31) (bit w 37))
  | 0x18, 0x01 => some (.macc g (fieldT w 19) (fieldT w 31))
  | 0x18, 0x02 => some (.mzero g (fieldT w 31))
  | 0x18, 0x03 => some (.mcvt g (fieldT w 19) (fieldT w 25))
  | 0x1d, 0x00 => some (.spl g (fieldT w 19) (fieldT w 25) (Fin.ofNat 16 (bits w 31 4)) (if bit w 35 then some (fieldS w 36) else none))
  | 0x1d, 0x01 => some (.spld g (Fin.ofNat 4 (bits w 19 2)) (Fin.ofNat 2 (bits w 21 1)) (fieldS w 22))
  | 0x1d, 0x02 => some (.spsw g (Fin.ofNat 4 (bits w 19 2)) (Fin.ofNat 2 (bits w 21 1)))
  | 0x1e, 0x00 => some (.rstat g (fieldT w 19) (fieldT w 25) (bit w 31) (bit w 32) (if bit w 33 then some (fieldS w 34) else none) (fieldS w 39) (fieldS w 44) (BitVec.ofNat 9 (bits w 49 9)))
  | 0x1e, 0x01 => some (.rstatc g (fieldT w 19) (fieldT w 25) (bit w 32) (fieldS w 39))
  | 0x20, 0x00 => some (.astep g (fieldT w 19) (fieldT w 25) (fieldT w 31) (fieldAttn w x))
  | 0x20, 0x01 => some (.amax g (fieldT w 19) (fieldT w 31) (fieldT x 54) (fieldAttn w x))
  | 0x20, 0x02 => some (.aexp g (fieldT w 19) (fieldT w 25) (fieldT w 31) (fieldT x 54) (fieldAttn w x))
  | 0x20, 0x03 => some (.afin g (fieldT w 19) (fieldT w 25) (if bit w 37 then some (fieldT w 31) else none) (if bit w 38 then some (fieldT w 39) else none))
  | 0x20, 0x04 => some (.amrg g (fieldT w 19) (fieldT w 25) (BitVec.ofNat 6 (bits w 31 6)))
  | 0x24, 0x00 => some (.nbmode g (fieldS w 19) (Fin.ofNat 4 (bits w 24 2)))
  | 0x24, 0x01 => some (.nbseq g (fieldS w 19) (fieldT w 24) (fieldT w 30) (fieldS w 36))
  | 0x24, 0x02 => some (.nbload g (fieldS w 19) (fieldT w 24) (BitVec.ofNat 4 (bits w 30 4)) (bit w 34) (BitVec.ofNat 12 (bits w 35 12)))
  | 0x24, 0x03 => some (.nbrun g (fieldS w 19) (fieldT w 24) (fieldT w 30))
  | 0x28, 0x00 => some (.kvopen g (fieldS w 19) (fieldS w 24))
  | 0x28, 0x01 => some (.kvapp g (fieldS w 19) (BitVec.ofNat 8 (bits w 24 8)) (fieldT w 32) (fieldT w 38))
  | 0x28, 0x02 => some (.kvseal g (fieldS w 19))
  | 0x28, 0x03 => some (.kvfree g (fieldS w 19))
  | 0x2c, 0x00 => some (.cform g (fieldS w 19) (fieldS w 24))
  | 0x2c, 0x01 => some (.crun g (fieldS w 19) (fieldS w 24) (fieldT w 29) (bit w 35))
  | 0x2c, 0x02 => some (.cleave g (fieldS w 19))
  | 0x30, 0x00 => some (.semsig g (Fin.ofNat 256 (bits w 19 8)) (fieldSync w))
  | 0x30, 0x01 => some (.semsigr g (fieldSync w) (fieldS w 49))
  | 0x30, 0x02 => some (.semwait g (Fin.ofNat 256 (bits w 19 8)) (fieldSync w))
  | 0x30, 0x03 => some (.evwait g (fieldT w 19))
  | 0x30, 0x04 => some (.evset g (fieldT w 19))
  | 0x30, 0x05 => some (.twait g (fieldS w 19))
  | _, _ => none

end Sys2Proof.Machine
end

