-- ==== Sys2Proof/Machine/Issue.lean ====
section
/-! DEFINITION. The issue of an instruction by a core's sequencer (R79, R80, R84, R213, R214, R239): fetch, decoding, guard, the
hold of R80, and what the sequencer's own instructions do. -/

namespace Sys2Proof.Machine

/-- The fetch of the bytes at a program counter (R81, R84): read, or failed with a status. Bytes that their target holds back
(R36, R201) are served by the instruction cache, as stored (DESIGN CHOICE). -/
def State.fetchAt (s : State) (c tc pc len : Nat) : State × Ans :=
  let r := s.access (mCore c) tc pc (.rd len)
  match r.2 with
  | .cxl =>
    let f := r.1.fresh
    (f.2, .ok ((List.range len).map (fun i => BitVec.ofNat 8 (Config.peerByte f.1 i))))
  | .hold => (r.1, .ok (s.peeks (localOf pc) len))
  | _ => r

/-- How far the issue of an instruction comes: it stays where it is; the issue ends in another state (a stop, a skip, a
discard); it goes on, with the state after its fetch. -/
inductive Issued where
  | stays
  | ends (s : State)
  | go (s : State) (c k : Nat) (sl : Slot)
  deriving DecidableEq, Repr

/-- The program counter and the place in issue order after an instruction of `len` bytes. -/
def Slot.past (sl : Slot) (len : Nat) : Slot := { sl with pc := (sl.pc + len) % 2 ^ 64, seq := sl.seq + 1 }

/-- An instruction that has a unit finds its issue queue full (R79: 16 entries). -/
def State.queueFull (s : State) (c : Nat) (i : Instr) : Bool :=
  match unitOf i with
  | some u => decide (16 ≤ ((s.core c).queue u).length)
  | none => false

/-- The fetch of a word and of its extension word (R211, R239 step 1): both words, or the state in which the issue ends. -/
inductive Fetched where
  | word (s : State) (w x : Nat)
  | ends (s : State)
  deriving DecidableEq, Repr

/-- A fetch of the instruction of slot `k` failed: its command is discarded for data that cannot be used, or it stops. -/
def State.fetchFails (s : State) (c k st addr : Nat) (d : Detail) : State :=
  if 0x28 ≤ st then (s.dataDiscard c k st addr).kickAll else s.stopIssue c k { d with status := st }

/-- R84, R211: the words at the program counter of slot `k`. -/
def State.fetchInstr (s : State) (c k : Nat) (sl : Slot) : Fetched :=
  if sl.pc < sl.codeLo ∨ sl.codeHi < sl.pc + 8 ∨ sl.pc % 8 ≠ 0 then .ends (s.stopIssue c k (excDetail xFetch 0))
  else
    let f := s.fetchAt c sl.tc sl.pc 8
    match f.2 with
    | .fail st => .ends (f.1.fetchFails c k st sl.pc { status := st })
    | a =>
      let w := a.value
      if !bit w 6 then .word f.1 w 0
      else
        let d : Detail := { excDetail xFetch 0 with major := bits w 0 6, minor := bits w 11 8 }
        if sl.codeHi < sl.pc + 16 then .ends (f.1.stopIssue c k d)
        else
          let y := f.1.fetchAt c sl.tc (sl.pc + 8) 8
          match y.2 with
          | .fail st => .ends (y.1.fetchFails c k st (sl.pc + 8) d)
          | b => .word y.1 w b.value

/-- Steps 2 and 3 of R239 and the holds of R79 and R80, for an instruction of slot `k` whose words are `w` and `x`; `s` is the
state after their fetch. Another instruction than the words spell is not what the sequencer issues. -/
def State.issueDecoded (s0 s : State) (c k : Nat) (sl : Slot) (g : Issue) (i : Instr) (w x : Nat) : Issued :=
  let stop (n : Nat) : Issued :=
    .ends (s.stopIssue c k { excDetail xIllegal n with major := bits w 0 6, minor := bits w 11 8 })
  match illegalWord w x with
  | some n => stop n
  | none =>
    if decodeWord g.core w x ≠ some i then .stays
    else match illegalOperand sl i with
    | some n => stop n
    | none =>
      if !sl.guard g then .ends (s.setSlot c k (some (sl.past (lengthOf i))))
      else if (s0.inUnits c k).any (fun e => s0.waitsFor sl i e.instr) || s0.queueFull c i then .stays
      else .go s c k sl

/-- The issue of instruction `i` on its core up to the point at which it executes. Nothing issues on a core that is not usable
or halted, or where no slot is issuing. -/
def issueCheck (i : Instr) (s : State) : Issued :=
  match issueOf i with
  | none => .stays
  | some g =>
    let c := g.core.val
    if s.issueHalted || !s.coreUsable c then .stays
    else match s.issuing c with
    | none => .stays
    | some k =>
      match s.slot c k with
      | none => .stays
      | some sl =>
        match s.fetchInstr c k sl with
        | .ends s' => .ends s'
        | .word s' w x => s.issueDecoded s' c k sl g i w x

/-- What an instruction that executes finds: the state before and after it has been issued, its core and slot, the slot's
context as it issues, and its entry. -/
structure Seat where
  s0 : State
  s : State
  c : Nat
  k : Nat
  sl : Slot
  e : UEntry
  deriving DecidableEq, Repr

/-- A slot number as the entries hold it. -/
def slotNo (k : Nat) : Fin 4 := ⟨k % 4, Nat.mod_lt _ (by decide)⟩

/-- R79, R214: an instruction issues and executes; `body` is what it then does, none where it stays to be issued again. -/
def issue (i : Instr) (s : State) (body : Seat → Option State) : State :=
  match issueCheck i s with
  | .stays => s
  | .ends s' => s'
  | .go s' c k sl =>
    let x : Seat :=
      { s0 := s', s := s'.setSlot c k (some (sl.past (lengthOf i))), c := c, k := k, sl := sl
        e := { slot := slotNo k, seq := sl.seq, pc := sl.pc, instr := i } }
    (body x).getD s

/-- An exception found at issue: the program counter stays at the instruction (R99). -/
def Seat.stop (x : Seat) (d : Detail) : State := x.s0.stopIssue x.c x.k (d.named x.e.instr)

/-! ### Sequencer classes -/

/-- A scalar result. -/
def Seat.setS (x : Seat) (r : SReg) (v : Word) : State := x.s.modSlot x.c x.k (·.setS r v)

def issueS (i : Instr) (s : State) (sd : SReg) (f : Slot → Word) : State :=
  issue i s (fun x => some (x.setS sd (f x.sl)))

/-- A scalar FP32 result with its flags (R70, R215). -/
def issueF (i : Instr) (s : State) (sd : SReg) (f : Slot → Word × BitVec 8) : State :=
  issue i s (fun x =>
    let r := f x.sl
    some (x.s.modSlot x.c x.k (fun sl => (sl.setS sd r.1).orFlags r.2)))

/-- A predicate result, with the flags of an F compare. -/
def issueP (i : Instr) (s : State) (pd : PReg) (f : Slot → Bool × BitVec 8) : State :=
  issue i s (fun x =>
    let r := f x.sl
    some (x.s.modSlot x.c x.k (fun sl => (sl.setP pd r.1).orFlags r.2)))

/-- R216: a branch: its link register holds the address of the next instruction. -/
def issueBranch (i : Instr) (s : State) (link : SReg) (f : Slot → Nat) : State :=
  issue i s (fun x =>
    some (x.s.modSlot x.c x.k (fun sl => { sl.setS link (BitVec.ofNat 64 (x.sl.pc + 8)) with pc := f x.sl })))

/-- R217, R220, R235, R246: a load, a store, a TDLD, a TDST or a SEMSIGR: alignment `n`, the ownership of the banks it touches,
then its access. None at the CXL component registers. -/
def issueAccess (i : Instr) (s : State) (n : Nat) : Option State :=
  match issueCheck i s with
  | .stays => some s
  | .ends s' => some s'
  | .go s' c k sl =>
    let x : Seat :=
      { s0 := s', s := s'.setSlot c k (some (sl.past (lengthOf i))), c := c, k := k, sl := sl
        e := { slot := slotNo k, seq := sl.seq, pc := sl.pc, instr := i } }
    match accessOf sl i with
    | none => some (x.stop (excDetail xDescriptor 1))
    | some a =>
      if a.addr % n ≠ 0 then some (x.stop (excDetail xShape a.sa))
      else match s'.bankCheck c [(a.addr, a.op.len)] with
      | .stop d => some (x.stop d)
      | .wait => some s
      | .go =>
        match x.s.beginAccess c x.e sl.tc a with
        | .done t => some t.kickAll
        | .stay => some s
        | .cxl => none

/-- R217: a posted addition of code `op` and operand `v`, of `n` bytes, at an address of a slice. -/
def issueAdd (i : Instr) (s : State) (op n : Nat) (v : Slot → Nat) : State :=
  issue i s (fun x =>
    match accessOf x.sl i with
    | none => none
    | some a =>
      if a.addr % n ≠ 0 ∨ (sliceOf a.addr).isNone then some (x.stop (excDetail xShape 2))
      else some (x.s.beginAdd x.c x.e x.sl.tc op (v x.sl) a))

/-- R220: a write of a descriptor from another one or from a register, checked under R225. -/
def issueTd (i : Instr) (s : State) (td : TReg) (operand : Nat) (f : Slot → Option Image) : State :=
  issue i s (fun x =>
    match f x.sl with
    | none => some (x.stop (excDetail xDescriptor operand))
    | some im =>
      if descValid im then some (x.s.modSlot x.c x.k (·.setImage td im)) else some (x.stop (excDetail xDescriptor 1)))

/-- R79: an instruction goes to its unit's issue queue, and leaves it at once where it can. -/
def issueUnit (i : Instr) (s : State) : State :=
  issue i s (fun x =>
    match unitOf i with
    | none => none
    | some u => some ((x.s.modCore x.c (fun y => y.setQueue u (y.queue u ++ [x.e]))).kickAll))

/-! ### Waits (R90, R92, R95, R235) -/

/-- R90: the command parks on a wait. -/
def Seat.park (x : Seat) (w : Wait) (f : CoreSt → CoreSt) : State :=
  let n := (x.s.core x.c).clock
  let s := x.s.modSlot x.c x.k (fun sl => { sl with phase := .parked, wait := some w, granted := false, order := n })
  (s.modCore x.c (fun y => { f y with clock := n + 1 })).setQState x.sl.queue qParked

/-- R92, R93: a wait of `n` on semaphore `i`; one of 0 is granted at once. -/
def Seat.semWait (x : Seat) (i n : Nat) : State :=
  if n = 0 then x.s
  else if (tget [] (x.s.core x.c).semQ i).isEmpty ∧ n ≤ x.s.get F.semValue_value [x.c, i] then x.s.takeSem x.c i n
  else x.park (.sem i n) (fun y => { y with semQ := tset [] y.semQ i (tget [] y.semQ i ++ [x.k]) })

/-- R95: a wait on event flag `i`. -/
def Seat.evWait (x : Seat) (i : Nat) : State :=
  if (tget [] (x.s.core x.c).evQ i).isEmpty ∧ x.s.event x.c i then x.s.putEvent x.c i false
  else x.park (.ev i) (fun y => { y with evQ := tset [] y.evQ i (tget [] y.evQ i ++ [x.k]) })

/-- R235: a wait for the Cadence count. -/
def Seat.tickWait (x : Seat) (n : Nat) : State :=
  if n ≤ x.s.get F.cadCount_count then x.s else x.park (.tick n) id

/-! ### END, FENCE, SRD (R85, R217 to R219) -/

/-- Instructions that a FENCE with bit [1], and SRD of FLAGS, wait for. -/
def isCompute (i : Instr) : Bool :=
  match unitOf i with
  | some .matrix | some .vector | some .rowstat | some .attention | some .kv => true
  | _ => false

def isIn (u : Instr → Bool) (l : List UEntry) : Bool := l.any (fun e => u e.instr)

/-- R218: the conditions of a FENCE hold. -/
def State.fenced (s : State) (c k : Nat) (mask : BitVec 5) : Bool :=
  let l := s.inUnits c k
  let waits : Bool := match s.slot c k with | some sl => sl.waits.isEmpty | none => true
  let dma (i : Instr) : Bool := match i with | .dmaq .. => true | _ => false
  let run (i : Instr) : Bool := match i with | .nbrun .. => true | _ => false
  let coll (i : Instr) : Bool := match i with | .crun .. => true | _ => false
  (!mask.getLsbD 0 || waits) && (!mask.getLsbD 1 || !isIn isCompute l) &&
  (!mask.getLsbD 2 || ((s.chainsOf c k).isEmpty && !isIn dma l)) &&
  (!mask.getLsbD 3 || ((s.runsOf c k).isEmpty && !isIn run l)) &&
  (!mask.getLsbD 4 || ((s.collSeqs c k).isEmpty && !isIn coll l))

/-- R217: a posted addition that has failed stops the command at a FENCE with bit [0], or END. -/
def Seat.addStop (x : Seat) : Option State :=
  x.sl.atomFail.map (fun f =>
    let s := x.s0.setSlot x.c x.k (some { x.sl with atomFail := none })
    s.stopSlot x.c x.k { status := f.2.2.1, idx := 2, major := 0x0C, minor := f.2.2.2, pc := f.2.1 } x.sl.seq none)

def Seat.fence (x : Seat) (mask : BitVec 5) : Option State :=
  if !x.s0.fenced x.c x.k mask then none
  else if mask.getLsbD 0 then some (x.addStop.getD x.s) else some x.s

/-- END issues: nothing more issues from the slot, whose record is written once all has finished (R85). -/
def Seat.endCmd (x : Seat) : Option State :=
  if !x.sl.waits.isEmpty then none
  else some (x.addStop.getD (x.s.modSlot x.c x.k (fun sl => { sl with phase := .ended })))

/-- R219. -/
def Seat.srd (x : Seat) (sd : SReg) (sreg : BitVec 12) : Option State :=
  let sl := x.sl
  let put (n : Nat) : Option State := some (x.setS sd (BitVec.ofNat 64 n))
  match sreg.toNat with
  | 0 => put sl.epoch
  | 1 =>
    -- a run and a collective set flags too: bits [1], [3] and [4] of a FENCE
    if x.s0.fenced x.c x.k 0b11010#5 then put sl.aflags.toNat else none
  | 2 => put sl.queue
  | 3 => put x.c
  | 4 => put (x.s.get F.glbChipId_id)
  | 5 => put x.k
  | 6 =>
    let f := x.s.fresh
    some (f.2.modSlot x.c x.k (·.setS sd (BitVec.ofNat 64 (Config.cycles f.1))))
  | 7 => put (x.s.get F.cadCount_count)
  | _ => put (sl.level + (if sl.compat then 256 else 0))

end Sys2Proof.Machine
end

