-- ==== Sys2Proof/Machine/Select.lean ====
section
/-! DEFINITION. What the sequencer does between instructions: selecting work (R88, R90, R100), reporting stops (R99), the records
of ended commands (R85, R381). -/

namespace Sys2Proof.Machine

/-! ### Selection -/

/-- A slot that is ready to issue again: its wait is satisfied, or it was resumed. -/
def State.slotReady (s : State) (sl : Slot) : Bool :=
  (sl.phase == .parked && s.ready sl) || sl.phase == .resumed

/-- R88, R100: the ready slot of a priority that parked, or entered STOPPED, first. -/
def State.oldestReady (s : State) (c prio : Nat) : Option Nat :=
  ((List.range 4).foldl (fun (b : Option (Nat × Nat)) k =>
    match s.slot c k with
    | some sl =>
      if sl.prio = prio ∧ s.slotReady sl then
        match b with
        | some y => if sl.order < y.2 then some (k, sl.order) else b
        | none => some (k, sl.order)
      else b
    | none => b) none).map Prod.fst

/-- R88: the next pending queue of a priority, from the queue after the last started. A queue whose ring cannot be read for the
host link waits (R378). -/
def State.nextQueue (s : State) (c prio : Nat) : Option Nat :=
  let start := tget 0 (s.core c).lastStarted prio
  ((List.range 64).map (fun i => (start + i) % 64)).find? (fun j =>
    let q := 64 * c + j
    s.qState q == qPending && s.get F.qSched_priority [c, j] == prio && !s.hostWait.contains q)

inductive Choice where
  | slot (k : Nat)
  | queue (k j : Nat)
  deriving DecidableEq, Repr

/-- The choice of R88. A region that a mailbox request wants starts no command (R446). -/
def State.choose (s : State) (c : Nat) : Option Choice :=
  let free := (List.range 4).find? (fun k => (s.slot c k).isNone)
  (List.range 4).findSome? (fun prio =>
    match s.oldestReady c prio with
    | some k => some (.slot k)
    | none =>
      match free with
      | some k => if s.regionWanted (offCore c) then none else (s.nextQueue c prio).map (fun j => .queue k j)
      | none => none)

/-! ### Resumption (R100) -/

/-- One instruction kept with a context goes on: a unit's instruction back to its queue, an access performed once more; held
again where the command has stopped meanwhile. None at the CXL component registers; the flag says that it must stay. -/
def State.resumeEntry (s : State) (c : Nat) (e : UEntry) : Option (State × Bool) :=
  match s.slot c e.slot.val with
  | none => some (s, false)
  | some sl =>
    if sl.phase = .stopping then some (s.setSlot c e.slot.val (some { sl with held := insertHeld e sl.held }), false)
    else match unitOf e.instr with
    | some u => some (s.modCore c (fun y => y.setQueue u (y.queue u ++ [e])), false)
    | none =>
      match accessOf sl e.instr with
      | none => some (s, false)
      | some a =>
        match s.bankCheck c [(a.addr, a.op.len)] with
        | .stop d => some (s.stopEntry c e d, false)
        | .wait => some (s, true)
        | .go =>
          match s.beginAccess c e sl.tc a with
          | .done t => some (t, false)
          | .stay => some (s, true)
          | .cxl => none

def resumeEntries (c : Nat) : List UEntry → State → Option (State × Bool)
  | [], s => some (s, false)
  | e :: t, s =>
    match s.resumeEntry c e with
    | some (s', false) => resumeEntries c t s'
    | r => r

/-- A context as it issues again: PRIORITY, TC and SPL_COMPAT take effect (R105). -/
def State.rebound (s : State) (sl : Slot) : Slot :=
  { sl with
    phase := .issuing, wait := none, granted := false, stop := none, held := []
    prio := s.get F.qSched_priority (qx sl.queue), tc := s.get F.qSched_tc (qx sl.queue)
    compat := s.flag F.qSched_splCompat (qx sl.queue) }

/-- R264: a header whose read found data that cannot be used ends the command in a discard. -/
def State.headerData (s : State) (c k : Nat) : State :=
  match s.slot c k with
  | some sl =>
    (match sl.phase, sl.stop with
    | .stopping, some r =>
      if 0x28 ≤ r.detail.status ∧ sl.codeHi = 0 then s.dataDiscard c k r.detail.status sl.hdr else s
    | _, _ => s)
  | none => s

/-- The slot that was chosen issues again. -/
def State.resumeSlot (s : State) (c k : Nat) : Option State :=
  match s.slot c k with
  | none => some s
  | some sl =>
    let t := (s.setSlot c k (some (s.rebound sl))).setQState sl.queue qRunning
    if sl.phase = .parked then some t
    else if sl.codeHi = 0 then some ((t.checkHeader c k).headerData c k)
    else
      let kept := (match sl.stop with | some r => r.entry.toList | none => []) ++ sl.held
      match resumeEntries c kept t with
      | some (t, false) => some t.kickAll
      | some (_, true) => some s
      | none => none

/-- R88: the sequencer of core `c` selects work; nothing where a slot issues, the core is held, or the chip is not ready. -/
def State.selectWork (s : State) (c : Nat) : Option State :=
  if s.issueHalted || !s.coreUsable c || s.phase != phReady || s.flag F.coreControl_hold [c] || (s.issuing c).isSome then some s
  else match s.choose c with
  | none => some s
  | some (.slot k) => s.resumeSlot c k
  | some (.queue k j) => some ((s.startCommand c k (64 * c + j)).headerData c k)

/-! ### Stops and records -/

/-- Bits [47:0] of Q_STOP_DETAIL. -/
def Detail.word (d : Detail) : Nat :=
  d.cls % 2 ^ 8 + d.ust % 2 ^ 8 * 2 ^ 8 + d.idx % 2 ^ 16 * 2 ^ 16 + d.major % 2 ^ 8 * 2 ^ 32 + d.minor % 2 ^ 8 * 2 ^ 40

/-- R99: a stop is reported once every earlier instruction of the command has finished. -/
def State.stopReport (s : State) (c k : Nat) : State :=
  match s.slot c k with
  | none => s
  | some sl =>
    match sl.phase, sl.stop, sl.cq with
    | .stopping, some r, none =>
      if (s.unfinished c k).any (fun n => decide (n < r.seq)) then s
      else
        let d := r.detail
        let n := (s.core c).clock
        let s := s.puts [(F.qState_stopStatus, qx sl.queue, d.status), (F.qStopDetail_unitClass, qx sl.queue, d.cls),
          (F.qStopDetail_unitState, qx sl.queue, d.ust), (F.qStopDetail_unitIndex, qx sl.queue, d.idx),
          (F.qStopDetail_major, qx sl.queue, d.major), (F.qStopDetail_minor, qx sl.queue, d.minor),
          (F.qStopPc_pc, qx sl.queue, d.pc)]
        let s := s.modCore c (fun y => { y with clock := n + 1 })
        (s.modSlot c k (fun sl => { sl with order := n })).emitRecord c k
          { status := d.status, final := false, epoch := sl.epoch, aflags := sl.aflags.toNat, detail := d.word, pc := d.pc }
    | _, _, _ => s

/-- R85, R381: the record of a queue's command is written: one that waits, or the OK record of a command that has ended and whose
instructions have all finished. -/
def State.completionRecord (s : State) (q : Nat) : State :=
  let c := q / 64
  match s.slotOf q with
  | none => s
  | some (k, sl) =>
    match sl.cq with
    | some r =>
      let n := (s.core c).clock
      let s := if r.final then s
        else (s.modCore c (fun y => { y with clock := n + 1 })).modSlot c k (fun sl => { sl with order := n })
      s.emitRecord c k r
    | none =>
      if sl.phase = .ended ∧ (s.unfinished c k).isEmpty then
        s.emitRecord c k { status := 0, final := true, epoch := sl.epoch, aflags := sl.aflags.toNat }
      else s

/-- R378: 100 µs after a ring access failed for the host link, it is tried again. -/
def State.hostRetry (s : State) (q : Nat) : State :=
  let s := { s with hostWait := nsDel s.hostWait q }
  match s.slotOf q with
  | some (k, sl) =>
    (match sl.cq with
    | some r => s.emitRecord (q / 64) k r
    | none => s)
  | none => s

end Sys2Proof.Machine
end

