-- ==== Sys2Proof/Machine/Channel.lean ====
section
/-! DEFINITION. The channel controllers at work (R257 to R275, R279 to R293): requests, grants and transfers, the adder, refresh,
the scrubber, dead lanes and failed channels. -/

namespace Sys2Proof.Machine

/-! ### Requests and transfers -/

/-- R291: an ordinary request reaches a controller; one for each codeword it touches. Where the channel does not serve, it fails
(R45, R47). -/
def State.channelRequest (s : State) (c n r m tc off : Nat) (a : MemAccess) : State :=
  let op := MemOp.ofAccess a
  if requesterOf c m ≠ r ∨ 2 ^ 27 < off + op.len then s
  else
    let st := s.targetStatus m (.slice c n off) op.len
    if st ≠ 0 then (s.addrError st m op.isWrite (selfAddr (sliceAddr c n off))).answerTo .answer (.fail st)
    else
      let one (p : Nat × Nat) : ChanReq :=
        { requester := r, master := m, tc := tc, off := p.1, len := p.2
          wr := match op with | .rd _ => none | .wr bs => some ((bs.drop (p.1 - off)).take p.2) }
      (s.modChan c n (fun x => { x with net := x.net ++ (cwPieces off op.len).map one })).regulated m tc

/-- R271: an adder request of another master. -/
def State.adderRequest (s : State) (op addr operand tag tagAddr m tc : Nat) : State :=
  let r := s.postAdd op addr operand tag tagAddr m tc .answer
  match r.2 with
  | none => r.1
  | some st => r.1.answerTo .answer (.fail st)

/-! ### Refresh (R265 to R268) -/

/-- R266: an interval boundary. -/
def State.owes (s : State) (c n : Nat) : State :=
  s.put F.slcStatus_owed [c, n] (min 4 (s.get F.slcStatus_owed [c, n] + 1))

/-- The arbiter leaves the channel idle: nothing holds it, nothing can be granted, and no row burst is wanted. -/
def State.chanIdle (s : State) (c n : Nat) : Bool :=
  (s.chan c n).holder.isNone && !s.lanesTaken c n && !s.wantsBurst c n && (s.addable c n).isEmpty &&
    (s.pick c n (s.chan c n).slot).isNone

/-- R266, R268: an owed refresh in an idle cycle, with ALIGN only within the window. -/
def State.refreshIdle (s : State) (c n : Nat) (inWindow : Bool) : State :=
  if s.get F.slcStatus_owed [c, n] = 0 || !s.chanIdle c n || (s.flag F.slcControl_align [c] && !inWindow) then s
  else s.issueRefresh c n 1

/-- R266: a forced refresh: a transfer whose burst has not begun is abandoned; a locked sequence is never broken, and a burst that
has begun completes first; the NBRs pause of themselves (R205). -/
def State.refreshForced (s : State) (c n : Nat) : State :=
  let x := s.chan c n
  let owed := s.get F.slcStatus_owed [c, n]
  let busy : Bool := match x.holder with
    | some h => h.locked || decide (x.toBurst h.req.off < h.age)
    | none => false
  if owed = 0 || busy || s.lanesTaken c n || s.wantsBurst c n then s
  else
    let s := ((s.abandon c n).issueRefresh c n owed).put F.slcStatus_forced [c, n] 1
    s.bump F.slcForced_count [c, n] owed

/-- R266: a refresh completes. -/
def State.refreshEnds (s : State) (c n : Nat) : State :=
  let k := (s.chan c n).refreshing
  if k = 0 then s
  else
    let s := s.put F.slcStatus_owed [c, n] (s.get F.slcStatus_owed [c, n] - 1)
    let s := s.modChan c n (fun x => { x with refreshing := k - 1 })
    if k = 1 then s.put F.slcStatus_forced [c, n] 0 else s

/-! ### The scrubber (R273, R274) -/

/-- A scrubber's turn: its enable, MEMORY mode, an idle channel that owes no refresh it may issue, a slot not blocked. -/
def State.scrubReady (s : State) (c n : Nat) : Bool :=
  let x := s.chan c n
  s.flag F.slcScrubCtl_en [c] && s.chanMode c n == modeMemory && s.chanUsable c n && s.chanIdle c n &&
    !x.blocked.contains x.slot && (s.get F.slcStatus_owed [c, n] == 0 || s.flag F.slcControl_align [c])

/-- The walk goes on: at the end of a lap its duration, a time, is a free value. -/
def State.scrubStep (s : State) (c n : Nat) : State :=
  let p := s.get F.slcScrubPos_codeword [c, n] + 1
  if p < 524288 then s.put F.slcScrubPos_codeword [c, n] p
  else
    let f := s.fresh
    ((f.2.put F.slcScrubPos_codeword [c, n] 0).put F.slcScrubLap_lapUs [c, n] (Config.cycles f.1)).bump F.slcScrubLaps_count [c, n]

/-- R273: the next read: the oldest entry of the repair queue, else the walk's codeword. A correctable codeword with symbols in
error outside the mask is written back. -/
def State.scrub (s : State) (c n : Nat) (errs : List (Fin 144)) : State :=
  if !s.scrubReady c n then s
  else
    let x := s.chan c n
    let off := match x.repair with | o :: _ => o | [] => 256 * s.get F.slcScrubPos_codeword [c, n]
    let s := (s.burstErrs c n off errs).misread c n off
    let wrong := !(s.badLanes c n off).isEmpty
    let r := s.decodeCw c n off 0 true
    let s := if r.2 == .good && wrong then r.1.encodeCw c n off else r.1
    match x.repair with
    | _ :: t => s.modChan c n (fun x => { x with repair := t })
    | [] => s.scrubStep c n

/-! ### Lanes (R262) -/

/-- R262: a lane corrected LANE_LIMIT times enters the mask, with cause 0x5 and its record. -/
def State.laneDies (s : State) (c n j : Nat) : State :=
  let hits := tget 0 (s.chan c n).laneHits j
  if hits = 0 ∨ hits < s.get F.slcThresh_laneLimit [c] ∨ bit (s.deadLanes c n) j then s
  else
    let s := s.killLanes c n (2 ^ j) 5
    let s := s.modChan c n (fun x => { x with laneHits := tset 0 x.laneHits j 0 })
    s.fault (c / 16) (s.record kLaneDead 0 (offDg c n (j / 16)) (detail := j))

/-! ### The commands -/

def execChannelRequest (core : CoreId) (ch : ChanId) (requester : Fin 8) (master : BitVec 9) (tc : Fin 8) (offset : BitVec 27)
    (access : MemAccess) (s : State) : Result :=
  .next (s.channelRequest core.val ch.val requester.val master.toNat tc.val offset.toNat access)

def execSlotBoundary (core : CoreId) (ch : ChanId) (s : State) : Result := .next (s.arbitrate core.val ch.val)

def execSlotZero (core : CoreId) (ch : ChanId) (s : State) : Result := .next (s.slotZero core.val ch.val)

def execQuotaWindowStart (core : CoreId) (ch : ChanId) (s : State) : Result := .next (s.mint core.val ch.val)

def execTransferEnd (core : CoreId) (ch : ChanId) (errs : List (Fin 144)) (s : State) : Result :=
  .next (s.transferEnds core.val ch.val errs).kickAll

def execReadMergeWrite (core : CoreId) (ch : ChanId) (errs : List (Fin 144)) (s : State) : Result :=
  .next (s.mergeWrite core.val ch.val errs).kickAll

def execAdderRequest (op : Fin 8) (addr : Word) (operand : BitVec 128) (tag : Byte) (tagAddr : Word) (master : BitVec 9)
    (tc : Fin 8) (s : State) : Result :=
  .next (s.adderRequest op.val addr.toNat operand.toNat tag.toNat tagAddr.toNat master.toNat tc.val)

def execAdderSequence (core : CoreId) (ch : ChanId) (errs : List (Fin 144)) (s : State) : Result :=
  .next (s.addSequence core.val ch.val errs).kickAll

def execRefreshBoundary (core : CoreId) (ch : ChanId) (s : State) : Result := .next (s.owes core.val ch.val)

def execRefresh (core : CoreId) (ch : ChanId) (inWindow : Bool) (s : State) : Result :=
  .next (s.refreshIdle core.val ch.val inWindow)

def execForcedRefresh (core : CoreId) (ch : ChanId) (s : State) : Result := .next (s.refreshForced core.val ch.val)

def execRefreshDone (core : CoreId) (ch : ChanId) (s : State) : Result := .next (s.refreshEnds core.val ch.val)

def execScrubRead (core : CoreId) (ch : ChanId) (errs : List (Fin 144)) (s : State) : Result :=
  .next (s.scrub core.val ch.val errs)

def execLaneDead (core : CoreId) (ch : ChanId) (lane : Fin 144) (s : State) : Result :=
  .next (s.losing (s.laneDies core.val ch.val lane.val) core.val ch.val).kickAll

/-- R262, R276: a write of SLC_DEAD_LANES_LO, MID or HI; there is no fourth. -/
def execSlcDeadLanesWrite (core : CoreId) (ch : ChanId) (word : Fin 3) (value : Word) (s : State) : Result :=
  let k : RegKind := match word.val with | 0 => .slcDeadLanesLo | 1 => .slcDeadLanesMid | _ => .slcDeadLanesHi
  .next (s.atReg k [core.val, ch.val] (fun s => s.regWrite k [core.val, ch.val] 0 64 value.toNat)).kickAll

def execChannelFailed (core : CoreId) (ch : ChanId) (s : State) : Result := .next (s.losing (s.failChannel core.val ch.val) core.val ch.val).kickAll

/-- R285: ARB_LOAD.LOAD. -/
def execArbLoad (core : CoreId) (ch : ChanId) (s : State) : Result :=
  .next (s.atReg .arbLoad [core.val, ch.val] (fun s => s.arbLoadTable core.val ch.val))

/-- R295: a flit that has waited 1,024 cycles is served. -/
def execStarvationServe (die : DieId) (s : State) : Result := .next (s.bump F.netStarveCount_count [die.val])

end Sys2Proof.Machine
end

