-- ==== Sys2Proof/Machine/Climate.lean ====
section
/-! DEFINITION. Sensors, the thermal model, the Clamp, cooling and the power controller (R394 to R409, R471). -/

namespace Sys2Proof.Machine

/-! ### Temperatures (R394 to R402) -/

def execThermalSample (die : DieId) (readings : List (BitVec 11 × BitVec 11)) (s : State) : Result :=
  .next (s.sample die.val (readings.map (fun r => (r.1.toNat, r.2.toNat))))

/-- R395: 10,000 samples in a row with SRC = 3. -/
def execSensorLost (die : DieId) (spot : Fin 20) (s : State) : Result :=
  .next (if 10000 ≤ tget 0 s.power.substituted (20 * die.val + spot.val) then s.put F.thStatus_sensorLost [die.val] 1 else s)

/-- R396, R397. -/
def execThermalModelUpdate (die : DieId) (spots : List (BitVec 11 × BitVec 11)) (offsets : List Int)
    (layerPred : List (BitVec 11)) (s : State) : Result :=
  .next (s.modelUpdate die.val (spots.map (fun r => (r.1.toNat, r.2.toNat))) offsets (layerPred.map BitVec.toNat))

/-- R399, R400. -/
def execClampUpdate (die : DieId) (s : State) : Result := .next (s.clampUpdate die.val)

/-- R401. -/
def execStage2Entry (die : DieId) (s : State) : Result := .next (s.enterStage2 die.val)

/-- R402: a fused value or layer estimate of the die at 105 °C, or, in a coolant stop, a prediction there. -/
def State.tripDue (s : State) (d : Nat) : Bool :=
  let spot (f : Fld) : Bool := (List.range 20).any (fun i => decide (840 ≤ s.get f [d, i]))
  let layer : Bool := (List.range 16).any (fun k => (List.range 4).any (fun j =>
    decide (840 ≤ bits (s.get F.thLayer_est [d, k]) (11 * j) 11)))
  spot F.thHotspot_fused || layer ||
    (s.power.stopped && (spot F.thHotspot_pred || (List.range 64).any (fun i => decide (840 ≤ tget 0 s.power.layerPred (64 * d + i)))))

def execThermtrip (die : DieId) (s : State) : Result := .next (if s.tripDue die.val then s.trip die.val else s)

/-! ### Coolant (R403, R404) -/

/-- R476: the I3C target answers from the start of BOOT; before it, it refuses every transfer. -/
def State.i3cAnswers (s : State) : Bool := s.bring.aux && decide (phBoot ≤ s.phase)

/-- A coolant report; issue may resume with it. -/
def execCoolantReport (bytes : List Byte) (s : State) : Result :=
  .next (if s.i3cAnswers then (s.coolant bytes).kickAll else s)

/-- R403: no valid report for 30 ms. -/
def execTelemLost (s : State) : Result := .next (s.put F.pwrStatus_telemLost [] 1)

/-! ### Power (R405 to R409) -/

def execPowerMeasure (watts glue : BitVec 16) (s : State) : Result := .next (s.measure watts.toNat glue.toNat)

/-- R406: a Cadence tick of the power controller. -/
def execAllowedPowerUpdate (s : State) : Result := .next s.powerTick

/-- R409: a sag warning: P_a at the floor at once, unless ride-through governs. R475: ignored where the chip is not in service. -/
def execSupalert0 (s : State) : Result :=
  if s.power.sag ∨ !s.power.inService then .next s
  else
    let t := (s.bump F.pwrSagCount_count []).modPower (fun p => { p with sag := true })
    .next (if s.power.ride then t else t.shed.syncPower)

/-- R409: a ride-through warning halts issue. R475: ignored where the chip is not in service. -/
def execSupalert1 (s : State) : Result :=
  if s.power.ride ∨ !s.power.inService then .next s
  else .next ((s.bump F.pwrRtCount_count []).modPower (fun p => { p with ride := true })).syncPower

/-- R409: an input rises: issue resumes; a sag warning that ride-through kept back then acts. -/
def execSupalertRelease (input : Fin 2) (s : State) : Result :=
  .next (if input = 0 then (s.modPower (fun p => { p with sag := false })).syncPower
    else
      let t := s.modPower (fun p => { p with ride := false })
      ((if s.power.sag ∧ s.power.ride then t.shed else t).syncPower).kickAll)

end Sys2Proof.Machine
end

