-- ==== Sys2Proof/Machine/CoreControl.lean ====
section
/-! DEFINITION. The sequencer's own events and the registers of a core's sequencer block (R85 to R105, R249, R381, R382). -/

namespace Sys2Proof.Machine

/-- R88: the sequencer selects work. -/
def execSelect (core : CoreId) (s : State) : Result := orRefuse ((s.selectWork core.val).map State.kickAll)

/-- R99. -/
def execStopReport (core : CoreId) (slot : Fin 4) (s : State) : Result := .next (s.stopReport core.val slot.val).kickAll

/-- R100: Q_CONTROL.RESUME. -/
def execResume (q : QueueId) (s : State) : Result := .next (s.atReg .qControl (qx q.val) (fun s => s.resumeQueue q.val)).kickAll

/-- R100: Q_CONTROL.CANCEL. -/
def execCancel (q : QueueId) (s : State) : Result := .next (s.atReg .qControl (qx q.val) (fun s => s.cancelQueue q.val)).kickAll

/-- R381, R85. -/
def execCompletionRecord (q : QueueId) (s : State) : Result := .next (s.completionRecord q.val).kickAll

/-- R382. -/
def execHoldoffExpiry (q : QueueId) (s : State) : Result := .next (s.holdoffEnds q.val)

/-! ### Parity (R249) -/

/-- A read found bad parity: counted and captured; a byte bad as stored stays so, and on the processor side its reader's command is
discarded. -/
def State.parityReread (s : State) (c bank off master k : Nat) (dmaSide persistent : Bool) : State :=
  let o := bank * 2 ^ 19 + off
  let l := spadBase + c * 2 ^ 24 + o
  let s := s.parityFound l master dmaSide persistent
  if !persistent then s
  else
    let s : State := { s with badParity := nsIns s.badParity l }
    if dmaSide then s else s.dataDiscard c k stParity (selfAddr l)

def execSpadParityReread (core : CoreId) (bank : Fin 32) (offset : BitVec 19) (master : BitVec 9) (slot : Fin 4)
    (dmaSide persistent : Bool) (s : State) : Result :=
  .next (s.parityReread core.val bank.val offset.toNat master.toNat slot.val dmaSide persistent).kickAll

/-! ### Registers (R92, R95, R105) -/

def execSemSignal (core : CoreId) (sem : Fin 256) (n : BitVec 32) (s : State) : Result :=
  .next (s.atReg .semSignal [core.val, sem.val] (fun s => s.signal core.val sem.val n.toNat))

def execSemValueWrite (core : CoreId) (sem : Fin 256) (value : BitVec 32) (s : State) : Result :=
  .next (s.atReg .semValue [core.val, sem.val] (fun s => s.setSem core.val sem.val value.toNat))

def execEvSetReg (core : CoreId) (mask : Word) (s : State) : Result :=
  .next (s.atReg .evSet [core.val] (fun s => s.setEvents core.val mask.toNat))

def execEvClrReg (core : CoreId) (mask : Word) (s : State) : Result :=
  .next (s.atReg .evClr [core.val] (fun s => s.clearEvents core.val mask.toNat))

def execCoreHold (core : CoreId) (hold : Bool) (s : State) : Result :=
  .next (s.atReg .coreControl [core.val] (fun s => s.put F.coreControl_hold [core.val] (if hold then 1 else 0)))

end Sys2Proof.Machine
end

