-- ==== Sys2Proof/Machine/DieLinks.lean ====
section
/-! DEFINITION. The Bennex endpoints (R354 to R368) and the on-die mesh (R414). -/

namespace Sys2Proof.Machine

/-- R357: a data flit received. -/
def execBennexFlit (ep : BxId) (seq : BitVec 10) (_vc : Fin 4) (good : Bool) (s : State) : Result :=
  .next (if s.power.tripped then s else s.bxReceive ep.1.val ep.2.val seq.toNat good)

/-- R359: BX_CONTROL.RETRAIN, or one sequence number NAKed 8 times in a row. -/
def execBxRetrain (ep : BxId) (s : State) : Result := .next (s.bxRetrain ep.1.val ep.2.val)

/-- R368: BX_CONTROL.RESTART. -/
def execBxRestart (ep : BxId) (flits : BitVec 16) (s : State) : Result :=
  .next (s.atReg .bxControl [ep.1.val, ep.2.val] (fun s => s.bxRestart ep.1.val ep.2.val flits.toNat)).kickAll

/-- R362: the width disagreement rule, in UP or RETRAINING. -/
def execWidthDisagree (ep : BxId) (flits : BitVec 16) (s : State) : Result :=
  let st := s.bxState ep.1.val ep.2.val
  .next (if st = bxUp ∨ st = bxRetraining then (s.bxDrop ep.1.val flits.toNat).kickAll else s)

/-- R360, R361. -/
def execBxTraining (ep : BxId) (badLanes : List (Fin 16 × Fin 68)) (partner : BitVec 16) (cap0 cap1 : Word) (s : State) : Result :=
  .next (s.bxTrain ep.1.val ep.2.val (badLanes.map (fun l => (l.1.val, l.2.val))) partner.toNat cap0.toNat cap1.toNat).kickAll

/-- R364. -/
def execBxLiveSpare (ep : BxId) (module : Fin 16) (lane : Fin 68) (s : State) : Result :=
  .next (s.bxLiveSpare ep.1.val ep.2.val module.val lane.val)

/-- R359: no good control flit for 1 µs. -/
def execBxControlFlitTimeout (ep : BxId) (s : State) : Result := .next (s.bxRetrain ep.1.val ep.2.val)

/-- R367: new traffic returns to a link that has come back. -/
def execBxRouteSettleExpiry (link : Fin 4) (s : State) : Result :=
  .next ({ s with bxHeld := nsDel s.bxHeld link.val } : State).kickAll

/-! ### The mesh (R414) -/

def meshKey (die router dir : Nat) : Nat := 64 * die + 4 * router + dir

/-- A flit is asked for again. -/
def execMeshRetransmit (die : DieId) (router : Fin 16) (dir : Fin 4) (s : State) : Result :=
  let k := meshKey die.val router.val dir.val
  .next (if s.dieUsable die.val then { s with mesh := tset 0 s.mesh k (tget 0 s.mesh k + 1) } else s)

/-- A mesh link fails: the die is partially reset, with the record MESH_LINK; the second time within 24 hours of its return the
die becomes FAILED with cause 0x4, and does not return. -/
def State.meshFails (s : State) (d router dir : Nat) (again : Bool) : State :=
  if s.dieInReset d || !s.dieUsable d then s
  else
    let s := s.partialReset d causeMesh kMeshLink (router + 16 * dir)
    if again then
      let s := s.put F.bruDieReset_active [] (putBits (s.get F.bruDieReset_active) d 1 0)
      { s.mapUpdate [(offDie d, entry stFailed 4)] with mapSaved := tset none s.mapSaved (offDie d) none }
    else s

def execMeshLinkFail (die : DieId) (router : Fin 16) (dir : Fin 4) (again : Bool) (s : State) : Result :=
  .next (s.meshFails die.val router.val dir.val again).kickAll

end Sys2Proof.Machine
end

