-- ==== Sys2Proof/Machine/Dma.lean ====
section
/-! DEFINITION. The DMA class, the engines at work and the ownership of banks (R226, R244 to R255). -/

namespace Sys2Proof.Machine

def execDmaq (g : Issue) (eng : Fin 4) (sa : SReg) (event : Fin 64) (evEn : Bool) (s : State) : Result :=
  .next (issueUnit (.dmaq g eng sa event evEn) s)

/-- R251: an engine starts its next descriptor; nothing while issue is halted. -/
def execDmaDescriptorStart (core : CoreId) (eng : Fin 4) (s : State) : Result :=
  orRefuse ((if s.issueHalted then some s else s.dmaStart core.val eng.val).map State.kickAll)

/-- R251, R253: an engine moves its next burst. -/
def execDmaBurst (core : CoreId) (eng : Fin 4) (mismatch : Bool) (s : State) : Result :=
  orRefuse ((if s.issueHalted then some s else s.dmaMove core.val eng.val mismatch).map State.kickAll)

/-- R252: an engine completes its descriptor. -/
def execDmaCompletion (core : CoreId) (eng : Fin 4) (s : State) : Result :=
  orRefuse ((s.dmaComplete core.val eng.val).map State.kickAll)

/-- R250: a write of DMA_SUBMIT. -/
def execDmaSubmit (core : CoreId) (eng : Fin 4) (value : Word) (wide : Bool) (s : State) : Result :=
  .next (s.atReg .dmaSubmit [core.val, eng.val] (fun s => s.dmaSubmit core.val eng.val value.toNat wide)).kickAll

/-- R253: DMA_CONTROL.RESTART. -/
def execDmaRestart (core : CoreId) (eng : Fin 4) (s : State) : Result := .next (s.atReg .dmaControl [core.val, eng.val] (fun s => s.dmaRestart core.val eng.val)).kickAll

/-- R253: DMA_CONTROL.FLUSH. -/
def execDmaFlush (core : CoreId) (eng : Fin 4) (s : State) : Result := .next (s.atReg .dmaControl [core.val, eng.val] (fun s => s.dmaFlush core.val eng.val)).kickAll

/-- R247: a write of SPAD_HANDOVER. -/
def execSpadHandover (core : CoreId) (mask : BitVec 32) (target : Bool) (s : State) : Result :=
  .next (s.atReg .spadHandover [core.val] (fun s => s.handover core.val mask.toNat target)).kickAll

/-- R247: an instruction that touches a bank has left its issue queue and has not finished. -/
def State.bankBusy (s : State) (c b : Nat) : Bool :=
  let x := s.core c
  let out : List UEntry := (UnitId.all.filterMap (fun u => (x.runs u).map Running.entry)) ++ x.loading ++
    x.nbloads.filterMap Prod.snd ++ (List.range 4).flatMap (fun k => match s.slot c k with | some sl => sl.waits | none => [])
  out.any (fun e =>
    match s.slot c e.slot.val with
    | some sl => (s.foot sl e.instr).mem.any (fun r => (runBanks c r.2).contains b)
    | none => false)

/-- R247: a bank's handover ends: one to the processor at once, one to DMA once no instruction that touches the bank is at work. -/
def execHandoverDone (core : CoreId) (bank : Fin 32) (s : State) : Result :=
  .next (if bit (s.get F.spadOwner_dma [core.val]) bank.val ∨ !s.bankBusy core.val bank.val then
    (s.handoverEnds core.val bank.val).kickAll else s)

end Sys2Proof.Machine
end

