-- ==== Sys2Proof/Machine/Fabric.lean ====
section
/-! DEFINITION. The far ports (R300 to R306), the Golfort ports (R308 to R330), and the messages of peers. -/

namespace Sys2Proof.Machine

/-! ### Far ports -/

/-- R301: an access to a far window; one that its port cannot serve fails (R45, R47). -/
def State.farAccess (s : State) (f m off : Nat) (a : MemAccess) : State :=
  let op := MemOp.ofAccess a
  let st := s.targetStatus m (.far f off) op.len
  if st ≠ 0 then (s.addrError st m op.isWrite (selfAddr (farBase f + off))).answerTo .answer (.fail st)
  else s.farRequest f m off a

def execFarWindowAccess (far : FarId) (master : BitVec 9) (offset : BitVec 42) (access : MemAccess) (s : State) : Result :=
  .next (s.farAccess far.val master.toNat offset.toNat access)

/-- R302, R303. -/
def execFarResponse (far : FarId) (line : BitVec 36) (poison : Bool) (s : State) : Result :=
  .next (s.farRespond far.val line.toNat poison).kickAll

/-- R300. -/
def execFarPortBringup (far : FarId) (outcome : FarOutcome) (s : State) : Result := .next (s.farBringup far.val outcome).kickAll

/-- R306. -/
def execFarDeviceLost (far : FarId) (timeout : Bool) (s : State) : Result := .next (s.farLost far.val timeout).kickAll

/-- R306: FP_CONTROL.PERST. -/
def execFpPerst (far : FarId) (s : State) : Result :=
  .next (s.atReg .fpControl [far.val] (fun s => s.farPerst far.val)).kickAll

/-- R306: FP_CONTROL.RETRAIN. -/
def execFpRetrain (far : FarId) (s : State) : Result :=
  .next (s.atReg .fpControl [far.val] (fun s => s.farRetrain far.val)).kickAll

/-! ### Flits (R309 to R318); after THERMTRIP link traffic stops (R402) -/

/-- R309, R311: a data flit of 256 bytes. -/
def execDataFlit (port : PortId) (bytes : List Byte) (s : State) : Result := .next (if s.power.tripped then s else s.receiveFlit port.val bytes)

/-- R312, R335: a control flit; a good one carries a Cadence word. -/
def execControlFlit (port : PortId) (good : Bool) (ack : BitVec 12) (nak : Option (BitVec 12)) (freed : List (BitVec 16))
    (cad : CadWord) (s : State) : Result :=
  let t := s.receiveControl port.val good ack.toNat (nak.map BitVec.toNat) (freed.map BitVec.toNat)
  .next (if s.power.tripped then s else if good then t.hearCadence port.val cad else t)

/-- R314. -/
def execBiscuitSync (port : PortId) (total used freed : List (BitVec 16)) (ack : BitVec 12) (s : State) : Result :=
  .next (s.biscuitSync port.val (total.map BitVec.toNat) (used.map BitVec.toNat) (freed.map BitVec.toNat) ack.toNat)

/-- R317, R367: a flit whose next port lies on another die waits while no way over the ring is UP, or the way holds new traffic. -/
def State.forwardHolds (s : State) (p k : Nat) : Bool :=
  match s.oldestRx p k with
  | none => false
  | some f => f.hops != 0 && (match s.route f.dst with
    | none => false
    | some (q, _) => s.dieReach (p / 2) (q / 2) != 0 || s.dieHolds (p / 2) (q / 2))

/-- R315, R317. -/
def execFlitForward (port : PortId) (vc : Fin 4) (dclass : Fin 2) (us : BitVec 16) (s : State) : Result :=
  .next (if s.power.tripped || s.forwardHolds port.val (pool vc.val dclass.val) then s else s.forward port.val (pool vc.val dclass.val) us.toNat)

/-- R317: the oldest flit of a buffer has waited 100 µs for its output port. -/
def execOutputWaitDrop (port : PortId) (vc : Fin 4) (dclass : Fin 2) (s : State) : Result :=
  .next (match s.oldestRx port.val (pool vc.val dclass.val) with
    | some f => (s.dropRx port.val f).dropped 1
    | none => s)

/-- The BAR0 register of a route entry; each table has 1,024. -/
def routeReg (isLocal : Bool) (index : Nat) : RegKind × List Nat :=
  if isLocal then (.gfRouteLocal, [index]) else (.gfRouteRegion, [index])

/-- R318: a route entry is written; an index that its table does not have names no register (R6). -/
def execRouteChange (isLocal : Bool) (index : Fin 1024) (value : BitVec 32) (s : State) : Result :=
  let r := routeReg isLocal index.val
  .next (if (regAt (regAddr r.1 r.2)).isSome then s.atReg r.1 r.2 (fun s => s.regWrite r.1 r.2 0 32 value.toNat) else s.unmapped)

/-- R318: SETTLE has passed since the entry changed. -/
def execSettleExpiry (isLocal : Bool) (index : Fin 1024) (s : State) : Result :=
  let r := routeReg isLocal index.val
  .next (s.settle (regAddr r.1 r.2) (s.get F.gfGlobalCtl_settle))

/-! ### Transactions (R310, R319) -/

/-- The response to a request of this chip: its master is answered; a failure with an address status is its own failed access
(R46, R47). A response that no request of its kind waits for is discarded (R319). -/
def State.peerAnswers (s : State) (tag : Nat) (read : Bool) (status : Nat) (bytes : List Byte) : State :=
  match s.takeTxn tag with
  | none => s
  | some (x, t) =>
    if x.write == read then s
    else if status = 0 then t.answerTo x.who (.ok bytes)
    else
      let t := if 0x20 ≤ status ∧ status ≤ 0x22 then t.addrError status x.master x.write x.addr else t
      t.answerTo x.who (.fail status)

/-- R319: a request without a response fails with ADDR_NO_ROUTE. -/
def State.peerLate (s : State) (tag : Nat) : State :=
  match s.takeTxn tag with
  | none => s
  | some (x, t) => (t.addrError stNoRoute x.master x.write x.addr).answerTo x.who (.fail stNoRoute)

def execE2eTimeout (txn : BitVec 16) (s : State) : Result := .next (s.peerLate txn.toNat).kickAll

/-- R310: a READ of a peer. -/
def execRead (src : BitVec 20) (txn : BitVec 16) (tc : Fin 8) (addr : Word) (len : Fin 257) (s : State) : Result :=
  orRefuse ((s.peerMessage src.toNat txn.toNat tc.val addr.toNat (.rd len.val)).map State.kickAll)

/-- R310: a WRITE of a peer. -/
def execWrite (src : BitVec 20) (txn : BitVec 16) (tc : Fin 8) (addr : Word) (bytes : List Byte) (s : State) : Result :=
  orRefuse ((s.peerMessage src.toNat txn.toNat tc.val addr.toNat (.wr bytes)).map State.kickAll)

/-- R310: an ADD of a peer. -/
def execAddMessage (src : BitVec 20) (txn : BitVec 16) (tc : Fin 8) (addr : Word) (op : Byte) (operand : BitVec 128) (tag : Byte)
    (tagAddr : Word) (s : State) : Result :=
  .next (s.peerAdd src.toNat txn.toNat tc.val addr.toNat op.toNat operand.toNat tag.toNat tagAddr.toNat)

def execReadResp (txn : BitVec 16) (status : Byte) (bytes : List Byte) (s : State) : Result :=
  .next (s.peerAnswers txn.toNat true status.toNat bytes).kickAll

def execWriteAck (txn : BitVec 16) (status : Byte) (s : State) : Result :=
  .next (s.peerAnswers txn.toNat false status.toNat []).kickAll

/-- R310: MGMT traffic of a neighbour goes to the management controller. -/
def execMgmt (port : PortId) (bytes : List Byte) (s : State) : Result :=
  .next (if s.gfState port.val = gfUp then { s with mgmtIn := s.mgmtIn ++ [(port.val, bytes)] } else s)

/-! ### Port states (R321 to R330) -/

/-- R323: GF_CONTROL.ENABLE. -/
def execGfEnable (port : PortId) (enable : Bool) (s : State) : Result :=
  .next (s.atReg .gfControl [port.val] (fun s => s.gfEnable port.val enable))

/-- R323: GF_CONTROL.RETRAIN. -/
def execGfRetrain (port : PortId) (s : State) : Result :=
  .next (s.atReg .gfControl [port.val] (fun s => s.enterRetraining port.val))

def execPartnerFound (port : PortId) (partner : GfPartner) (s : State) : Result := .next (s.foundPartner port.val partner)

def execGfTrainingDone (port : PortId) (result : GfTrained) (rtt : BitVec 32) (s : State) : Result :=
  .next (s.trainingDone port.val result rtt.toNat)

/-- R324. -/
def execQualificationWindowEnd (port : PortId) (lanes : BitVec 8) (uncorr crc : Bool) (s : State) : Result :=
  .next (s.qualified port.val lanes.toNat uncorr crc)

def execRetrainTimeout (port : PortId) (s : State) : Result := .next (s.retrainLate port.val)

/-- R312: no good control flit for 10 µs. -/
def execControlFlitTimeout (port : PortId) (s : State) : Result := .next (s.enterRetraining port.val)

/-- R325. -/
def execUncorrectableBurst (port : PortId) (s : State) : Result := .next (s.enterRetraining port.val)

/-- R326. -/
def execLossOfSignal (port : PortId) (s : State) : Result := .next (s.lossOfSignal port.val)

/-- R330: the round trip of a trained port. -/
def execGfRttMeasurement (port : PortId) (ns : BitVec 32) (s : State) : Result :=
  .next (if s.gfTrained port.val then s.put F.gfRtt_ns [port.val] ns.toNat else s)

end Sys2Proof.Machine
end

