-- ==== Sys2Proof/Machine/Group.lean ====
section
/-! DEFINITION. Cadence (R331 to R336) and the collectives (R234, R338 to R351): the instructions, ticks, group messages and the
phases of a collective. -/

namespace Sys2Proof.Machine

def execCform (g : Issue) (sg sa : SReg) (s : State) : Result := .next (issueUnit (.cform g sg sa) s)

def execCrun (g : Issue) (sg sa : SReg) (event : Fin 64) (evEn : Bool) (s : State) : Result :=
  .next (issueUnit (.crun g sg sa event evEn) s)

def execCleave (g : Issue) (sg : SReg) (s : State) : Result := .next (issueUnit (.cleave g sg) s)

/-! ### The counter (R331 to R336) -/

/-- The counter enters FREE, and every group of the chip ends (R340). -/
def State.loseCadence (s : State) : State := s.cadToFree.freeGroups

/-- R331, R332: a tick at the receiver, which lies on D0; CAD_PHASE.ERR is its phase error. In ACQUIRING and LOCKED the tick is the edge of the count; in FREE and
HOLDOVER the die's own edges are (DESIGN CHOICE). -/
def State.cadTick (s : State) (err : Int) : State :=
  if s.dieInReset 0 then s
  else
    let counts := s.cadState == cadAcquiring || s.cadState == cadLocked
    let s := s.put F.cadPhase_err [] (err.emod (2 ^ 16)).toNat
    let t := s.tickState err
    let s := if t.2 then t.1.freeGroups else t.1
    if counts then s.edge else s

/-- R332: a tick that was predicted is missing: the third in a row takes a locked counter to HOLDOVER. -/
def State.missTick (s : State) : State :=
  if s.dieInReset 0 then s
  else if s.cadState = cadLocked then
    let s := s.edge
    if 3 ≤ s.cad.missed + 1 then (s.cadTo cadHoldover).put F.cadStatus_tickLoss [] 1
    else { s with cad := { s.cad with missed := s.cad.missed + 1 } }
  else
    let t : State := { s with cad := { s.cad with inRow := 0 } }
    if s.cadState = cadAcquiring then t.edge else t

def execCadenceTick (err : Int) (s : State) : Result := .next (s.cadTick err).kickAll

def execTickMissing (s : State) : Result := .next s.missTick

/-- R332: HOLDOVER has lasted HOLD_LIMIT. -/
def execHoldLimitExpiry (s : State) : Result :=
  .next (if s.cadState = cadHoldover then ((s.put F.cadStatus_holdExpired [] 1).loseCadence).kickAll else s)

/-- R332, R333: the die's own predicted edge. -/
def execLocalEdge (s : State) : Result :=
  .next (if s.cadState = cadHoldover ∨ s.cadState = cadFree then s.edge else s)

/-- R336: CAD_CTL.REAGREE. -/
def execReagree (s : State) : Result := .next (s.atReg .cadCtl [] State.reagree)

/-! ### Forming a group (R339, R340) -/

def execForm (group : BitVec 16) (index : BitVec 19) (n spares : BitVec 32) (anchor : BitVec 16) (crc : BitVec 32)
    (ns : BitVec 32) (s : State) : Result :=
  .next (s.form group.toNat index.toNat n.toNat spares.toNat anchor.toNat crc.toNat ns.toNat).kickAll

def execFormEcho (group : BitVec 16) (ns : BitVec 32) (s : State) : Result := .next (s.formEcho group.toNat ns.toNat).kickAll

def execFormed (group : BitVec 16) (h : BitVec 32) (members : List (BitVec 20)) (s : State) : Result :=
  .next (s.formedAt group.toNat h.toNat (members.map BitVec.toNat)).kickAll

def execFormTimeout (group : BitVec 16) (s : State) : Result := .next (s.formLate group.toNat).kickAll

def execRefuse (group : BitVec 16) (code : Byte) (s : State) : Result := .next (s.refused group.toNat code.toNat).kickAll

/-- R328: a GRANT. -/
def execGrant (group : BitVec 16) (flits : BitVec 16) (index : Word) (s : State) : Result :=
  .next (s.hearGrant group.toNat flits.toNat index.toNat).kickAll

/-! ### Phases (R342 to R348) -/

def execPhaseStart (group : BitVec 16) (s : State) : Result := .next (s.phaseStarts group.toNat).kickAll

/-- R343 to R345: a DATA message. -/
def execCollData (group : BitVec 16) (phase index : BitVec 19) (first : BitVec 32) (elems : List (BitVec 128 × Byte))
    (s : State) : Result :=
  .next (s.collReceive group.toNat phase.toNat index.toNat first.toNat (elems.map (fun e => ⟨e.1, e.2⟩))).kickAll

def execRelease (group : BitVec 16) (s : State) : Result := .next (s.hearRelease group.toNat).kickAll

def execLateCheck (group : BitVec 16) (unitBusy : Bool) (s : State) : Result := .next (s.checkLate group.toNat unitBusy).kickAll

def execLate (port : PortId) (group : BitVec 16) (value : Word) (ttl : Byte) (s : State) : Result :=
  .next (s.hearLate port.val group.toNat value.toNat ttl.toNat).kickAll

def execCollFail (port : PortId) (group : BitVec 16) (code : Byte) (ttl : Byte) (s : State) : Result :=
  .next (s.hearFail port.val group.toNat code.toNat ttl.toNat).kickAll

def execCollectiveEnd (group : BitVec 16) (s : State) : Result := .next (s.collFinishes group.toNat).kickAll

/-! ### Heartbeats and lost members (R345, R349, R350) -/

def execLost (port : PortId) (group : BitVec 16) (index : BitVec 19) (ttl : Byte) (s : State) : Result :=
  .next (s.hearLost port.val group.toNat index.toNat ttl.toNat).kickAll

def execHeartbeatSend (die : DieId) (s : State) : Result := .next (s.beat die.val)

def execHeartbeat (group : BitVec 16) (index : BitVec 19) (s : State) : Result := .next (s.hearBeat group.toNat index.toNat)

def execHeartbeatMiss (group : BitVec 16) (s : State) : Result := .next (s.missBeat group.toNat).kickAll

def execReformTimeout (group : BitVec 16) (s : State) : Result := .next (s.reformLate group.toNat).kickAll

/-- R345: a group word is forgotten after 100 ms. -/
def execGroupWordExpiry (kind : Fin 4) (group : BitVec 16) (value : Word) (s : State) : Result :=
  .next (s.forgetWord kind.val group.toNat value.toNat)

end Sys2Proof.Machine
end

