-- ==== Sys2Proof/Machine/HostPort.lean ====
section
/-! DEFINITION. The host port, the queues' doorbells, and the accesses that come as commands of their own (R3 to R7, R40, R41, R369
to R389). A failed read or write of the host is answered with its status: Completer Abort, or poisoned data of zero (R46). -/

namespace Sys2Proof.Machine

/-! ### Accesses -/

/-- An access that is answered: at once, or when it is served where it is held. Posted writes are not answered. None at the CXL
component registers. -/
def State.answered (s : State) (m tc addr : Nat) (op : MemOp) (posted : Bool) : Option State :=
  let who : Waiter := if posted then .nobody else .answer
  let r := s.access m tc addr op
  match r.2 with
  | .hold => some (s.parkAccess m tc addr op who)
  | .cxl => none
  | a => some (r.1.answerTo who a)

/-- R371: an access to the host window; the host's own masters do not reach it (R40). -/
def execHostWindowAccess (master : BitVec 9) (offset : BitVec 42) (access : MemAccess) (s : State) : Result :=
  orRefuse ((s.answered master.toNat 0 (selfAddr (0xC0000000000 + offset.toNat)) (MemOp.ofAccess access) false).map State.kickAll)

/-- R41: a host access through BAR4; its reads are answered, its writes posted. -/
def execHostCxlIoAccess (addr : BitVec 44) (access : MemAccess) (s : State) : Result :=
  let op := MemOp.ofAccess access
  orRefuse ((s.answered mHostIo 0 (selfAddr addr.toNat) op op.isWrite).map State.kickAll)

/-- R4: a write to a register at a BAR0 offset, of 32 or of 64 bits. -/
def execRegisterWrite (offset : BitVec 26) (value : Word) (wide : Bool) (s : State) : Result :=
  let n := if wide then 8 else 4
  orRefuse ((s.answered mHostIo 0 (selfAddr (regLocal offset.toNat)) (.wr (leBytes n (value.toNat % 2 ^ (8 * n)))) true).map
    State.kickAll)

/-- Local address `l` is one that no block defines, or reserved (R6, R29). -/
def isUndefined (l : Nat) : Bool :=
  match targetOfLocal l with
  | .reserved => true
  | .reg o => !isWindow o && !winCxl o && (regAt o).isNone
  | .door o => !(o % 0x1000 == 0 || o % 0x1000 == 8)
  | _ => false

/-- R6, R29: an access to an undefined address is counted; a read returns zero. -/
def execUnmappedAccess (addr : BitVec 44) (access : MemAccess) (s : State) : Result :=
  .next (if isUndefined addr.toNat then
      match access with
      | .read n => s.unmapped.answerTo .answer (.ok (List.replicate n.val 0#8))
      | .write _ => s.unmapped
    else s)

/-! ### CXL.mem (R46, R373) -/

/-- The host sends CXL.mem traffic only while the link carries it and the decoder is committed. -/
def State.hdmServes (s : State) : Bool :=
  s.flag F.hifLink_up && s.flag F.hifLink_memEn && s.flag F.hifStatus_hdmCommitted

def execMemRd (line : BitVec 32) (s : State) : Result :=
  if s.hdmServes then orRefuse ((s.answered mHostMem 0 (selfAddr (64 * line.toNat)) (.rd 64) false).map State.kickAll) else .next s

/-- The runs of bytes of a line whose mask bit is 1: the first byte and the bytes of each. -/
def maskRuns (mask : BitVec 64) (bs : List Byte) : List (Nat × List Byte) :=
  ((bs.zipIdx).foldl (fun (l : List (Nat × List Byte)) x =>
    if !mask.getLsbD x.2 then l
    else match l with
    | (o, b) :: t => if o + b.length = x.2 then (o, b ++ [x.1]) :: t else (x.2, [x.1]) :: l
    | [] => [(x.2, [x.1])]) []).reverse

/-- A write of a line's masked bytes as one write of the line; where it is held, each run of bytes waits, and the last is
answered. -/
def State.hdmWrite (s : State) (line : Nat) (mask : BitVec 64) (bs : List Byte) : State :=
  let l := 64 * line
  let old := s.peeks l 64
  let merged := (old.zip bs).zipIdx.map (fun x => if mask.getLsbD x.2 then x.1.2 else x.1.1)
  let r := s.access mHostMem 0 (selfAddr l) (.wr merged)
  match r.2 with
  | .hold =>
    let runs := maskRuns mask bs
    runs.zipIdx.foldl (fun s x =>
      s.parkAccess mHostMem 0 (selfAddr (l + x.1.1)) (.wr x.1.2) (if x.2 + 1 = runs.length then .answer else .nobody)) s
  | a => r.1.answerTo .answer a

def execMemWr (line : BitVec 32) (mask : BitVec 64) (data : BitVec 512) (s : State) : Result :=
  .next (if !s.hdmServes then s
    else if mask = 0#64 then s.answerTo .answer (.ok [])
    else (s.hdmWrite line.toNat mask (leBytes 64 data.toNat)).kickAll)

/-- R371: every host snoop is answered with RspIHitI. -/
def execHostSnoop (line : Word) (s : State) : Result :=
  .next (if s.flag F.hifLink_up ∧ s.flag F.hifLink_cxl then { s with out := .snoop line.toNat :: s.out } else s)

/-- R373: the decoder is committed, of 256 GiB and no other size; a locked one stays as it is. -/
def execHdmCommit (base : Word) (size : Nat) (lock : Bool) (s : State) : Result :=
  let locked : Bool := match s.hdm with
    | some h => h.2
    | none => false
  .next (if !s.flag F.hifLink_up || !s.flag F.hifLink_cxl || locked || size != 2 ^ 38 then s
    else { s.put F.hifStatus_hdmCommitted [] 1 with hdm := some (base.toNat, lock) })

/-! ### Doorbells and rings (R375 to R378) -/

def execDoorbellTail (q : QueueId) (value : BitVec 16) (s : State) : Result := .next (s.writeTail q.val value.toNat)

def execDoorbellCqHead (q : QueueId) (value : BitVec 16) (s : State) : Result := .next (s.writeCqHead q.val value.toNat)

/-- R89, R105. -/
def execQSchedWrite (q : QueueId) (value : BitVec 32) (s : State) : Result :=
  .next (s.atReg .qSched (qx q.val) (fun s => s.writeSched q.val value.toNat))

/-- R375. -/
def execQRingCfgWrite (q : QueueId) (value : BitVec 32) (s : State) : Result :=
  .next (s.atReg .qRingCfg (qx q.val) (fun s => s.writeRingCfg q.val value.toNat))

/-- R378. -/
def execHostRingRetry (q : QueueId) (s : State) : Result := .next (s.hostRetry q.val).kickAll

/-! ### The link (R369, R370, R389, R475) -/

def execHperst (low : Bool) (s : State) : Result :=
  let t : State := { s with bring := { s.bring with hperst := low } }
  .next (if low then t.hostPortReset else t)

def execHostLinkDown (s : State) : Result := .next s.hostDown

/-- The port trains from phase BOOT on; without CXL it is a PCIe endpoint. -/
def execHostLinkUp (width : Fin 17) (rate : Fin 6) (cxl cacheEn memEn : Bool) (s : State) : Result :=
  let n (b : Bool) : Nat := if b then 1 else 0
  .next (if s.bring.hperst || s.power.tripped || decide (s.phase < phBoot) || s.dieInReset 0 || !s.portUsable 10 ||
      s.flag F.hifLink_up || !([1, 2, 4, 8, 16].contains width.val) || rate == 0 then s
    else s.puts [(F.hifLink_width, [], width.val), (F.hifLink_rate, [], rate.val), (F.hifLink_cxl, [], n cxl),
      (F.hifLink_cacheEn, [], n (cxl && cacheEn)), (F.hifLink_memEn, [], n (cxl && memEn)), (F.hifLink_up, [], 1)])

/-! ### Global registers -/

/-- R27: GLB_CHIP_ID. -/
def execGlbChipIdWrite (value : BitVec 32) (s : State) : Result :=
  .next (s.atReg .glbChipId [] (fun s => s.regWrite .glbChipId [] 0 32 value.toNat))

end Sys2Proof.Machine
end

