-- ==== Sys2Proof/Machine/Kv.lean ====
section
/-! DEFINITION. The KV class and the loans of frames (R173 to R185, R233). -/

namespace Sys2Proof.Machine

def execKvopen (g : Issue) (sseq sa : SReg) (s : State) : Result := .next (issueUnit (.kvopen g sseq sa) s)

def execKvapp (g : Issue) (sseq : SReg) (nm1 : BitVec 8) (tk tv : TReg) (s : State) : Result :=
  .next (issueUnit (.kvapp g sseq nm1 tk tv) s)

def execKvseal (g : Issue) (sseq : SReg) (s : State) : Result := .next (issueUnit (.kvseal g sseq) s)

def execKvfree (g : Issue) (sseq : SReg) (s : State) : Result := .next (issueUnit (.kvfree g sseq) s)

/-- R179: a frame asked for by another core. -/
def execKvFrameBorrow (lender borrower : CoreId) (far : Bool) (s : State) : Result :=
  .next (s.kvBorrow lender.val borrower.val far)

/-- R179: its acknowledgement. -/
def execKvFrameAck (lender borrower : CoreId) (s : State) : Result := .next (s.kvAck lender.val borrower.val).kickAll

end Sys2Proof.Machine
end

