-- ==== Sys2Proof/Machine/Lifecycle.lean ====
section
/-! DEFINITION. Power, resets and starts (R436 to R443, R471 to R476), the Jig (R444 to R446), conserved messages, votes and
audits (R422 to R428), the mailbox's requests (R385 to R388, R408, R441, R446 to R449, R457, R459), and the test port. -/

namespace Sys2Proof.Machine

def core2 (p : CoreId × Fin 64) : Nat × Nat := (p.1.val, p.2.val)

/-! ### Power and the reset input (R474, R475) -/

def execPwrgoodFall (s : State) : Result := .next s.powerFall
def execPwrgoodRise (s : State) : Result := .next s.powerRise
def execPkgReset (rise : Bool) (s : State) : Result := .next (s.resetInput rise)
def execVddAuxRemoval (s : State) : Result := .next s.auxGone

/-! ### The phases of a start (R436 to R440) -/

def execClocksPhase (corrected : BitVec 32) (bad lost : List (Fin 36864)) (s : State) : Result :=
  .next (s.clocks corrected.toNat (bad.map Fin.val) (lost.map Fin.val))

def execBootPhase (headerLost : Bool) (s : State) : Result := .next (s.boot headerLost)

def execSelfTestPhase (memFail : List CoreId) (jigFail : List (CoreId × Fin 64)) (s : State) : Result :=
  .next (s.selfTest (memFail.map Fin.val) (jigFail.map core2))

def execBennexPhase (s : State) : Result := .next s.bennexStart

/-- R437. `narrow`: saved timing fails its check, and the channel is trained in full, which takes longer. -/
def execDramTraining (core : CoreId) (ch : ChanId) (lanes : List (Fin 144)) (control : List (Fin 36)) (narrow : Bool)
    (jigFail : List (Fin 4)) (s : State) : Result :=
  .next (if narrow ∧ !s.warmStart then s
    else s.trainChannel core.val ch.val (lanes.map Fin.val) (control.map Fin.val) (jigFail.map Fin.val))

/-- The pair of core and channel as one number of each. -/
def failingChan (x : CoreId × ChanId × Nat) : Nat × Nat := (x.1.val, x.2.1.val)

/-- R438: a channel fails a step where any of its rows does. -/
def execRetentionStep (hot : Bool) (pattern : Fin 4) (k : Fin 11) (failing : List (CoreId × ChanId × Nat)) (s : State) :
    Result :=
  .next (s.retention hot pattern.val k.val ((failing.filter (fun x => x.2.2 != 0)).map failingChan))

def execLinksPhase (s : State) : Result := .next s.linksStart
def execMapPhase (s : State) : Result := .next s.mapBuilt
def execReady (ms : BitVec 32) (s : State) : Result := .next (s.declareReady ms.toNat).kickAll
def execStartTimeout (s : State) : Result := .next s.startLate

/-! ### Partial reset (R442, R443, R451) -/

/-- R442: causes 0x02, and 0x04 once the Jig has failed on nine of the die's cores; the other causes come with their own
commands. -/
def execPartialReset (die : DieId) (cause : Byte) (s : State) : Result :=
  let c := cause.toNat
  if c = causeTotals ∨ (c = causeJig ∧ 9 ≤ tget 0 s.bring.jigFails die.val) then
    .next (s.partialReset die.val c kDieReset c).kickAll
  else .next s

/-- R451: each die whose bit is 1. -/
def execBruDieResetReq (mask : BitVec 4) (s : State) : Result :=
  .next (s.atReg .bruDieReset [] (fun s => s.regWrite .bruDieReset [] 0 32 mask.toNat)).kickAll

/-- R442: `linkUp` is of link X(d), `linkDown` of X((d + 3) mod 4). -/
def execPartialResetReturn (die : DieId) (jigFail : List (Fin 16 × Fin 64)) (linkUp linkDown : Bool) (s : State) : Result :=
  .next (s.dieReturns die.val (jigFail.map (fun f => (f.1.val, f.2.val))) linkUp linkDown).kickAll

/-- R443: a warm restart. -/
def execD0ResetTimeout (s : State) : Result := .next (if s.dieInReset 0 then s.warmReset 2 else s)

/-! ### The Jig (R444 to R446, R460) -/

def execJigSave (core : CoreId) (s : State) : Result := .next (s.saveCore core.val)

def execJigComplete (unit : BitVec 16) (fails : List (Fin 4 × Fin 64)) (s : State) : Result :=
  .next (s.jigDone unit.toNat (fails.map (fun f => (f.1.val, f.2.val)))).kickAll

def execRegionFreeTimeout (s : State) : Result := .next s.regionLate.kickAll

/-! ### Conserved messages, the vote, the audit (R422 to R428) -/

def execResync (die : DieId) (s : State) : Result := .next (s.resync die.val).kickAll
def execConsResend (die : DieId) (s : State) : Result := .next (s.resend die.val).kickAll
def execConsGiveup (die : DieId) (dst : BitVec 20) (s : State) : Result := .next (s.giveUp die.val dst.toNat)

def execBackgroundVote (corrected : List (BitVec 32)) (lost : Option VoteLost) (s : State) : Result :=
  .next (s.vote (corrected.map BitVec.toNat) lost).kickAll

/-- R426: AUD_CONTROL.RUN. -/
def execAudRun (s : State) : Result := .next (s.atReg .audControl [] State.auditStart)

/-- R426. Flits and returns in flight are counted by the link hardware: class, instance, number. -/
def execAuditDone (flight : List (Fin 3 × Nat × Nat)) (s : State) : Result :=
  .next (s.auditEnd (flight.map (fun f => (f.1.val, f.2.1, f.2.2))))

/-! ### The mailbox (R385 to R388) -/

/-- R387: a mailbox that D0's partial reset has taken serves no access (R443). -/
def State.mailbox (s : State) (op : Nat) (h : MbHead) (payload : List Byte) (fails : Bool := false) : State :=
  s.atReg .mbDoorbell [] (fun s => (s.mbRequest op h payload fails).kickAll)

def execGetInfo (h : MbHead) (payload : List Byte) (s : State) : Result := .next (s.mailbox opGetInfo h payload)
def execRetireUnit (h : MbHead) (payload : List Byte) (s : State) : Result := .next (s.mailbox opRetire h payload)
def execReadmitUnit (h : MbHead) (payload : List Byte) (fails : Bool) (s : State) : Result :=
  .next (s.mailbox opReadmit h payload fails)
def execRunJig (h : MbHead) (payload : List Byte) (s : State) : Result := .next (s.mailbox opJig h payload)
def execSaveSettings (h : MbHead) (payload : List Byte) (s : State) : Result := .next (s.mailbox opSave h payload)
def execWarmRestart (h : MbHead) (payload : List Byte) (s : State) : Result := .next (s.mailbox opWarm h payload)
def execSetIdleFloor (h : MbHead) (payload : List Byte) (s : State) : Result := .next (s.mailbox opFloor h payload)
def execSetStagger (h : MbHead) (payload : List Byte) (s : State) : Result := .next (s.mailbox opStagger h payload)
def execAttest (h : MbHead) (payload : List Byte) (s : State) : Result := .next (s.mailbox opAttest h payload)
def execAudit (h : MbHead) (payload : List Byte) (s : State) : Result := .next (s.mailbox opAudit h payload)

/-- R459: FW_UPDATE with an OP: OP, three bytes of zero, then the fields. -/
def State.firmware (s : State) (op : Nat) (h : MbHead) (payload : List Byte) : State :=
  s.mailbox opFw h (leBytes 4 op ++ payload)

def execFwBegin (h : MbHead) (payload : List Byte) (s : State) : Result := .next (s.firmware 0 h payload)
def execFwData (h : MbHead) (payload : List Byte) (s : State) : Result := .next (s.firmware 1 h payload)
def execFinish (h : MbHead) (payload : List Byte) (s : State) : Result := .next (s.firmware 2 h payload)
def execCommitSvn (h : MbHead) (payload : List Byte) (s : State) : Result := .next (s.firmware 3 h payload)
def execRevoke (h : MbHead) (payload : List Byte) (s : State) : Result := .next (s.firmware 4 h payload)

/-! ### AVSBus, I3C and the test port (R460, R471, R475, R476) -/

/-- R476: the hottest fused value of the package. -/
def State.hottest (s : State) : Nat :=
  (List.range 80).foldl (fun m i => max m (s.get F.thHotspot_fused [i / 20, i % 20])) 0

/-- R476: the four bytes of a private read. -/
def State.i3cBytes (s : State) : List Byte :=
  let trip := if (List.range 4).any (fun d => s.flag F.thStatus_trip [d]) then 128 else 0
  leBytes 1 (s.phase + 16 * s.get F.pwrStatus_state + trip) ++ leBytes 2 s.hottest ++ leBytes 1 0

/-- An empty answer is a NACK. -/
def execI3cRead (s : State) : Result := .next { s with out := .i3c (if s.i3cAnswers then s.i3cBytes else []) :: s.out }

def execDynamicAddressAssignment (addr : BitVec 7) (s : State) : Result :=
  .next (if s.i3cAnswers then { s with i3cAddr := some addr.toNat } else s)

/-- R471: a setting of the rail: 650 to 850 mV in steps of 5 mV; the limit on P_a ends. AVSBus traffic needs PWRGOOD (R474). -/
def execVoltageSet (mv : BitVec 16) (s : State) : Result :=
  let v := mv.toNat
  if v < 650 ∨ 850 < v ∨ v % 5 ≠ 0 ∨ s.phase = phPower then .next s
  else .next { s with vddCore := v, avsHold := false, out := .avs v :: s.out }

/-- R471: the present setting is held, and P_a is limited to 1,200 W. -/
def execAvsTimeout (s : State) : Result :=
  .next (if s.phase = phPower then s else ({ s with avsHold := true } : State).avsLimit.syncPower)

/-- R460, R475: boundary scan changes nothing; internal scan needs TEST_OPEN, and zeroes the secrets before it is enabled. -/
def execTestPortAccess (internal : Bool) (s : State) : Result :=
  .next (if internal ∧ s.flag F.secStatus_testOpen then { s with sec := { s.sec with scan := true } } else s)

end Sys2Proof.Machine
end

