-- ==== Sys2Proof/Machine/Matrix.lean ====
section
/-! DEFINITION. The matrix class and the array at work (R107 to R126, R227). -/

namespace Sys2Proof.Machine

def execMma (g : Issue) (tw tx tout : TReg) (acc : Bool) (s : State) : Result := .next (issueUnit (.mma g tw tx tout acc) s)

def execMacc (g : Issue) (ts tout : TReg) (s : State) : Result := .next (issueUnit (.macc g ts tout) s)

def execMzero (g : Issue) (tout : TReg) (s : State) : Result := .next (issueUnit (.mzero g tout) s)

def execMcvt (g : Issue) (ts td : TReg) (s : State) : Result := .next (issueUnit (.mcvt g ts td) s)

/-- R113, R120: the array decides the next row. -/
def execCommit (core : CoreId) (mismatch : Option (Fin 4 × Fin 8 × BitVec 8)) (s : State) : Result :=
  .next (s.commit core.val mismatch).kickAll

/-- R116: the running matrix instruction ends. -/
def execMmaEnd (core : CoreId) (s : State) : Result := .next (s.mmaEnd core.val).kickAll

/-- R121, R155, R172. -/
def execUnitRepeat (core : CoreId) (unit : CheckedUnit) (kind : Fin 3) (bank : Fin 8) (s : State) : Result :=
  .next (s.unitRepeat core.val unit kind.val bank.val).kickAll

/-- R126: MXA_CONTROL.INJECT. -/
def execMxaInject (core : CoreId) (s : State) : Result := .next (s.atReg .mxaControl [core.val] (fun s => s.injectMxa core.val 1))

/-- R126: MXA_CONTROL.INJECT_TWICE. -/
def execMxaInjectTwice (core : CoreId) (s : State) : Result := .next (s.atReg .mxaControl [core.val] (fun s => s.injectMxa core.val 2))

end Sys2Proof.Machine
end

