-- ==== Sys2Proof/Machine/Memory.lean ====
section
/-! DEFINITION. The memory class and the descriptor class (R217, R220). -/

namespace Sys2Proof.Machine

/-! ### Loads and stores (R217) -/

def execLd8 (g : Issue) (sr sa : SReg) (off : BitVec 35) (s : State) : Result := orRefuse (issueAccess (.ld8 g sr sa off) s 1)

def execLd16 (g : Issue) (sr sa : SReg) (off : BitVec 35) (s : State) : Result := orRefuse (issueAccess (.ld16 g sr sa off) s 2)

def execLd32 (g : Issue) (sr sa : SReg) (off : BitVec 35) (s : State) : Result := orRefuse (issueAccess (.ld32 g sr sa off) s 4)

def execLd64 (g : Issue) (sr sa : SReg) (off : BitVec 35) (s : State) : Result := orRefuse (issueAccess (.ld64 g sr sa off) s 8)

def execLds8 (g : Issue) (sr sa : SReg) (off : BitVec 35) (s : State) : Result := orRefuse (issueAccess (.lds8 g sr sa off) s 1)

def execLds16 (g : Issue) (sr sa : SReg) (off : BitVec 35) (s : State) : Result := orRefuse (issueAccess (.lds16 g sr sa off) s 2)

def execLds32 (g : Issue) (sr sa : SReg) (off : BitVec 35) (s : State) : Result := orRefuse (issueAccess (.lds32 g sr sa off) s 4)

def execSt8 (g : Issue) (sr sa : SReg) (off : BitVec 35) (s : State) : Result := orRefuse (issueAccess (.st8 g sr sa off) s 1)

def execSt16 (g : Issue) (sr sa : SReg) (off : BitVec 35) (s : State) : Result := orRefuse (issueAccess (.st16 g sr sa off) s 2)

def execSt32 (g : Issue) (sr sa : SReg) (off : BitVec 35) (s : State) : Result := orRefuse (issueAccess (.st32 g sr sa off) s 4)

def execSt64 (g : Issue) (sr sa : SReg) (off : BitVec 35) (s : State) : Result := orRefuse (issueAccess (.st64 g sr sa off) s 8)

/-! ### Posted additions (R217, R271) -/

def execAtaddI32 (g : Issue) (sr sa : SReg) (off : BitVec 35) (s : State) : Result :=
  .next (issueAdd (.ataddI32 g sr sa off) s 0 4 (fun x => (x.s sr).toNat % 2 ^ 32))

def execAtaddI64 (g : Issue) (sr sa : SReg) (off : BitVec 35) (s : State) : Result :=
  .next (issueAdd (.ataddI64 g sr sa off) s 1 8 (fun x => (x.s sr).toNat))

def execAtaddF32 (g : Issue) (sr sa : SReg) (off : BitVec 35) (s : State) : Result :=
  .next (issueAdd (.ataddF32 g sr sa off) s 2 4 (fun x => (x.s sr).toNat % 2 ^ 32))

def execAtaddBf16 (g : Issue) (sr sa : SReg) (off : BitVec 35) (s : State) : Result :=
  .next (issueAdd (.ataddBf16 g sr sa off) s 3 2 (fun x => (x.s sr).toNat % 2 ^ 16))

def execAtaddWsf (g : Issue) (sr sa : SReg) (off : BitVec 35) (s : State) : Result :=
  .next (issueAdd (.ataddWsf g sr sa off) s 4 16 (fun x => (x.s sr).toNat + 2 ^ 64 * (x.s (sr + 1)).toNat))

/-! ### Descriptors (R220, R225) -/

def execTdld (g : Issue) (td : TReg) (sa : SReg) (off : BitVec 34) (s : State) : Result :=
  orRefuse (issueAccess (.tdld g td sa off) s 64)

def execTdst (g : Issue) (td : TReg) (sa : SReg) (off : BitVec 34) (s : State) : Result :=
  orRefuse (issueAccess (.tdst g td sa off) s 64)


/-- R220: TDSET replaces image word DW, 0 to 5. -/
def execTdset (g : Issue) (td : TReg) (dw : Fin 8) (sa : SReg) (s : State) : Result :=
  .next (issueTd (.tdset g td dw sa) s td 1 (fun x => (x.image td).map (fun im =>
    BitVec.ofNat 512 (putBits im.toNat (64 * dw.val) 64 (x.s sa).toNat))))

def execTdcp (g : Issue) (td ts : TReg) (s : State) : Result := .next (issueTd (.tdcp g td ts) s td 2 (·.image ts))

def execTdinv (g : Issue) (td : TReg) (s : State) : Result :=
  .next (issue (.tdinv g td) s (fun x => some (x.s.modSlot x.c x.k (fun sl => { sl with tds := tset 0 sl.tds td.val 0 }))))

end Sys2Proof.Machine
end

