-- ==== Sys2Proof/Machine/NearBank.lean ====
section
/-! DEFINITION. The near-bank reducers at work (R186 to R208): the instructions of the near-bank unit, row bursts, result writes, and
the ends of steps, runs, loads and mode changes. -/

namespace Sys2Proof.Machine

/-! ### Row bursts (R188, R189, R205, R206) -/

/-- The NBR sequencer leaves the channel that its row burst held. -/
def State.freeBurst (s : State) (c n : Nat) : State :=
  s.modChan c n (fun x => { x with holder := x.holder.filter (fun h => h.req.requester != rqNbr) })

/-- The channel is the NBRs' for a row burst: in SHARED mode the arbiter granted it; otherwise no request holds it. -/
def State.burstReady (s : State) (c n : Nat) : Bool :=
  match (s.chan c n).holder with
  | some h => h.req.requester == rqNbr
  | none => s.chanMode c n != modeShared

/-- The group offsets of the codewords of DRAM row `d` that rows at the offsets `rows` touch. -/
def burstCodewords (d size : Nat) (rows : List Nat) : List Nat :=
  ((List.range 8).map (fun j => 2048 * d + 256 * j)).filter (fun o =>
    rows.any (fun r => decide (r < o + 256) && decide (o < r + size)))

/-- NBR `k` decodes codewords (R189): corrections are counted; the first that cannot be corrected, at its group offset. -/
def State.nbrDecode (s : State) (c n k : Nat) : List Nat → State × Option Nat
  | [] => (s, none)
  | o :: t =>
    let off := k * 2 ^ 25 + o
    let s := s.misread c n off
    let bad := !(s.badLanes c n off).isEmpty
    let r := s.decodeCw c n off (mNbr c) false
    match r.2 with
    | .good => (if bad then r.1.bump F.nbCorrected_count [c, n] else r.1).nbrDecode c n k t
    | _ => (r.1, some o)

/-- One NBR's part of a burst: lanes found in error in its first codeword, the row counted, the bank's open row closed. -/
def State.nbrBurst (s : State) (c n k d size : Nat) (rows lanes : List Nat) : State × Option Nat :=
  let l := burstCodewords d size rows
  let off := k * 2 ^ 25 + 2048 * d
  let s := if lanes.isEmpty then s else s.addErrs c n (k * 2 ^ 25 + l.headD (2048 * d)) lanes
  let s := (s.bump F.nbRows_count [c, n]).modChan c n (fun x => { x with openRow := tset 0 x.openRow (bankOf off) 0 })
  s.nbrDecode c n k l

/-- R203: the run is to end with a code that has an address. -/
def State.failRun (s : State) (c n : Nat) (r : NbRun) (code addr : Nat) : State :=
  (s.setRun c n (some (r.failed code))).put F.nbErrAddr_address [c, n] addr

/-- Results of a step in the output buffer of an NBR: GEMV by row number, a gather by element. -/
def NbrBuf.keep (b : NbrBuf) (places : List Nat) (ws : List Wsf) : NbrBuf :=
  { b with outp := (places.zip ws).foldl (fun (t : Table Wsf) x => tset Wsf.zero t x.1 x.2) b.outp }

/-- What NBR `k` forms at visit `v` of a step: its results join those that the run has to write; a load fills its buffers. -/
def State.nbrForms (s : State) (c n : Nat) (t : NbStep) (v : Nat) (r : NbRun) (k : Nat) : State × NbRun :=
  let plan := s.stepVisits c n k t
  match plan[v]? with
  | none => (s, r)
  | some (_, done) =>
    let last := decide (v + 1 = plan.length)
    let res := s.stepResults c n k t done last
    let places := if t.op = 1 then done else List.range t.k
    let s := s.setBuf c n k ((s.buf c n k).keep places res.2.1)
    (if last then s.stepLoad c n k t else s, { r with writes := r.writes ++ res.1, aflags := r.aflags ||| res.2.2 })

/-- R206: a mismatch of NBR `k`: the first repeats the row or the step, the second ends the run and fails the NBR. -/
def State.nbrMismatch (s : State) (c n k : Nat) (r : NbRun) (t : NbStep) : State :=
  if r.again then
    let s := s.setRun c n (some (r.failed nbFault))
    let d := c / 16
    let u := offNbr c n k
    (s.mapUpdate [(u, entry stFailed 4)]).fault d (s.record kNbrFailed 0 u (master := mNbr c) (detail := nbFault))
  else
    let r : NbRun := if t.gather then { r with again := true, visit := 0 } else { r with again := true }
    (s.setRun c n (some r)).bump F.nbRepeats_count [c, n]

/-- The NBRs' next row burst. -/
def State.burst (s : State) (c n : Nat) (r : NbRun) (errs : List (Fin 4 × Fin 144)) (mismatch : Option (Fin 4)) : State :=
  let t := s.nbStep c n r.step
  match (if r.visit = 0 then s.badIndex c n t else none) with
  | some o => s.failRun c n r nbIndexRange o
  | none =>
    let reads (k : Nat) : Option Nat := if t.exec k then ((s.stepVisits c n k t)[r.visit]?).map Prod.fst else none
    let x := (List.range 4).foldl (fun (x : State × Option Nat) k =>
      match reads k, x.2 with
      | some d, none => x.1.nbrBurst c n k d t.size (s.stepRows c n k t)
          ((errs.filter (fun e => e.1.val == k)).map (fun e => e.2.val))
      | _, _ => x) (s, none)
    let s := x.1
    match x.2 with
    | some o => s.failRun c n r nbDataError o
    | none =>
      match mismatch.filter (fun k => (reads k.val).isSome) with
      | some k => s.nbrMismatch c n k.val r t
      | none =>
        let y := (List.range 4).foldl (fun (y : State × NbRun) k =>
          if t.exec k then y.1.nbrForms c n t r.visit y.2 k else y) (s, r)
        let read := decide (s.stepBursts c n t ≤ r.visit + 1)
        y.1.setRun c n (some { y.2 with visit := r.visit + 1, read := read })

/-- R205: every owed refresh is issued in a pause of the NBRs, which in SHARED mode gives the channel back to the arbiter. -/
def State.nbrPause (s : State) (c n : Nat) : State :=
  let owed := s.get F.slcStatus_owed [c, n]
  (s.issueRefresh c n owed).bump F.nbSplits_count [c, n]

/-- R188, R205: the check of the refresh deadline, then a row burst, or the pause. -/
def State.rowBurst (s : State) (c n toDeadline : Nat) (errs : List (Fin 4 × Fin 144)) (mismatch : Option (Fin 4)) : State :=
  match s.run c n with
  | none => s.freeBurst c n
  | some r =>
    if r.code.isSome || r.read then s.freeBurst c n
    else if s.issueHalted || !s.chanUsable c n || !s.burstReady c n || (s.chan c n).refreshing != 0 then s
    else if toDeadline ≤ 256 then (s.freeBurst c n).nbrPause c n
    else (s.freeBurst c n).burst c n r errs mismatch

/-! ### Writes, steps and runs (R202 to R204) -/

/-- The end code of a failed result write (R203). -/
def nbCodeOf (status : Nat) : Nat := if status = stUnusable then 4 else if status = stAddrOffline then 5 else 6

/-- R204: the oldest result write of the run is performed; a failed one ends the run with its status. One at the CXL component
registers changes nothing. -/
def State.resultWrite (s : State) (c n : Nat) : State :=
  match s.run c n with
  | none => s
  | some r =>
    match r.writes with
    | [] => s
    | (a, b) :: t =>
      let x := s.access (mNbr c) r.tc a (.wr b)
      match x.2 with
      | .hold => s
      | .fail st => x.1.failRun c n r (nbCodeOf st) a
      | .ok _ | .cxl => x.1.setRun c n (some { r with writes := t })

/-- R202: a step ends: its event is set; the next step starts, or after the last one the run is to end OK. -/
def State.stepEnd (s : State) (c n : Nat) : State :=
  match s.run c n with
  | none => s
  | some r =>
    if r.code.isSome || !r.read || !r.writes.isEmpty then s
    else
      let t := s.nbStep c n r.step
      let s := if t.evEn then s.setEvent c t.event else s
      if t.last then s.setRun c n (some { r with code := some nbOk })
      else
        let k := (r.step + 1) % 64
        (s.setRun c n (some { r with step := k, visit := 0, read := false, again := false })).put F.nbStatus_step [c, n] k

/-- R203: a run whose code is decided ends. -/
def State.runEnds (s : State) (c n : Nat) : State :=
  match s.run c n with
  | none => s
  | some r =>
    match r.code with
    | some k => if r.writes.isEmpty then (s.freeBurst c n).endRun c n r k else s
    | none => s

/-! ### The commands -/

def execNbmode (g : Issue) (ch : ChanId) (mode : Fin 4) (s : State) : Result := .next (issueUnit (.nbmode g ch mode) s)

def execNbseq (g : Issue) (ch : ChanId) (start cnm1 : Fin 64) (sa : SReg) (s : State) : Result :=
  .next (issueUnit (.nbseq g ch start cnm1 sa) s)

def execNbload (g : Issue) (ch : ChanId) (ta : TReg) (mask : BitVec 4) (index : Bool) (ioff : BitVec 12) (s : State) : Result :=
  .next (issueUnit (.nbload g ch ta mask index ioff) s)

def execNbrun (g : Issue) (ch : ChanId) (start event : Fin 64) (s : State) : Result := .next (issueUnit (.nbrun g ch start event) s)

/-- R199, R209: NB_MODE.REQ. -/
def execNbModeReq (core : CoreId) (ch : ChanId) (req : Fin 4) (s : State) : Result :=
  .next (s.atReg .nbMode [core.val, ch.val] (fun s => s.writeMode core.val ch.val req.val)).kickAll

def execSwitchingDone (core : CoreId) (ch : ChanId) (s : State) : Result := .next (s.switchEnds core.val ch.val).kickAll

def execRowBurst (core : CoreId) (ch : ChanId) (toDeadline : Nat) (errs : List (Fin 4 × Fin 144)) (mismatch : Option (Fin 4))
    (s : State) : Result := .next (s.rowBurst core.val ch.val toDeadline errs mismatch).kickAll

def execNbStepEnd (core : CoreId) (ch : ChanId) (s : State) : Result := .next (s.stepEnd core.val ch.val).kickAll

def execNbrResultWrite (core : CoreId) (ch : ChanId) (s : State) : Result := .next (s.resultWrite core.val ch.val).kickAll

def execNbRunEnd (core : CoreId) (ch : ChanId) (s : State) : Result := .next (s.runEnds core.val ch.val).kickAll

def execNbloadDone (core : CoreId) (ch : ChanId) (s : State) : Result := .next (s.nbloadDone core.val ch.val).kickAll

/-- R209: a write to a sequence-store window, of bytes that lie in it; any other changes nothing. -/
def execNbWindowWrite (core : CoreId) (ch : ChanId) (offset : Fin 2048) (bytes : List Byte) (s : State) : Result :=
  .next (
    if 2048 < offset.val + bytes.length then s
    else if s.regServed mHostIo (seqStore core.val ch.val - regLocal 0) then s.nbWindowWrite core.val ch.val offset.val bytes
    else s.unmapped)

end Sys2Proof.Machine
end

