-- ==== Sys2Proof/Machine/Scalar.lean ====
section
/-! DEFINITION. The scalar, compare and predicate classes (R215). -/

namespace Sys2Proof.Machine

/-! ### Register form -/

def execAdd (g : Issue) (sd sa sb : SReg) (s : State) : Result :=
  .next (issueS (.add g sd sa sb) s sd (fun x => aluAdd (x.s sa) (x.s sb)))

def execSub (g : Issue) (sd sa sb : SReg) (s : State) : Result :=
  .next (issueS (.sub g sd sa sb) s sd (fun x => aluSub (x.s sa) (x.s sb)))

def execAnd (g : Issue) (sd sa sb : SReg) (s : State) : Result :=
  .next (issueS (.and g sd sa sb) s sd (fun x => aluAnd (x.s sa) (x.s sb)))

def execOr (g : Issue) (sd sa sb : SReg) (s : State) : Result :=
  .next (issueS (.or g sd sa sb) s sd (fun x => aluOr (x.s sa) (x.s sb)))

def execXor (g : Issue) (sd sa sb : SReg) (s : State) : Result :=
  .next (issueS (.xor g sd sa sb) s sd (fun x => aluXor (x.s sa) (x.s sb)))

def execShl (g : Issue) (sd sa sb : SReg) (s : State) : Result :=
  .next (issueS (.shl g sd sa sb) s sd (fun x => aluShl (x.s sa) (x.s sb)))

def execShr (g : Issue) (sd sa sb : SReg) (s : State) : Result :=
  .next (issueS (.shr g sd sa sb) s sd (fun x => aluShr (x.s sa) (x.s sb)))

def execSra (g : Issue) (sd sa sb : SReg) (s : State) : Result :=
  .next (issueS (.sra g sd sa sb) s sd (fun x => aluSra (x.s sa) (x.s sb)))

def execMul (g : Issue) (sd sa sb : SReg) (s : State) : Result :=
  .next (issueS (.mul g sd sa sb) s sd (fun x => aluMul (x.s sa) (x.s sb)))

def execMulhu (g : Issue) (sd sa sb : SReg) (s : State) : Result :=
  .next (issueS (.mulhu g sd sa sb) s sd (fun x => aluMulhu (x.s sa) (x.s sb)))

def execMin (g : Issue) (sd sa sb : SReg) (s : State) : Result :=
  .next (issueS (.min g sd sa sb) s sd (fun x => aluMin (x.s sa) (x.s sb)))

def execMax (g : Issue) (sd sa sb : SReg) (s : State) : Result :=
  .next (issueS (.max g sd sa sb) s sd (fun x => aluMax (x.s sa) (x.s sb)))

def execMinu (g : Issue) (sd sa sb : SReg) (s : State) : Result :=
  .next (issueS (.minu g sd sa sb) s sd (fun x => aluMinu (x.s sa) (x.s sb)))

def execMaxu (g : Issue) (sd sa sb : SReg) (s : State) : Result :=
  .next (issueS (.maxu g sd sa sb) s sd (fun x => aluMaxu (x.s sa) (x.s sb)))

def execFadd (g : Issue) (sd sa sb : SReg) (s : State) : Result :=
  .next (issueF (.fadd g sd sa sb) s sd (fun x => aluFadd (x.s sa) (x.s sb)))

def execFsub (g : Issue) (sd sa sb : SReg) (s : State) : Result :=
  .next (issueF (.fsub g sd sa sb) s sd (fun x => aluFsub (x.s sa) (x.s sb)))

def execFmul (g : Issue) (sd sa sb : SReg) (s : State) : Result :=
  .next (issueF (.fmul g sd sa sb) s sd (fun x => aluFmul (x.s sa) (x.s sb)))

def execFmin (g : Issue) (sd sa sb : SReg) (s : State) : Result :=
  .next (issueF (.fmin g sd sa sb) s sd (fun x => aluFmin (x.s sa) (x.s sb)))

def execFmax (g : Issue) (sd sa sb : SReg) (s : State) : Result :=
  .next (issueF (.fmax g sd sa sb) s sd (fun x => aluFmax (x.s sa) (x.s sb)))

def execI2f (g : Issue) (sd sa sb : SReg) (s : State) : Result :=
  .next (issueF (.i2f g sd sa sb) s sd (fun x => aluI2f (x.s sa)))

def execF2i (g : Issue) (sd sa sb : SReg) (s : State) : Result :=
  .next (issueF (.f2i g sd sa sb) s sd (fun x => aluF2i (x.s sa)))

/-! ### Immediate form -/

def execAddImm (g : Issue) (sd sa : SReg) (b : ImmB) (s : State) : Result :=
  .next (issueS (.addImm g sd sa b) s sd (fun x => aluAdd (x.s sa) (ImmB.value b)))

def execSubImm (g : Issue) (sd sa : SReg) (b : ImmB) (s : State) : Result :=
  .next (issueS (.subImm g sd sa b) s sd (fun x => aluSub (x.s sa) (ImmB.value b)))

def execAndImm (g : Issue) (sd sa : SReg) (b : ImmB) (s : State) : Result :=
  .next (issueS (.andImm g sd sa b) s sd (fun x => aluAnd (x.s sa) (ImmB.value b)))

def execOrImm (g : Issue) (sd sa : SReg) (b : ImmB) (s : State) : Result :=
  .next (issueS (.orImm g sd sa b) s sd (fun x => aluOr (x.s sa) (ImmB.value b)))

def execXorImm (g : Issue) (sd sa : SReg) (b : ImmB) (s : State) : Result :=
  .next (issueS (.xorImm g sd sa b) s sd (fun x => aluXor (x.s sa) (ImmB.value b)))

def execShlImm (g : Issue) (sd sa : SReg) (b : ImmB) (s : State) : Result :=
  .next (issueS (.shlImm g sd sa b) s sd (fun x => aluShl (x.s sa) (ImmB.value b)))

def execShrImm (g : Issue) (sd sa : SReg) (b : ImmB) (s : State) : Result :=
  .next (issueS (.shrImm g sd sa b) s sd (fun x => aluShr (x.s sa) (ImmB.value b)))

def execSraImm (g : Issue) (sd sa : SReg) (b : ImmB) (s : State) : Result :=
  .next (issueS (.sraImm g sd sa b) s sd (fun x => aluSra (x.s sa) (ImmB.value b)))

def execMulImm (g : Issue) (sd sa : SReg) (b : ImmB) (s : State) : Result :=
  .next (issueS (.mulImm g sd sa b) s sd (fun x => aluMul (x.s sa) (ImmB.value b)))

def execMulhuImm (g : Issue) (sd sa : SReg) (b : ImmB) (s : State) : Result :=
  .next (issueS (.mulhuImm g sd sa b) s sd (fun x => aluMulhu (x.s sa) (ImmB.value b)))

def execMinImm (g : Issue) (sd sa : SReg) (b : ImmB) (s : State) : Result :=
  .next (issueS (.minImm g sd sa b) s sd (fun x => aluMin (x.s sa) (ImmB.value b)))

def execMaxImm (g : Issue) (sd sa : SReg) (b : ImmB) (s : State) : Result :=
  .next (issueS (.maxImm g sd sa b) s sd (fun x => aluMax (x.s sa) (ImmB.value b)))

def execMinuImm (g : Issue) (sd sa : SReg) (b : ImmB) (s : State) : Result :=
  .next (issueS (.minuImm g sd sa b) s sd (fun x => aluMinu (x.s sa) (ImmB.value b)))

def execMaxuImm (g : Issue) (sd sa : SReg) (b : ImmB) (s : State) : Result :=
  .next (issueS (.maxuImm g sd sa b) s sd (fun x => aluMaxu (x.s sa) (ImmB.value b)))

def execFaddImm (g : Issue) (sd sa : SReg) (b : ImmB) (s : State) : Result :=
  .next (issueF (.faddImm g sd sa b) s sd (fun x => aluFadd (x.s sa) (ImmB.value b)))

def execFsubImm (g : Issue) (sd sa : SReg) (b : ImmB) (s : State) : Result :=
  .next (issueF (.fsubImm g sd sa b) s sd (fun x => aluFsub (x.s sa) (ImmB.value b)))

def execFmulImm (g : Issue) (sd sa : SReg) (b : ImmB) (s : State) : Result :=
  .next (issueF (.fmulImm g sd sa b) s sd (fun x => aluFmul (x.s sa) (ImmB.value b)))

def execFminImm (g : Issue) (sd sa : SReg) (b : ImmB) (s : State) : Result :=
  .next (issueF (.fminImm g sd sa b) s sd (fun x => aluFmin (x.s sa) (ImmB.value b)))

def execFmaxImm (g : Issue) (sd sa : SReg) (b : ImmB) (s : State) : Result :=
  .next (issueF (.fmaxImm g sd sa b) s sd (fun x => aluFmax (x.s sa) (ImmB.value b)))

def execI2fImm (g : Issue) (sd sa : SReg) (b : ImmB) (s : State) : Result :=
  .next (issueF (.i2fImm g sd sa b) s sd (fun x => aluI2f (x.s sa)))

def execF2iImm (g : Issue) (sd sa : SReg) (b : ImmB) (s : State) : Result :=
  .next (issueF (.f2iImm g sd sa b) s sd (fun x => aluF2i (x.s sa)))

/-! ### Compares and predicates -/

def execEq (g : Issue) (pd : PReg) (sa : SReg) (b : CmpB) (s : State) : Result :=
  .next (issueP (.eq g pd sa b) s pd (fun x => (cmpEq (x.s sa) (CmpB.value x b), 0)))

def execNe (g : Issue) (pd : PReg) (sa : SReg) (b : CmpB) (s : State) : Result :=
  .next (issueP (.ne g pd sa b) s pd (fun x => (cmpNe (x.s sa) (CmpB.value x b), 0)))

def execLt (g : Issue) (pd : PReg) (sa : SReg) (b : CmpB) (s : State) : Result :=
  .next (issueP (.lt g pd sa b) s pd (fun x => (cmpLt (x.s sa) (CmpB.value x b), 0)))

def execLe (g : Issue) (pd : PReg) (sa : SReg) (b : CmpB) (s : State) : Result :=
  .next (issueP (.le g pd sa b) s pd (fun x => (cmpLe (x.s sa) (CmpB.value x b), 0)))

def execLtu (g : Issue) (pd : PReg) (sa : SReg) (b : CmpB) (s : State) : Result :=
  .next (issueP (.ltu g pd sa b) s pd (fun x => (cmpLtu (x.s sa) (CmpB.value x b), 0)))

def execLeu (g : Issue) (pd : PReg) (sa : SReg) (b : CmpB) (s : State) : Result :=
  .next (issueP (.leu g pd sa b) s pd (fun x => (cmpLeu (x.s sa) (CmpB.value x b), 0)))

def execFeq (g : Issue) (pd : PReg) (sa : SReg) (b : CmpB) (s : State) : Result :=
  .next (issueP (.feq g pd sa b) s pd (fun x => (cmpFeq (x.s sa) (CmpB.value x b), fcmpFlags (x.s sa) (CmpB.value x b))))

def execFne (g : Issue) (pd : PReg) (sa : SReg) (b : CmpB) (s : State) : Result :=
  .next (issueP (.fne g pd sa b) s pd (fun x => (cmpFne (x.s sa) (CmpB.value x b), fcmpFlags (x.s sa) (CmpB.value x b))))

def execFlt (g : Issue) (pd : PReg) (sa : SReg) (b : CmpB) (s : State) : Result :=
  .next (issueP (.flt g pd sa b) s pd (fun x => (cmpFlt (x.s sa) (CmpB.value x b), fcmpFlags (x.s sa) (CmpB.value x b))))

def execFle (g : Issue) (pd : PReg) (sa : SReg) (b : CmpB) (s : State) : Result :=
  .next (issueP (.fle g pd sa b) s pd (fun x => (cmpFle (x.s sa) (CmpB.value x b), fcmpFlags (x.s sa) (CmpB.value x b))))

def execPand (g : Issue) (pd pa pb : PReg) (s : State) : Result :=
  .next (issueP (.pand g pd pa pb) s pd (fun x => (x.p pa && x.p pb, 0)))

def execPor (g : Issue) (pd pa pb : PReg) (s : State) : Result :=
  .next (issueP (.por g pd pa pb) s pd (fun x => (x.p pa || x.p pb, 0)))

def execPxor (g : Issue) (pd pa pb : PReg) (s : State) : Result :=
  .next (issueP (.pxor g pd pa pb) s pd (fun x => (x.p pa != x.p pb, 0)))

def execPandn (g : Issue) (pd pa pb : PReg) (s : State) : Result :=
  .next (issueP (.pandn g pd pa pb) s pd (fun x => (x.p pa && !x.p pb, 0)))

end Sys2Proof.Machine
end

