-- ==== Sys2Proof/Machine/Stream.lean ====
section
/-! DEFINITION. The vector, spline, row statistics and attention-step classes (R127 to R172, R228 to R231). -/

namespace Sys2Proof.Machine

def execVadd (g : Issue) (td ta : TReg) (b : VecB) (s : State) : Result := .next (issueUnit (.vadd g td ta b) s)

def execVsub (g : Issue) (td ta : TReg) (b : VecB) (s : State) : Result := .next (issueUnit (.vsub g td ta b) s)

def execVmul (g : Issue) (td ta : TReg) (b : VecB) (s : State) : Result := .next (issueUnit (.vmul g td ta b) s)

def execVmin (g : Issue) (td ta : TReg) (b : VecB) (s : State) : Result := .next (issueUnit (.vmin g td ta b) s)

def execVmax (g : Issue) (td ta : TReg) (b : VecB) (s : State) : Result := .next (issueUnit (.vmax g td ta b) s)

def execVscale (g : Issue) (td ta : TReg) (b : VecB) (s : State) : Result := .next (issueUnit (.vscale g td ta b) s)

def execVfma (g : Issue) (td ta : TReg) (b : VecB) (tc : TReg) (s : State) : Result := .next (issueUnit (.vfma g td ta b tc) s)

def execVsel (g : Issue) (td ta : TReg) (b : VecB) (tc : TReg) (s : State) : Result := .next (issueUnit (.vsel g td ta b tc) s)

def execVabs (g : Issue) (td ta : TReg) (s : State) : Result := .next (issueUnit (.vabs g td ta) s)

def execVneg (g : Issue) (td ta : TReg) (s : State) : Result := .next (issueUnit (.vneg g td ta) s)

def execVcvt (g : Issue) (td ta : TReg) (s : State) : Result := .next (issueUnit (.vcvt g td ta) s)

def execVrsum (g : Issue) (td ta : TReg) (s : State) : Result := .next (issueUnit (.vrsum g td ta) s)

def execVrmax (g : Issue) (td ta : TReg) (s : State) : Result := .next (issueUnit (.vrmax g td ta) s)

def execVrmin (g : Issue) (td ta : TReg) (s : State) : Result := .next (issueUnit (.vrmin g td ta) s)

def execVcmp (g : Issue) (td ta : TReg) (b : VecB) (rel : Fin 8) (s : State) : Result := .next (issueUnit (.vcmp g td ta b rel) s)

def execVbcast (g : Issue) (td : TReg) (b : VecB) (s : State) : Result := .next (issueUnit (.vbcast g td b) s)

/-! ### Spline unit (R137 to R146, R229) -/

def execSpl (g : Issue) (td ta : TReg) (fn : Fin 16) (pm : Option SReg) (s : State) : Result := .next (issueUnit (.spl g td ta fn pm) s)

def execSpld (g : Issue) (tbl : Fin 4) (bank : Fin 2) (sa : SReg) (s : State) : Result := .next (issueUnit (.spld g tbl bank sa) s)

def execSpsw (g : Issue) (tbl : Fin 4) (bank : Fin 2) (s : State) : Result := .next (issueUnit (.spsw g tbl bank) s)

/-- R141, R142: the oldest user-table load ends. -/
def execSpldDone (core : CoreId) (s : State) : Result := .next (s.spldDone core.val).kickAll

/-! ### Row statistics (R147 to R153, R230) -/

def execRstat (g : Issue) (td ta : TReg) (partl div : Bool) (shs : Option SReg) (se si : SReg) (e : BitVec 9) (s : State) : Result :=
  .next (issueUnit (.rstat g td ta partl div shs se si e) s)

def execRstatc (g : Issue) (td ta : TReg) (div : Bool) (se : SReg) (s : State) : Result := .next (issueUnit (.rstatc g td ta div se) s)

/-! ### Attention steps (R158 to R172, R231) -/

def execAstep (g : Issue) (tq tout tz : TReg) (a : AttnArgs) (s : State) : Result := .next (issueUnit (.astep g tq tout tz a) s)

def execAmax (g : Issue) (tq tz tm : TReg) (a : AttnArgs) (s : State) : Result := .next (issueUnit (.amax g tq tz tm a) s)

def execAexp (g : Issue) (tq tout tz tm : TReg) (a : AttnArgs) (s : State) : Result := .next (issueUnit (.aexp g tq tout tz tm a) s)

def execAfin (g : Issue) (tout td : TReg) (tl tm : Option TReg) (s : State) : Result := .next (issueUnit (.afin g tout td tl tm) s)

def execAmrg (g : Issue) (ta tout : TReg) (nm1 : BitVec 6) (s : State) : Result := .next (issueUnit (.amrg g ta tout nm1) s)

/-! ### The ends of instructions, and injected errors (R156, R157, R172) -/

def execUnitInstructionEnd (core : CoreId) (unit : StreamUnit) (s : State) : Result := .next (s.unitEnd core.val unit).kickAll

/-- R157: VSU_CONTROL.INJECT. -/
def execVsuInject (core : CoreId) (s : State) : Result := .next (s.atReg .vsuControl [core.val] (fun s => s.injectVsu core.val 1))

/-- R157: VSU_CONTROL.INJECT_TWICE. -/
def execVsuInjectTwice (core : CoreId) (s : State) : Result := .next (s.atReg .vsuControl [core.val] (fun s => s.injectVsu core.val 2))

end Sys2Proof.Machine
end

