-- ==== Sys2Proof/Machine/System.lean ====
section
/-! DEFINITION. The system, branch and sync classes (R216, R218, R219, R235). -/

namespace Sys2Proof.Machine

/-- R218: NOP. -/
def execNop (g : Issue) (s : State) : Result := .next (issue (.nop g) s (fun x => some x.s))

/-- R85, R218: END. -/
def execEndCmd (g : Issue) (s : State) : Result := .next (issue (.endCmd g) s Seat.endCmd)

/-- R218: FENCE. -/
def execFence (g : Issue) (mask : BitVec 5) (s : State) : Result := .next (issue (.fence g mask) s (·.fence mask))

/-- R218, R219: SRD. -/
def execSrd (g : Issue) (sd : SReg) (sreg : BitVec 12) (s : State) : Result := .next (issue (.srd g sd sreg) s (·.srd sd sreg))

/-! ### Branches (R216) -/

def execBr (g : Issue) (sl : SReg) (off : BitVec 32) (s : State) : Result :=
  .next (issueBranch (.br g sl off) s sl (fun x => (BitVec.ofNat 64 x.pc + 8 * off.signExtend 64).toNat))

def execJr (g : Issue) (sl sa : SReg) (s : State) : Result := .next (issueBranch (.jr g sl sa) s sl (fun x => (x.s sa).toNat))

/-! ### Waits and signals (R92 to R95, R235) -/

def execSemsig (g : Issue) (sem : Fin 256) (n : SyncN) (s : State) : Result :=
  .next (issue (.semsig g sem n) s (fun x => some (x.s.signal x.c sem.val (SyncN.value x.sl n))))

def execSemsigr (g : Issue) (n : SyncN) (sa : SReg) (s : State) : Result := orRefuse (issueAccess (.semsigr g n sa) s 8)

def execSemwait (g : Issue) (sem : Fin 256) (n : SyncN) (s : State) : Result :=
  .next (issue (.semwait g sem n) s (fun x => some (x.semWait sem.val (SyncN.value x.sl n))))

def execEvwait (g : Issue) (ev : Fin 64) (s : State) : Result := .next (issue (.evwait g ev) s (fun x => some (x.evWait ev.val)))

def execEvset (g : Issue) (ev : Fin 64) (s : State) : Result :=
  .next (issue (.evset g ev) s (fun x => some (x.s.setEvent x.c ev.val)))

def execTwait (g : Issue) (sa : SReg) (s : State) : Result :=
  .next (issue (.twait g sa) s (fun x => some (x.tickWait (x.sl.s sa).toNat)))

end Sys2Proof.Machine
end

