-- ==== Sys2Proof/Machine/Dispatch.lean ====
section
/-! DEFINITION. One arm for each command: its meaning. -/

namespace Sys2Proof.Machine

open Sys2Proof

def exec (i : Instr) (s : State) : Host.Outcome State Fault Refusal :=
  match i with
  | .nop g => Sys2Proof.Machine.execNop g s
  | .endCmd g => Sys2Proof.Machine.execEndCmd g s
  | .fence g mask => Sys2Proof.Machine.execFence g mask s
  | .srd g sd sreg => Sys2Proof.Machine.execSrd g sd sreg s
  | .add g sd sa sb => Sys2Proof.Machine.execAdd g sd sa sb s
  | .sub g sd sa sb => Sys2Proof.Machine.execSub g sd sa sb s
  | .and g sd sa sb => Sys2Proof.Machine.execAnd g sd sa sb s
  | .or g sd sa sb => Sys2Proof.Machine.execOr g sd sa sb s
  | .xor g sd sa sb => Sys2Proof.Machine.execXor g sd sa sb s
  | .shl g sd sa sb => Sys2Proof.Machine.execShl g sd sa sb s
  | .shr g sd sa sb => Sys2Proof.Machine.execShr g sd sa sb s
  | .sra g sd sa sb => Sys2Proof.Machine.execSra g sd sa sb s
  | .mul g sd sa sb => Sys2Proof.Machine.execMul g sd sa sb s
  | .mulhu g sd sa sb => Sys2Proof.Machine.execMulhu g sd sa sb s
  | .min g sd sa sb => Sys2Proof.Machine.execMin g sd sa sb s
  | .max g sd sa sb => Sys2Proof.Machine.execMax g sd sa sb s
  | .minu g sd sa sb => Sys2Proof.Machine.execMinu g sd sa sb s
  | .maxu g sd sa sb => Sys2Proof.Machine.execMaxu g sd sa sb s
  | .fadd g sd sa sb => Sys2Proof.Machine.execFadd g sd sa sb s
  | .fsub g sd sa sb => Sys2Proof.Machine.execFsub g sd sa sb s
  | .fmul g sd sa sb => Sys2Proof.Machine.execFmul g sd sa sb s
  | .fmin g sd sa sb => Sys2Proof.Machine.execFmin g sd sa sb s
  | .fmax g sd sa sb => Sys2Proof.Machine.execFmax g sd sa sb s
  | .i2f g sd sa sb => Sys2Proof.Machine.execI2f g sd sa sb s
  | .f2i g sd sa sb => Sys2Proof.Machine.execF2i g sd sa sb s
  | .addImm g sd sa b => Sys2Proof.Machine.execAddImm g sd sa b s
  | .subImm g sd sa b => Sys2Proof.Machine.execSubImm g sd sa b s
  | .andImm g sd sa b => Sys2Proof.Machine.execAndImm g sd sa b s
  | .orImm g sd sa b => Sys2Proof.Machine.execOrImm g sd sa b s
  | .xorImm g sd sa b => Sys2Proof.Machine.execXorImm g sd sa b s
  | .shlImm g sd sa b => Sys2Proof.Machine.execShlImm g sd sa b s
  | .shrImm g sd sa b => Sys2Proof.Machine.execShrImm g sd sa b s
  | .sraImm g sd sa b => Sys2Proof.Machine.execSraImm g sd sa b s
  | .mulImm g sd sa b => Sys2Proof.Machine.execMulImm g sd sa b s
  | .mulhuImm g sd sa b => Sys2Proof.Machine.execMulhuImm g sd sa b s
  | .minImm g sd sa b => Sys2Proof.Machine.execMinImm g sd sa b s
  | .maxImm g sd sa b => Sys2Proof.Machine.execMaxImm g sd sa b s
  | .minuImm g sd sa b => Sys2Proof.Machine.execMinuImm g sd sa b s
  | .maxuImm g sd sa b => Sys2Proof.Machine.execMaxuImm g sd sa b s
  | .faddImm g sd sa b => Sys2Proof.Machine.execFaddImm g sd sa b s
  | .fsubImm g sd sa b => Sys2Proof.Machine.execFsubImm g sd sa b s
  | .fmulImm g sd sa b => Sys2Proof.Machine.execFmulImm g sd sa b s
  | .fminImm g sd sa b => Sys2Proof.Machine.execFminImm g sd sa b s
  | .fmaxImm g sd sa b => Sys2Proof.Machine.execFmaxImm g sd sa b s
  | .i2fImm g sd sa b => Sys2Proof.Machine.execI2fImm g sd sa b s
  | .f2iImm g sd sa b => Sys2Proof.Machine.execF2iImm g sd sa b s
  | .eq g pd sa b => Sys2Proof.Machine.execEq g pd sa b s
  | .ne g pd sa b => Sys2Proof.Machine.execNe g pd sa b s
  | .lt g pd sa b => Sys2Proof.Machine.execLt g pd sa b s
  | .le g pd sa b => Sys2Proof.Machine.execLe g pd sa b s
  | .ltu g pd sa b => Sys2Proof.Machine.execLtu g pd sa b s
  | .leu g pd sa b => Sys2Proof.Machine.execLeu g pd sa b s
  | .feq g pd sa b => Sys2Proof.Machine.execFeq g pd sa b s
  | .fne g pd sa b => Sys2Proof.Machine.execFne g pd sa b s
  | .flt g pd sa b => Sys2Proof.Machine.execFlt g pd sa b s
  | .fle g pd sa b => Sys2Proof.Machine.execFle g pd sa b s
  | .pand g pd pa pb => Sys2Proof.Machine.execPand g pd pa pb s
  | .por g pd pa pb => Sys2Proof.Machine.execPor g pd pa pb s
  | .pxor g pd pa pb => Sys2Proof.Machine.execPxor g pd pa pb s
  | .pandn g pd pa pb => Sys2Proof.Machine.execPandn g pd pa pb s
  | .br g sl off => Sys2Proof.Machine.execBr g sl off s
  | .jr g sl sa => Sys2Proof.Machine.execJr g sl sa s
  | .ld8 g sr sa off => Sys2Proof.Machine.execLd8 g sr sa off s
  | .ld16 g sr sa off => Sys2Proof.Machine.execLd16 g sr sa off s
  | .ld32 g sr sa off => Sys2Proof.Machine.execLd32 g sr sa off s
  | .ld64 g sr sa off => Sys2Proof.Machine.execLd64 g sr sa off s
  | .lds8 g sr sa off => Sys2Proof.Machine.execLds8 g sr sa off s
  | .lds16 g sr sa off => Sys2Proof.Machine.execLds16 g sr sa off s
  | .lds32 g sr sa off => Sys2Proof.Machine.execLds32 g sr sa off s
  | .st8 g sr sa off => Sys2Proof.Machine.execSt8 g sr sa off s
  | .st16 g sr sa off => Sys2Proof.Machine.execSt16 g sr sa off s
  | .st32 g sr sa off => Sys2Proof.Machine.execSt32 g sr sa off s
  | .st64 g sr sa off => Sys2Proof.Machine.execSt64 g sr sa off s
  | .ataddI32 g sr sa off => Sys2Proof.Machine.execAtaddI32 g sr sa off s
  | .ataddI64 g sr sa off => Sys2Proof.Machine.execAtaddI64 g sr sa off s
  | .ataddF32 g sr sa off => Sys2Proof.Machine.execAtaddF32 g sr sa off s
  | .ataddBf16 g sr sa off => Sys2Proof.Machine.execAtaddBf16 g sr sa off s
  | .ataddWsf g sr sa off => Sys2Proof.Machine.execAtaddWsf g sr sa off s
  | .tdld g td sa off => Sys2Proof.Machine.execTdld g td sa off s
  | .tdst g td sa off => Sys2Proof.Machine.execTdst g td sa off s
  | .tdset g td dw sa => Sys2Proof.Machine.execTdset g td dw sa s
  | .tdcp g td ts => Sys2Proof.Machine.execTdcp g td ts s
  | .tdinv g td => Sys2Proof.Machine.execTdinv g td s
  | .dmaq g eng sa event evEn => Sys2Proof.Machine.execDmaq g eng sa event evEn s
  | .mma g tw tx tout acc => Sys2Proof.Machine.execMma g tw tx tout acc s
  | .macc g ts tout => Sys2Proof.Machine.execMacc g ts tout s
  | .mzero g tout => Sys2Proof.Machine.execMzero g tout s
  | .mcvt g ts td => Sys2Proof.Machine.execMcvt g ts td s
  | .vadd g td ta b => Sys2Proof.Machine.execVadd g td ta b s
  | .vsub g td ta b => Sys2Proof.Machine.execVsub g td ta b s
  | .vmul g td ta b => Sys2Proof.Machine.execVmul g td ta b s
  | .vfma g td ta b tc => Sys2Proof.Machine.execVfma g td ta b tc s
  | .vmin g td ta b => Sys2Proof.Machine.execVmin g td ta b s
  | .vmax g td ta b => Sys2Proof.Machine.execVmax g td ta b s
  | .vabs g td ta => Sys2Proof.Machine.execVabs g td ta s
  | .vneg g td ta => Sys2Proof.Machine.execVneg g td ta s
  | .vscale g td ta b => Sys2Proof.Machine.execVscale g td ta b s
  | .vcmp g td ta b rel => Sys2Proof.Machine.execVcmp g td ta b rel s
  | .vsel g td ta b tc => Sys2Proof.Machine.execVsel g td ta b tc s
  | .vcvt g td ta => Sys2Proof.Machine.execVcvt g td ta s
  | .vbcast g td b => Sys2Proof.Machine.execVbcast g td b s
  | .vrsum g td ta => Sys2Proof.Machine.execVrsum g td ta s
  | .vrmax g td ta => Sys2Proof.Machine.execVrmax g td ta s
  | .vrmin g td ta => Sys2Proof.Machine.execVrmin g td ta s
  | .spl g td ta fn pm => Sys2Proof.Machine.execSpl g td ta fn pm s
  | .spld g tbl bank sa => Sys2Proof.Machine.execSpld g tbl bank sa s
  | .spsw g tbl bank => Sys2Proof.Machine.execSpsw g tbl bank s
  | .rstat g td ta partl div shs se si e => Sys2Proof.Machine.execRstat g td ta partl div shs se si e s
  | .rstatc g td ta div se => Sys2Proof.Machine.execRstatc g td ta div se s
  | .astep g tq tout tz a => Sys2Proof.Machine.execAstep g tq tout tz a s
  | .amax g tq tz tm a => Sys2Proof.Machine.execAmax g tq tz tm a s
  | .aexp g tq tout tz tm a => Sys2Proof.Machine.execAexp g tq tout tz tm a s
  | .afin g tout td tl tm => Sys2Proof.Machine.execAfin g tout td tl tm s
  | .amrg g ta tout nm1 => Sys2Proof.Machine.execAmrg g ta tout nm1 s
  | .nbmode g ch mode => Sys2Proof.Machine.execNbmode g ch mode s
  | .nbseq g ch start cnm1 sa => Sys2Proof.Machine.execNbseq g ch start cnm1 sa s
  | .nbload g ch ta mask index ioff => Sys2Proof.Machine.execNbload g ch ta mask index ioff s
  | .nbrun g ch start event => Sys2Proof.Machine.execNbrun g ch start event s
  | .kvopen g sseq sa => Sys2Proof.Machine.execKvopen g sseq sa s
  | .kvapp g sseq nm1 tk tv => Sys2Proof.Machine.execKvapp g sseq nm1 tk tv s
  | .kvseal g sseq => Sys2Proof.Machine.execKvseal g sseq s
  | .kvfree g sseq => Sys2Proof.Machine.execKvfree g sseq s
  | .cform g sg sa => Sys2Proof.Machine.execCform g sg sa s
  | .crun g sg sa event evEn => Sys2Proof.Machine.execCrun g sg sa event evEn s
  | .cleave g sg => Sys2Proof.Machine.execCleave g sg s
  | .semsig g sem n => Sys2Proof.Machine.execSemsig g sem n s
  | .semsigr g n sa => Sys2Proof.Machine.execSemsigr g n sa s
  | .semwait g sem n => Sys2Proof.Machine.execSemwait g sem n s
  | .evwait g ev => Sys2Proof.Machine.execEvwait g ev s
  | .evset g ev => Sys2Proof.Machine.execEvset g ev s
  | .twait g sa => Sys2Proof.Machine.execTwait g sa s
  | .select core => Sys2Proof.Machine.execSelect core s
  | .stopReport core slot => Sys2Proof.Machine.execStopReport core slot s
  | .resume q => Sys2Proof.Machine.execResume q s
  | .cancel q => Sys2Proof.Machine.execCancel q s
  | .completionRecord q => Sys2Proof.Machine.execCompletionRecord q s
  | .holdoffExpiry q => Sys2Proof.Machine.execHoldoffExpiry q s
  | .commit core mismatch => Sys2Proof.Machine.execCommit core mismatch s
  | .mmaEnd core => Sys2Proof.Machine.execMmaEnd core s
  | .unitRepeat core unit kind bank => Sys2Proof.Machine.execUnitRepeat core unit kind bank s
  | .spldDone core => Sys2Proof.Machine.execSpldDone core s
  | .spadParityReread core bank offset master slot dmaSide persistent => Sys2Proof.Machine.execSpadParityReread core bank offset master slot dmaSide persistent s
  | .handoverDone core bank => Sys2Proof.Machine.execHandoverDone core bank s
  | .dmaDescriptorStart core eng => Sys2Proof.Machine.execDmaDescriptorStart core eng s
  | .dmaBurst core eng mismatch => Sys2Proof.Machine.execDmaBurst core eng mismatch s
  | .dmaCompletion core eng => Sys2Proof.Machine.execDmaCompletion core eng s
  | .dmaSubmit core eng value wide => Sys2Proof.Machine.execDmaSubmit core eng value wide s
  | .dmaRestart core eng => Sys2Proof.Machine.execDmaRestart core eng s
  | .dmaFlush core eng => Sys2Proof.Machine.execDmaFlush core eng s
  | .spadHandover core mask target => Sys2Proof.Machine.execSpadHandover core mask target s
  | .nbModeReq core ch req => Sys2Proof.Machine.execNbModeReq core ch req s
  | .switchingDone core ch => Sys2Proof.Machine.execSwitchingDone core ch s
  | .rowBurst core ch toDeadline errs mismatch => Sys2Proof.Machine.execRowBurst core ch toDeadline errs mismatch s
  | .nbStepEnd core ch => Sys2Proof.Machine.execNbStepEnd core ch s
  | .nbrResultWrite core ch => Sys2Proof.Machine.execNbrResultWrite core ch s
  | .nbRunEnd core ch => Sys2Proof.Machine.execNbRunEnd core ch s
  | .nbloadDone core ch => Sys2Proof.Machine.execNbloadDone core ch s
  | .channelRequest core ch requester master tc offset access => Sys2Proof.Machine.execChannelRequest core ch requester master tc offset access s
  | .slotBoundary core ch => Sys2Proof.Machine.execSlotBoundary core ch s
  | .slotZero core ch => Sys2Proof.Machine.execSlotZero core ch s
  | .quotaWindowStart core ch => Sys2Proof.Machine.execQuotaWindowStart core ch s
  | .transferEnd core ch errs => Sys2Proof.Machine.execTransferEnd core ch errs s
  | .readMergeWrite core ch errs => Sys2Proof.Machine.execReadMergeWrite core ch errs s
  | .adderRequest op addr operand tag tagAddr master tc => Sys2Proof.Machine.execAdderRequest op addr operand tag tagAddr master tc s
  | .adderSequence core ch errs => Sys2Proof.Machine.execAdderSequence core ch errs s
  | .refreshBoundary core ch => Sys2Proof.Machine.execRefreshBoundary core ch s
  | .refresh core ch inWindow => Sys2Proof.Machine.execRefresh core ch inWindow s
  | .forcedRefresh core ch => Sys2Proof.Machine.execForcedRefresh core ch s
  | .refreshDone core ch => Sys2Proof.Machine.execRefreshDone core ch s
  | .scrubRead core ch errs => Sys2Proof.Machine.execScrubRead core ch errs s
  | .laneDead core ch lane => Sys2Proof.Machine.execLaneDead core ch lane s
  | .slcDeadLanesWrite core ch word value => Sys2Proof.Machine.execSlcDeadLanesWrite core ch word value s
  | .channelFailed core ch => Sys2Proof.Machine.execChannelFailed core ch s
  | .arbLoad core ch => Sys2Proof.Machine.execArbLoad core ch s
  | .starvationServe die => Sys2Proof.Machine.execStarvationServe die s
  | .farWindowAccess far master offset access => Sys2Proof.Machine.execFarWindowAccess far master offset access s
  | .farResponse far line poison => Sys2Proof.Machine.execFarResponse far line poison s
  | .farPortBringup far outcome => Sys2Proof.Machine.execFarPortBringup far outcome s
  | .farDeviceLost far timeout => Sys2Proof.Machine.execFarDeviceLost far timeout s
  | .fpPerst far => Sys2Proof.Machine.execFpPerst far s
  | .fpRetrain far => Sys2Proof.Machine.execFpRetrain far s
  | .dataFlit port bytes => Sys2Proof.Machine.execDataFlit port bytes s
  | .controlFlit port good ack nak freed cad => Sys2Proof.Machine.execControlFlit port good ack nak freed cad s
  | .biscuitSync port total used freed ack => Sys2Proof.Machine.execBiscuitSync port total used freed ack s
  | .flitForward port vc dclass us => Sys2Proof.Machine.execFlitForward port vc dclass us s
  | .outputWaitDrop port vc dclass => Sys2Proof.Machine.execOutputWaitDrop port vc dclass s
  | .routeChange isLocal index value => Sys2Proof.Machine.execRouteChange isLocal index value s
  | .settleExpiry isLocal index => Sys2Proof.Machine.execSettleExpiry isLocal index s
  | .e2eTimeout txn => Sys2Proof.Machine.execE2eTimeout txn s
  | .read src txn tc addr len => Sys2Proof.Machine.execRead src txn tc addr len s
  | .write src txn tc addr bytes => Sys2Proof.Machine.execWrite src txn tc addr bytes s
  | .readResp txn status bytes => Sys2Proof.Machine.execReadResp txn status bytes s
  | .writeAck txn status => Sys2Proof.Machine.execWriteAck txn status s
  | .grant group flits index => Sys2Proof.Machine.execGrant group flits index s
  | .mgmt port bytes => Sys2Proof.Machine.execMgmt port bytes s
  | .gfEnable port enable => Sys2Proof.Machine.execGfEnable port enable s
  | .gfRetrain port => Sys2Proof.Machine.execGfRetrain port s
  | .partnerFound port partner => Sys2Proof.Machine.execPartnerFound port partner s
  | .gfTrainingDone port result rtt => Sys2Proof.Machine.execGfTrainingDone port result rtt s
  | .qualificationWindowEnd port lanes uncorr crc => Sys2Proof.Machine.execQualificationWindowEnd port lanes uncorr crc s
  | .retrainTimeout port => Sys2Proof.Machine.execRetrainTimeout port s
  | .controlFlitTimeout port => Sys2Proof.Machine.execControlFlitTimeout port s
  | .uncorrectableBurst port => Sys2Proof.Machine.execUncorrectableBurst port s
  | .lossOfSignal port => Sys2Proof.Machine.execLossOfSignal port s
  | .addMessage src txn tc addr op operand tag tagAddr => Sys2Proof.Machine.execAddMessage src txn tc addr op operand tag tagAddr s
  | .gfRttMeasurement port ns => Sys2Proof.Machine.execGfRttMeasurement port ns s
  | .cadenceTick err => Sys2Proof.Machine.execCadenceTick err s
  | .tickMissing => Sys2Proof.Machine.execTickMissing s
  | .holdLimitExpiry => Sys2Proof.Machine.execHoldLimitExpiry s
  | .reagree => Sys2Proof.Machine.execReagree s
  | .form group index n spares anchor crc ns => Sys2Proof.Machine.execForm group index n spares anchor crc ns s
  | .formEcho group ns => Sys2Proof.Machine.execFormEcho group ns s
  | .formed group h members => Sys2Proof.Machine.execFormed group h members s
  | .formTimeout group => Sys2Proof.Machine.execFormTimeout group s
  | .phaseStart group => Sys2Proof.Machine.execPhaseStart group s
  | .collData group phase index first elems => Sys2Proof.Machine.execCollData group phase index first elems s
  | .release group => Sys2Proof.Machine.execRelease group s
  | .refuse group code => Sys2Proof.Machine.execRefuse group code s
  | .lateCheck group unitBusy => Sys2Proof.Machine.execLateCheck group unitBusy s
  | .late port group value ttl => Sys2Proof.Machine.execLate port group value ttl s
  | .collFail port group code ttl => Sys2Proof.Machine.execCollFail port group code ttl s
  | .lost port group index ttl => Sys2Proof.Machine.execLost port group index ttl s
  | .heartbeatSend die => Sys2Proof.Machine.execHeartbeatSend die s
  | .heartbeat group index => Sys2Proof.Machine.execHeartbeat group index s
  | .heartbeatMiss group => Sys2Proof.Machine.execHeartbeatMiss group s
  | .reformTimeout group => Sys2Proof.Machine.execReformTimeout group s
  | .collectiveEnd group => Sys2Proof.Machine.execCollectiveEnd group s
  | .localEdge => Sys2Proof.Machine.execLocalEdge s
  | .groupWordExpiry kind group value => Sys2Proof.Machine.execGroupWordExpiry kind group value s
  | .bennexFlit ep seq vc good => Sys2Proof.Machine.execBennexFlit ep seq vc good s
  | .bxRetrain ep => Sys2Proof.Machine.execBxRetrain ep s
  | .bxRestart ep flits => Sys2Proof.Machine.execBxRestart ep flits s
  | .widthDisagree ep flits => Sys2Proof.Machine.execWidthDisagree ep flits s
  | .bxTraining ep badLanes partner cap0 cap1 => Sys2Proof.Machine.execBxTraining ep badLanes partner cap0 cap1 s
  | .bxLiveSpare ep module lane => Sys2Proof.Machine.execBxLiveSpare ep module lane s
  | .meshRetransmit die router dir => Sys2Proof.Machine.execMeshRetransmit die router dir s
  | .meshLinkFail die router dir again => Sys2Proof.Machine.execMeshLinkFail die router dir again s
  | .bxControlFlitTimeout ep => Sys2Proof.Machine.execBxControlFlitTimeout ep s
  | .bxRouteSettleExpiry link => Sys2Proof.Machine.execBxRouteSettleExpiry link s
  | .thermalSample die readings => Sys2Proof.Machine.execThermalSample die readings s
  | .sensorLost die spot => Sys2Proof.Machine.execSensorLost die spot s
  | .thermalModelUpdate die spots offsets layerPred => Sys2Proof.Machine.execThermalModelUpdate die spots offsets layerPred s
  | .clampUpdate die => Sys2Proof.Machine.execClampUpdate die s
  | .stage2Entry die => Sys2Proof.Machine.execStage2Entry die s
  | .thermtrip die => Sys2Proof.Machine.execThermtrip die s
  | .coolantReport bytes => Sys2Proof.Machine.execCoolantReport bytes s
  | .telemLost => Sys2Proof.Machine.execTelemLost s
  | .powerMeasure watts glue => Sys2Proof.Machine.execPowerMeasure watts glue s
  | .allowedPowerUpdate => Sys2Proof.Machine.execAllowedPowerUpdate s
  | .supalert0 => Sys2Proof.Machine.execSupalert0 s
  | .supalert1 => Sys2Proof.Machine.execSupalert1 s
  | .supalertRelease input => Sys2Proof.Machine.execSupalertRelease input s
  | .hostWindowAccess master offset access => Sys2Proof.Machine.execHostWindowAccess master offset access s
  | .memRd line => Sys2Proof.Machine.execMemRd line s
  | .memWr line mask data => Sys2Proof.Machine.execMemWr line mask data s
  | .hostSnoop line => Sys2Proof.Machine.execHostSnoop line s
  | .hdmCommit base size lock => Sys2Proof.Machine.execHdmCommit base size lock s
  | .doorbellTail q value => Sys2Proof.Machine.execDoorbellTail q value s
  | .doorbellCqHead q value => Sys2Proof.Machine.execDoorbellCqHead q value s
  | .qSchedWrite q value => Sys2Proof.Machine.execQSchedWrite q value s
  | .qRingCfgWrite q value => Sys2Proof.Machine.execQRingCfgWrite q value s
  | .hostRingRetry q => Sys2Proof.Machine.execHostRingRetry q s
  | .hperst low => Sys2Proof.Machine.execHperst low s
  | .hostLinkDown => Sys2Proof.Machine.execHostLinkDown s
  | .hostLinkUp width rate cxl cacheEn memEn => Sys2Proof.Machine.execHostLinkUp width rate cxl cacheEn memEn s
  | .semSignal core sem n => Sys2Proof.Machine.execSemSignal core sem n s
  | .semValueWrite core sem value => Sys2Proof.Machine.execSemValueWrite core sem value s
  | .evSetReg core mask => Sys2Proof.Machine.execEvSetReg core mask s
  | .evClrReg core mask => Sys2Proof.Machine.execEvClrReg core mask s
  | .coreHold core hold => Sys2Proof.Machine.execCoreHold core hold s
  | .mxaInject core => Sys2Proof.Machine.execMxaInject core s
  | .mxaInjectTwice core => Sys2Proof.Machine.execMxaInjectTwice core s
  | .vsuInject core => Sys2Proof.Machine.execVsuInject core s
  | .vsuInjectTwice core => Sys2Proof.Machine.execVsuInjectTwice core s
  | .glbChipIdWrite value => Sys2Proof.Machine.execGlbChipIdWrite value s
  | .unmappedAccess addr access => Sys2Proof.Machine.execUnmappedAccess addr access s
  | .registerWrite offset value wide => Sys2Proof.Machine.execRegisterWrite offset value wide s
  | .nbWindowWrite core ch offset bytes => Sys2Proof.Machine.execNbWindowWrite core ch offset bytes s
  | .kvFrameBorrow lender borrower far => Sys2Proof.Machine.execKvFrameBorrow lender borrower far s
  | .kvFrameAck lender borrower => Sys2Proof.Machine.execKvFrameAck lender borrower s
  | .pwrgoodFall => Sys2Proof.Machine.execPwrgoodFall s
  | .pwrgoodRise => Sys2Proof.Machine.execPwrgoodRise s
  | .pkgReset rise => Sys2Proof.Machine.execPkgReset rise s
  | .vddAuxRemoval => Sys2Proof.Machine.execVddAuxRemoval s
  | .clocksPhase corrected bad lost => Sys2Proof.Machine.execClocksPhase corrected bad lost s
  | .bootPhase headerLost => Sys2Proof.Machine.execBootPhase headerLost s
  | .selfTestPhase memFail jigFail => Sys2Proof.Machine.execSelfTestPhase memFail jigFail s
  | .bennexPhase => Sys2Proof.Machine.execBennexPhase s
  | .dramTraining core ch lanes control narrow jigFail => Sys2Proof.Machine.execDramTraining core ch lanes control narrow jigFail s
  | .retentionStep hot pattern k failing => Sys2Proof.Machine.execRetentionStep hot pattern k failing s
  | .linksPhase => Sys2Proof.Machine.execLinksPhase s
  | .mapPhase => Sys2Proof.Machine.execMapPhase s
  | .ready ms => Sys2Proof.Machine.execReady ms s
  | .startTimeout => Sys2Proof.Machine.execStartTimeout s
  | .partialReset die cause => Sys2Proof.Machine.execPartialReset die cause s
  | .bruDieResetReq mask => Sys2Proof.Machine.execBruDieResetReq mask s
  | .partialResetReturn die jigFail linkUp linkDown => Sys2Proof.Machine.execPartialResetReturn die jigFail linkUp linkDown s
  | .d0ResetTimeout => Sys2Proof.Machine.execD0ResetTimeout s
  | .jigSave core => Sys2Proof.Machine.execJigSave core s
  | .jigComplete unit fails => Sys2Proof.Machine.execJigComplete unit fails s
  | .regionFreeTimeout => Sys2Proof.Machine.execRegionFreeTimeout s
  | .resync die => Sys2Proof.Machine.execResync die s
  | .consResend die => Sys2Proof.Machine.execConsResend die s
  | .consGiveup die dst => Sys2Proof.Machine.execConsGiveup die dst s
  | .backgroundVote corrected lost => Sys2Proof.Machine.execBackgroundVote corrected lost s
  | .audRun => Sys2Proof.Machine.execAudRun s
  | .auditDone flight => Sys2Proof.Machine.execAuditDone flight s
  | .getInfo h payload => Sys2Proof.Machine.execGetInfo h payload s
  | .retireUnit h payload => Sys2Proof.Machine.execRetireUnit h payload s
  | .readmitUnit h payload fails => Sys2Proof.Machine.execReadmitUnit h payload fails s
  | .runJig h payload => Sys2Proof.Machine.execRunJig h payload s
  | .saveSettings h payload => Sys2Proof.Machine.execSaveSettings h payload s
  | .warmRestart h payload => Sys2Proof.Machine.execWarmRestart h payload s
  | .setIdleFloor h payload => Sys2Proof.Machine.execSetIdleFloor h payload s
  | .setStagger h payload => Sys2Proof.Machine.execSetStagger h payload s
  | .attest h payload => Sys2Proof.Machine.execAttest h payload s
  | .fwBegin h payload => Sys2Proof.Machine.execFwBegin h payload s
  | .fwData h payload => Sys2Proof.Machine.execFwData h payload s
  | .finish h payload => Sys2Proof.Machine.execFinish h payload s
  | .commitSvn h payload => Sys2Proof.Machine.execCommitSvn h payload s
  | .revoke h payload => Sys2Proof.Machine.execRevoke h payload s
  | .audit h payload => Sys2Proof.Machine.execAudit h payload s
  | .i3cRead => Sys2Proof.Machine.execI3cRead s
  | .voltageSet mv => Sys2Proof.Machine.execVoltageSet mv s
  | .avsTimeout => Sys2Proof.Machine.execAvsTimeout s
  | .dynamicAddressAssignment addr => Sys2Proof.Machine.execDynamicAddressAssignment addr s
  | .testPortAccess internal => Sys2Proof.Machine.execTestPortAccess internal s
  | .hostCxlIoAccess addr access => Sys2Proof.Machine.execHostCxlIoAccess addr access s
  | .unitInstructionEnd core unit => Sys2Proof.Machine.execUnitInstructionEnd core unit s

end Sys2Proof.Machine
end

