-- ==== Sys2Proof/Safety.lean ====
section
/-! DEFINITION. What a good state is, in the terms of the statements: storage in canonical form, commands well-formed, units and
queues within their bounds. -/

namespace Sys2Proof.Machine

/-- Byte storage is canonical: addresses strictly rising, no entry equal to what an unlisted address reads as. -/
def Memory.wf (m : Table Byte) : Bool := twf 0#8 m

/-- The registers are canonical: BAR0 offsets strictly rising. -/
def Regs.wf (t : Table Nat) : Bool := (t.map Prod.fst).Pairwise (· < ·)

/-- All byte storage of a state is canonical: the part's own, the host's, the map's statuses, the tags of the accumulator
stores, and what far devices hold. -/
def State.canonical (s : State) : Bool :=
  Memory.wf s.mem && Memory.wf s.hostMem && Memory.wf s.own && twf (0#8) s.accTags && twf (none : Option Byte) s.farMem

/-- Every command that waits is well-formed. -/
def State.pendingOk (s : State) : Bool := s.pending.all Instr.wf

/-! ### Instructions that issue -/

/-- Instruction `i` issues on core `c` from slot `k`, whose context is `sl`, and executes (R79 to R84, R213, R214): the core is
usable and issues, the words fetched at the program counter spell `i` and are legal, the guard holds, and no earlier instruction
that has not finished, nor a full issue queue, holds it. `s0` is the state after the fetch. -/
def State.canIssue (s : State) (i : Instr) (s0 : State) (c k : Nat) (sl : Slot) : Prop :=
  ∃ (g : Issue) (w x : Nat),
    issueOf i = some g ∧ g.core.val = c ∧ s.issueHalted = false ∧ s.coreUsable c = true ∧ s.issuing c = some k ∧
    s.slot c k = some sl ∧ s.fetchInstr c k sl = .word s0 w x ∧ decodeWord g.core w x = some i ∧
    illegalOperand sl i = none ∧ sl.guard g = true ∧
    (s.inUnits c k).any (fun e => s.waitsFor sl i e.instr) = false ∧ s.queueFull c i = false

/-- The state `t` is `s` with slot `k` of core `c` holding the context `sl`, and nothing else changed. -/
def State.sameBut (t s : State) (c k : Nat) (sl : Slot) : Prop := t = s.setSlot c k (some sl)

/-- After an instruction of `n` bytes at context `sl` in slot `k` of core `c`, state `t` is `s0` but for that slot: its program
counter is past the instruction, scalar register `r` holds `v` (s0 stays zero), every other scalar register, every predicate and
every other part of the context is as before (R78, R215). -/
def setsScalar (s0 t : State) (c k : Nat) (sl : Slot) (n : Nat) (r : SReg) (v : Word) (flags : BitVec 8) : Prop :=
  ∃ sl' : Slot, t.sameBut s0 c k sl' ∧
    sl' = { sl with pc := (sl.pc + n) % 2 ^ 64, seq := sl.seq + 1, sregs := sl'.sregs, aflags := sl.aflags ||| flags } ∧
    ∀ q : SReg, sl'.s q = if q.val = 0 then 0#64 else if q = r then v else sl.s q

/-- The same for a predicate: p0 stays true. -/
def setsPredicate (s0 t : State) (c k : Nat) (sl : Slot) (n : Nat) (r : PReg) (v : Bool) (flags : BitVec 8) : Prop :=
  ∃ sl' : Slot, t.sameBut s0 c k sl' ∧
    sl' = { sl with pc := (sl.pc + n) % 2 ^ 64, seq := sl.seq + 1, preds := sl'.preds, aflags := sl.aflags ||| flags } ∧
    ∀ q : PReg, sl'.p q = if q.val = 0 then true else if q = r then v else sl.p q

/-- Wherever `i` issues and executes it answers a next state in which scalar register `r` holds `f` of the context, with the
arithmetic flags that `f` gives joined to the context's, past the `n` bytes of `i`, and all else as it was. -/
def scalarResult (i : Instr) (n : Nat) (r : SReg) (f : Slot → Word × BitVec 8) : Prop :=
  ∀ (s s0 : State) (c k : Nat) (sl : Slot), s.canIssue i s0 c k sl →
    ∃ t, exec i s = .next t ∧ setsScalar s0 t c k sl n r (f sl).1 (f sl).2

/-- The same for a predicate register. -/
def predicateResult (i : Instr) (r : PReg) (f : Slot → Bool × BitVec 8) : Prop :=
  ∀ (s s0 : State) (c k : Nat) (sl : Slot), s.canIssue i s0 c k sl →
    ∃ t, exec i s = .next t ∧ setsPredicate s0 t c k sl 8 r (f sl).1 (f sl).2

/-- Bytes of an instruction with operand b of the immediate class: the extension word takes 8 more (R211). -/
def immBytes : ImmB → Nat
  | .imm _ => 8
  | .ext _ => 16

/-- An FP32 result in bits [31:0], bits [63:32] zero, and its flags: those of the rounding, and INVALID where an operand or the
result is NaN (R60, R70, R215). -/
def fp32Result (operands : List Val) (v : Val) : Word × BitVec 8 :=
  (BitVec.ofNat 64 (toFp32 v).1, (toFp32 v).2 ||| (if v.isNan || operands.any Val.isNan then flInvalid else 0#8))

/-- Instruction `i` is fetched and decoded on core `c` from slot `k`, whose context is `sl` (steps 1 and 2 of R239, but for the
operands that R213 makes illegal): `w` and `x` are its words, `s0` the state after their fetch. -/
def State.fetched (s : State) (i : Instr) (s0 : State) (c k : Nat) (sl : Slot) (w x : Nat) : Prop :=
  ∃ g : Issue,
    issueOf i = some g ∧ g.core.val = c ∧ s.issueHalted = false ∧ s.coreUsable c = true ∧ s.issuing c = some k ∧
    s.slot c k = some sl ∧ s.fetchInstr c k sl = .word s0 w x ∧ decodeWord g.core w x = some i

/-- An exception at issue (R99, R240): slot `k` of core `c` holds a stop of the status and operand number at the instruction's own
place, with the instruction's MAJOR and MINOR, its program counter has not moved, the command's registers, predicates and
descriptors are as before, and no register or storage of the part has changed. -/
def stopsAtIssue (s0 t : State) (c k : Nat) (sl : Slot) (status operand major minor : Nat) : Prop :=
  ∃ (sl' : Slot) (r : StopRec), t.slot c k = some sl' ∧ sl'.phase = .stopping ∧ sl'.stop = some r ∧
    r.seq = sl.seq ∧ r.detail = { status := status, cls := 0, ust := 0, idx := operand, major := major, minor := minor, pc := sl.pc } ∧
    sl'.pc = sl.pc ∧ sl'.sregs = sl.sregs ∧ sl'.preds = sl.preds ∧ sl'.tds = sl.tds ∧ sl'.aflags = sl.aflags ∧
    t = { s0 with cores := t.cores }

/-- An instruction of 8 bytes has passed on slot `k` of core `c`: the context has gone on to the next one and is otherwise as it
was, and of the part only registers and the core's counts of its semaphores have changed. -/
def passes (s0 t : State) (c k : Nat) (sl : Slot) : Prop :=
  t.slot c k = some { sl with pc := (sl.pc + 8) % 2 ^ 64, seq := sl.seq + 1 } ∧
  t = { s0 with regs := t.regs, cores := t.cores } ∧ (∀ j, j ≠ k → t.slot c j = s0.slot c j) ∧
  (∀ d, d ≠ c → t.core d = s0.core d)

/-- The command of slot `k` of core `c` parks on a wait (R90): the context stands behind the wait, which is not granted, its queue
is PARKED, and the part's storage and other slots are as they were. -/
def parks (s0 t : State) (c k : Nat) (sl : Slot) (w : Wait) : Prop :=
  t.slot c k = some { sl with
    pc := (sl.pc + 8) % 2 ^ 64, seq := sl.seq + 1, phase := .parked, wait := some w, granted := false
    order := (s0.core c).clock } ∧
  t.qState sl.queue = qParked ∧
  t = { s0 with regs := t.regs, cores := t.cores } ∧ (∀ j, j ≠ k → t.slot c j = s0.slot c j) ∧
  (∀ d, d ≠ c → t.core d = s0.core d)

/-- After an instruction of 8 bytes in slot `k` of core `c`, state `t` is `s0` but for that slot: its program counter is past the
instruction, descriptor `r` holds `im` (none: it is invalid), and every other part of the context is as before. -/
def setsImage (s0 t : State) (c k : Nat) (sl : Slot) (r : TReg) (im : Option Image) : Prop :=
  ∃ sl' : Slot, t.sameBut s0 c k sl' ∧
    sl' = { sl with pc := (sl.pc + 8) % 2 ^ 64, seq := sl.seq + 1, tds := sl'.tds } ∧
    ∀ q : TReg, sl'.image q = if q = r then im else sl.image q

/-! ### What commands answer -/

/-- A command answers a next state of which `P` holds. -/
def answers (o : Result) (P : State → Prop) : Prop := ∃ t, o = .next t ∧ P t

/-- A command brings about a state of which `P` holds; the next state is that state once every instruction and access that the
change released has gone on (`kickAll`). Where nothing waits, that is the same state. -/
def settles (o : Result) (P : State → Prop) : Prop := ∃ u, o = .next u.kickAll ∧ P u

/-- From `s` to `t` no register but those at the BAR0 offsets `l` has changed, and of the rest of the state only what core `c`
counts and holds in order beside its registers, its slots and queues being as they were. -/
def changesRegs (s t : State) (c : Nat) (l : List Nat) : Prop :=
  t = { s with regs := t.regs, cores := t.cores } ∧ (∀ k i, regAddr k i ∉ l → t.reg k i = s.reg k i) ∧
  (∀ d k, t.slot d k = s.slot d k) ∧ (∀ d u, (t.core d).queue u = (s.core d).queue u) ∧ (∀ d, d ≠ c → t.core d = s.core d)

/-- From `s` to `t` no register but those at the BAR0 offsets `l` has changed, and nothing else. -/
def regsOnly (s t : State) (l : List Nat) : Prop :=
  t = { s with regs := t.regs } ∧ ∀ k i, regAddr k i ∉ l → t.reg k i = s.reg k i

/-- R94: a signal has been discarded for overflow. -/
def overflowed (s t : State) (c i : Nat) : Prop :=
  t.get F.semValue_value [c, i] = s.get F.semValue_value [c, i] ∧
  t.get F.semOverflowCount_count [c] = sat 32 (s.get F.semOverflowCount_count [c] + 1) ∧
  t.flag F.coreStatus_semOvf [c] = true ∧
  ∀ k j, regAddr k j ≠ regAddr .semOverflowCount [c] → regAddr k j ≠ regAddr .coreStatus [c] → t.reg k j = s.reg k j

/-- The instruction that unit `v` of core `c` executed for slot `k` has ended with the results that state `t` holds: the storage is
that of `t`, the flags `f` have joined the command's, the unit executes nothing, and nothing else than registers has changed since
`t`. -/
def unitEnded (u : State) (c k : Nat) (v : UnitId) (t : State) (f : BitVec 8) (sl : Slot) : Prop :=
  (u.core c).runs v = none ∧ (∀ l, u.peek l = t.peek l) ∧ (t.slot c k = some sl → u.slot c k = some { sl with aflags := sl.aflags ||| f }) ∧
  u = { t with regs := u.regs, cores := u.cores } ∧ (∀ w, (u.core c).queue w = (t.core c).queue w)

/-- The response buffer of the mailbox holds a response of opcode, SEQ, status and payload, BUSY is clear, DONE is set, and no request
waits (R385, R386). -/
def mbAnswered (u : State) (op seq status : Nat) (payload : List Byte) : Prop :=
  let b := leBytes 2 op ++ leBytes 2 status ++ leBytes 4 seq ++ leBytes 4 payload.length ++ leBytes 4 0 ++ payload
  (∀ i < b.length, u.peek (mbRespAddr + i) = b.getD i 0#8) ∧ u.flag F.mbStatus_busy = false ∧ u.flag F.mbStatus_done = true ∧
  u.bring.mbWait = none

end Sys2Proof.Machine
end

