-- ==== Sys2Proof/Certificates/Slice0/Obligations.lean ====
section
/-! DEFINITION. The statements for the provers, from the numbered rules of the spec. -/

open Sys2Proof Sys2Proof.Machine

/-- R215, MAJOR 0x01: each integer operation of the register class, wherever it issues, answers a next state in which SD holds its
result modulo 2^64, and nothing else changes but the context's program counter and place in issue order. SHL, SHR and SRA shift by
bits [5:0] of b; MUL gives the low and MULHU the high 64 bits of the unsigned product; MIN and MAX compare signed, MINU and MAXU
unsigned. A write to s0 is discarded. R215, MAJOR 0x02: the same operations with operand b an immediate, sign-extended from 35
bits, or the extension word, which makes the instruction 16 bytes long. -/
def Obligations.ScalarIntegerResults : Prop :=
  (∀ (g : Issue) (sd sa sb : SReg),
      scalarResult (.add g sd sa sb) 8 sd (fun sl => (sl.s sa + sl.s sb, 0#8)) ∧
      scalarResult (.sub g sd sa sb) 8 sd (fun sl => (sl.s sa - sl.s sb, 0#8)) ∧
      scalarResult (.and g sd sa sb) 8 sd (fun sl => (sl.s sa &&& sl.s sb, 0#8)) ∧
      scalarResult (.or g sd sa sb) 8 sd (fun sl => (sl.s sa ||| sl.s sb, 0#8)) ∧
      scalarResult (.xor g sd sa sb) 8 sd (fun sl => (sl.s sa ^^^ sl.s sb, 0#8)) ∧
      scalarResult (.shl g sd sa sb) 8 sd (fun sl => (BitVec.ofNat 64 ((sl.s sa).toNat * 2 ^ ((sl.s sb).toNat % 64)), 0#8)) ∧
      scalarResult (.shr g sd sa sb) 8 sd (fun sl => (BitVec.ofNat 64 ((sl.s sa).toNat / 2 ^ ((sl.s sb).toNat % 64)), 0#8)) ∧
      scalarResult (.sra g sd sa sb) 8 sd (fun sl => (BitVec.ofInt 64 ((sl.s sa).toInt / 2 ^ ((sl.s sb).toNat % 64)), 0#8)) ∧
      scalarResult (.mul g sd sa sb) 8 sd (fun sl => (BitVec.ofNat 64 ((sl.s sa).toNat * (sl.s sb).toNat), 0#8)) ∧
      scalarResult (.mulhu g sd sa sb) 8 sd (fun sl => (BitVec.ofNat 64 ((sl.s sa).toNat * (sl.s sb).toNat / 2 ^ 64), 0#8)) ∧
      scalarResult (.min g sd sa sb) 8 sd (fun sl => (BitVec.ofInt 64 (min (sl.s sa).toInt (sl.s sb).toInt), 0#8)) ∧
      scalarResult (.max g sd sa sb) 8 sd (fun sl => (BitVec.ofInt 64 (max (sl.s sa).toInt (sl.s sb).toInt), 0#8)) ∧
      scalarResult (.minu g sd sa sb) 8 sd (fun sl => (BitVec.ofNat 64 (min (sl.s sa).toNat (sl.s sb).toNat), 0#8)) ∧
      scalarResult (.maxu g sd sa sb) 8 sd (fun sl => (BitVec.ofNat 64 (max (sl.s sa).toNat (sl.s sb).toNat), 0#8))) ∧
  (∀ (g : Issue) (sd sa : SReg) (b : ImmB) (v : Word),
      (match b with
        | .imm m => v = BitVec.ofInt 64 m.toInt
        | .ext x => v = x) →
      scalarResult (.addImm g sd sa b) (immBytes b) sd (fun sl => (sl.s sa + v, 0#8)) ∧
      scalarResult (.subImm g sd sa b) (immBytes b) sd (fun sl => (sl.s sa - v, 0#8)) ∧
      scalarResult (.andImm g sd sa b) (immBytes b) sd (fun sl => (sl.s sa &&& v, 0#8)) ∧
      scalarResult (.orImm g sd sa b) (immBytes b) sd (fun sl => (sl.s sa ||| v, 0#8)) ∧
      scalarResult (.xorImm g sd sa b) (immBytes b) sd (fun sl => (sl.s sa ^^^ v, 0#8)) ∧
      scalarResult (.shlImm g sd sa b) (immBytes b) sd (fun sl => (BitVec.ofNat 64 ((sl.s sa).toNat * 2 ^ (v.toNat % 64)), 0#8)) ∧
      scalarResult (.shrImm g sd sa b) (immBytes b) sd (fun sl => (BitVec.ofNat 64 ((sl.s sa).toNat / 2 ^ (v.toNat % 64)), 0#8)) ∧
      scalarResult (.sraImm g sd sa b) (immBytes b) sd (fun sl => (BitVec.ofInt 64 ((sl.s sa).toInt / 2 ^ (v.toNat % 64)), 0#8)) ∧
      scalarResult (.mulImm g sd sa b) (immBytes b) sd (fun sl => (BitVec.ofNat 64 ((sl.s sa).toNat * v.toNat), 0#8)) ∧
      scalarResult (.mulhuImm g sd sa b) (immBytes b) sd (fun sl => (BitVec.ofNat 64 ((sl.s sa).toNat * v.toNat / 2 ^ 64), 0#8)) ∧
      scalarResult (.minImm g sd sa b) (immBytes b) sd (fun sl => (BitVec.ofInt 64 (min (sl.s sa).toInt v.toInt), 0#8)) ∧
      scalarResult (.maxImm g sd sa b) (immBytes b) sd (fun sl => (BitVec.ofInt 64 (max (sl.s sa).toInt v.toInt), 0#8)) ∧
      scalarResult (.minuImm g sd sa b) (immBytes b) sd (fun sl => (BitVec.ofNat 64 (min (sl.s sa).toNat v.toNat), 0#8)) ∧
      scalarResult (.maxuImm g sd sa b) (immBytes b) sd (fun sl => (BitVec.ofNat 64 (max (sl.s sa).toNat v.toNat), 0#8)))

/-- R215, R59, R60, R70: the FP32 operations read bits [31:0] of their operands as FP32, and write the value, rounded once to FP32,
to bits [31:0] of SD with bits [63:32] zero; a NaN operand or an invalid operation sets INVALID, and the rounding sets its own
flags. FMIN and FMAX give NaN where an operand is NaN, and rank −0 below +0. I2F takes a as a signed 64-bit number; F2I rounds to
nearest even and saturates, a NaN giving the code 0x8000_0000_0000_0000. In the register and the immediate class. -/
def Obligations.ScalarFloatResults : Prop :=
  (∀ (g : Issue) (sd sa sb : SReg),
    scalarResult (.fadd g sd sa sb) 8 sd
      (fun sl => let x := ofFp32 ((sl.s sa).toNat % 2 ^ 32); let y := ofFp32 ((sl.s sb).toNat % 2 ^ 32); fp32Result [x, y] (x.add y)) ∧
    scalarResult (.fsub g sd sa sb) 8 sd
      (fun sl => let x := ofFp32 ((sl.s sa).toNat % 2 ^ 32); let y := ofFp32 ((sl.s sb).toNat % 2 ^ 32); fp32Result [x, y] (x.sub y)) ∧
    scalarResult (.fmul g sd sa sb) 8 sd
      (fun sl => let x := ofFp32 ((sl.s sa).toNat % 2 ^ 32); let y := ofFp32 ((sl.s sb).toNat % 2 ^ 32); fp32Result [x, y] (x.mul y)) ∧
    scalarResult (.fmin g sd sa sb) 8 sd
      (fun sl => let x := ofFp32 ((sl.s sa).toNat % 2 ^ 32); let y := ofFp32 ((sl.s sb).toNat % 2 ^ 32); fp32Result [x, y] (if x.isNan || y.isNan then .nan else if y.rankLt x then y else x)) ∧
    scalarResult (.fmax g sd sa sb) 8 sd
      (fun sl => let x := ofFp32 ((sl.s sa).toNat % 2 ^ 32); let y := ofFp32 ((sl.s sb).toNat % 2 ^ 32); fp32Result [x, y] (if x.isNan || y.isNan then .nan else if x.rankLt y then y else x)) ∧
    scalarResult (.i2f g sd sa sb) 8 sd
      (fun sl => fp32Result [] (Val.ofInt (sl.s sa).toInt)) ∧
    scalarResult (.f2i g sd sa sb) 8 sd
      (fun sl => let x := ofFp32 ((sl.s sa).toNat % 2 ^ 32); (BitVec.ofNat 64 (writeInt 64 x).1, (writeInt 64 x).2 ||| (if x.isNan then flInvalid else 0#8)))) ∧
  (∀ (g : Issue) (sd sa : SReg) (b : ImmB) (v : Word),
    (match b with
      | .imm m => v = BitVec.ofInt 64 m.toInt
      | .ext x => v = x) →
    scalarResult (.faddImm g sd sa b) (immBytes b) sd
      (fun sl => let x := ofFp32 ((sl.s sa).toNat % 2 ^ 32); let y := ofFp32 (v.toNat % 2 ^ 32); fp32Result [x, y] (x.add y)) ∧
    scalarResult (.fsubImm g sd sa b) (immBytes b) sd
      (fun sl => let x := ofFp32 ((sl.s sa).toNat % 2 ^ 32); let y := ofFp32 (v.toNat % 2 ^ 32); fp32Result [x, y] (x.sub y)) ∧
    scalarResult (.fmulImm g sd sa b) (immBytes b) sd
      (fun sl => let x := ofFp32 ((sl.s sa).toNat % 2 ^ 32); let y := ofFp32 (v.toNat % 2 ^ 32); fp32Result [x, y] (x.mul y)) ∧
    scalarResult (.fminImm g sd sa b) (immBytes b) sd
      (fun sl => let x := ofFp32 ((sl.s sa).toNat % 2 ^ 32); let y := ofFp32 (v.toNat % 2 ^ 32); fp32Result [x, y] (if x.isNan || y.isNan then .nan else if y.rankLt x then y else x)) ∧
    scalarResult (.fmaxImm g sd sa b) (immBytes b) sd
      (fun sl => let x := ofFp32 ((sl.s sa).toNat % 2 ^ 32); let y := ofFp32 (v.toNat % 2 ^ 32); fp32Result [x, y] (if x.isNan || y.isNan then .nan else if x.rankLt y then y else x)) ∧
    scalarResult (.i2fImm g sd sa b) (immBytes b) sd
      (fun sl => fp32Result [] (Val.ofInt (sl.s sa).toInt)) ∧
    scalarResult (.f2iImm g sd sa b) (immBytes b) sd
      (fun sl => let x := ofFp32 ((sl.s sa).toNat % 2 ^ 32); (BitVec.ofNat 64 (writeInt 64 x).1, (writeInt 64 x).2 ||| (if x.isNan then flInvalid else 0#8))))

/-- R215, MAJOR 0x03 and 0x04: each compare writes PD with its relation of s[SA] and operand b, which is s[SB] or an immediate
sign-extended from 31 bits; an F compare has a register operand, treats −0 as +0, gives false for a NaN (FNE true) and sets INVALID
then. The predicate operations write PD. Nothing else changes but the program counter and the place in issue order; p0 stays true. -/
def Obligations.CompareAndPredicateResults : Prop :=
  (∀ (g : Issue) (pd : PReg) (sa : SReg) (op : CmpB) (val : Slot → Word),
    (match op with
      | .reg r => val = fun sl => sl.s r
      | .imm m => val = fun _ => BitVec.ofInt 64 m.toInt) →
    predicateResult (.eq g pd sa op) pd (fun sl => let a := sl.s sa; let b := val sl; (decide (a = b), 0#8)) ∧
    predicateResult (.ne g pd sa op) pd (fun sl => let a := sl.s sa; let b := val sl; (decide (a ≠ b), 0#8)) ∧
    predicateResult (.lt g pd sa op) pd (fun sl => let a := sl.s sa; let b := val sl; (decide (a.toInt < b.toInt), 0#8)) ∧
    predicateResult (.le g pd sa op) pd (fun sl => let a := sl.s sa; let b := val sl; (decide (a.toInt ≤ b.toInt), 0#8)) ∧
    predicateResult (.ltu g pd sa op) pd (fun sl => let a := sl.s sa; let b := val sl; (decide (a.toNat < b.toNat), 0#8)) ∧
    predicateResult (.leu g pd sa op) pd (fun sl => let a := sl.s sa; let b := val sl; (decide (a.toNat ≤ b.toNat), 0#8))) ∧
  (∀ (g : Issue) (pd : PReg) (sa sb : SReg),
    predicateResult (.feq g pd sa (.reg sb)) pd
      (fun sl => let x := ofFp32 ((sl.s sa).toNat % 2 ^ 32); let y := ofFp32 ((sl.s sb).toNat % 2 ^ 32); (x.eq y, if x.isNan || y.isNan then flInvalid else 0#8)) ∧
    predicateResult (.fne g pd sa (.reg sb)) pd
      (fun sl => let x := ofFp32 ((sl.s sa).toNat % 2 ^ 32); let y := ofFp32 ((sl.s sb).toNat % 2 ^ 32); (!x.eq y, if x.isNan || y.isNan then flInvalid else 0#8)) ∧
    predicateResult (.flt g pd sa (.reg sb)) pd
      (fun sl => let x := ofFp32 ((sl.s sa).toNat % 2 ^ 32); let y := ofFp32 ((sl.s sb).toNat % 2 ^ 32); (x.lt y, if x.isNan || y.isNan then flInvalid else 0#8)) ∧
    predicateResult (.fle g pd sa (.reg sb)) pd
      (fun sl => let x := ofFp32 ((sl.s sa).toNat % 2 ^ 32); let y := ofFp32 ((sl.s sb).toNat % 2 ^ 32); (x.le y, if x.isNan || y.isNan then flInvalid else 0#8))) ∧
  (∀ (g : Issue) (pd pa pb : PReg),
    predicateResult (.pand g pd pa pb) pd (fun sl => (sl.p pa && sl.p pb, 0#8)) ∧
    predicateResult (.por g pd pa pb) pd (fun sl => (sl.p pa || sl.p pb, 0#8)) ∧
    predicateResult (.pxor g pd pa pb) pd (fun sl => (sl.p pa != sl.p pb, 0#8)) ∧
    predicateResult (.pandn g pd pa pb) pd (fun sl => (sl.p pa && !sl.p pb, 0#8)))

/-- R216, R218: NOP only passes; BR goes on at its own address plus 8 × OFF, OFF signed, and JR at s[SA], both modulo 2^64; a taken
branch writes the address of the next instruction to its link register, and SL = 0 links nothing. The target of JR is s[SA] as it
was before the link. Nothing else changes but the place in issue order. -/
def Obligations.ControlFlowResults : Prop :=
  ∀ (g : Issue) (s s0 : State) (c k : Nat) (sl : Slot),
    (s.canIssue (.nop g) s0 c k sl → ∃ t, exec (.nop g) s = .next t ∧
      t.sameBut s0 c k { sl with pc := (sl.pc + 8) % 2 ^ 64, seq := sl.seq + 1 }) ∧
    (∀ (l : SReg) (off : BitVec 32), s.canIssue (.br g l off) s0 c k sl → ∃ t sl', exec (.br g l off) s = .next t ∧
      t.sameBut s0 c k sl' ∧
      sl' = { sl with pc := (((sl.pc : Int) + 8 * off.toInt) % 2 ^ 64).toNat, seq := sl.seq + 1, sregs := sl'.sregs } ∧
      ∀ q : SReg, sl'.s q = if q.val = 0 then 0#64 else if q = l then BitVec.ofNat 64 (sl.pc + 8) else sl.s q) ∧
    (∀ l sa : SReg, s.canIssue (.jr g l sa) s0 c k sl → ∃ t sl', exec (.jr g l sa) s = .next t ∧
      t.sameBut s0 c k sl' ∧
      sl' = { sl with pc := (sl.s sa).toNat, seq := sl.seq + 1, sregs := sl'.sregs } ∧
      ∀ q : SReg, sl'.s q = if q.val = 0 then 0#64 else if q = l then BitVec.ofNat 64 (sl.pc + 8) else sl.s q)

/-- R214, R239: an instruction of any class whose words are fetched and decoded, whose operands are legal, and whose guard p[PRED]
XOR PN is false, is not sent to its unit and has no effect: the context's program counter passes it, and nothing else changes.
R213, R236, R240, R99: an operand that is illegal in its context (a field value that the encoding chapter marks illegal, or an
instruction or field value above the command's declared level) raises the illegal-instruction exception, status 0x10, though the
guard may be false. The stop names the operand, MAJOR and MINOR, and leaves no effect. R211, R213, R240: a word with an undefined
MAJOR or MINOR, a forbidden or missing extension word, a reserved bit that is set, or a field that the layouts mark unused for the instruction
and not zero, has no decoding; its issue raises the illegal-instruction exception, status 0x10, with the number of the operand, 0
for the word as a whole, and MAJOR and MINOR as the word has them. R84, R216: a fetch at an address outside the command's code, or
that is not a multiple of 8, raises the fetch-range exception, status 0x11, operand number 0, at the address of the fetch; nothing
else changes. -/
def Obligations.FetchDecodeAndGuard : Prop :=
  (∀ (i : Instr) (g : Issue) (s s0 : State) (c k w x : Nat) (sl : Slot), issueOf i = some g → s.fetched i s0 c k sl w x →
      (illegalOperand sl i = none → (sl.p g.pred ^^ g.pn) = false → ∃ t, exec i s = .next t ∧
        t.sameBut s0 c k { sl with pc := (sl.pc + lengthOf i) % 2 ^ 64, seq := sl.seq + 1 }) ∧
      (∀ n, illegalOperand sl i = some n → s0.slot c k = some sl → sl.stop = none → sl.wait = none →
        ∃ t, exec i s = .next t ∧ stopsAtIssue s0 t c k sl 0x10 n (w % 64) (w / 2 ^ 11 % 256))) ∧
  (∀ (i : Instr) (g : Issue) (s s0 : State) (k w x n : Nat) (sl : Slot),
      issueOf i = some g → s.issueHalted = false → s.coreUsable g.core.val = true → s.issuing g.core.val = some k →
      s.slot g.core.val k = some sl → sl.stop = none → sl.wait = none →
      (s.fetchInstr g.core.val k sl = .word s0 w x → illegalWord w x = some n → s0.slot g.core.val k = some sl →
        decodeWord g.core w x = none ∧
        ∃ t, exec i s = .next t ∧ stopsAtIssue s0 t g.core.val k sl 0x10 n (w % 64) (w / 2 ^ 11 % 256)) ∧
      ((sl.pc < sl.codeLo ∨ sl.codeHi < sl.pc + 8 ∨ sl.pc % 8 ≠ 0) →
        ∃ t, exec i s = .next t ∧ stopsAtIssue s t g.core.val k sl 0x11 0 0 0))

/-- R85, R218, R219: END leaves the slot with nothing more to issue, once its processor-path accesses have ended; FENCE, once the
conditions that MASK names hold, only passes (and neither of them where a posted addition has failed: R217 stops those). SRD
writes SD with the system register: EPOCH, FLAGS (once the instructions that can set a flag have finished), queue, core, chip ID,
slot, the Cadence count, and the level with SPL_COMPAT in bit 8; CYCLES gives a free value and advances nothing but the model's
own counter of free values (log entry 9). -/
def Obligations.SystemClassResults : Prop :=
  ∀ (g : Issue) (s s0 : State) (c k : Nat) (sl : Slot),
    (s.canIssue (.endCmd g) s0 c k sl → sl.waits = [] → sl.atomFail = none → ∃ t, exec (.endCmd g) s = .next t ∧
      t.sameBut s0 c k { sl with pc := (sl.pc + 8) % 2 ^ 64, seq := sl.seq + 1, phase := .ended }) ∧
    (∀ mask, s.canIssue (.fence g mask) s0 c k sl → s0.fenced c k mask = true → (mask.getLsbD 0 = true → sl.atomFail = none) →
      ∃ t, exec (.fence g mask) s = .next t ∧ t.sameBut s0 c k { sl with pc := (sl.pc + 8) % 2 ^ 64, seq := sl.seq + 1 }) ∧
    (∀ (sd : SReg) (n : BitVec 12) (v : Nat), s.canIssue (.srd g sd n) s0 c k sl →
      ((n = 0 ∧ v = sl.epoch) ∨ (n = 1 ∧ v = sl.aflags.toNat ∧ s0.fenced c k 0b11010#5 = true) ∨ (n = 2 ∧ v = sl.queue) ∨
        (n = 3 ∧ v = c) ∨ (n = 4 ∧ v = s0.get F.glbChipId_id) ∨ (n = 5 ∧ v = k) ∨ (n = 7 ∧ v = s0.get F.cadCount_count) ∨
        (n = 8 ∧ v = sl.level + (if sl.compat then 256 else 0))) →
      ∃ t, exec (.srd g sd n) s = .next t ∧ setsScalar s0 t c k sl 8 sd (BitVec.ofNat 64 v) 0#8) ∧
    (∀ sd : SReg, s.canIssue (.srd g sd 6) s0 c k sl →
      ∃ t v, exec (.srd g sd 6) s = .next t ∧ setsScalar { s0 with free := s0.free + 1 } t c k sl 8 sd v 0#8)

/-- R90, R92, R93, R95, R235: SEMSIG adds n to a semaphore that no one waits on (R94 governs an overflow); SEMWAIT of 0 passes at
once; SEMWAIT of n, where the value is at least n and no wait stands before it, takes n from the value and passes; otherwise the
command parks behind the waits that were issued before, its queue PARKED. EVSET sets a flag that no one waits on; EVWAIT of a set
flag that no one waits on clears it and passes, otherwise it parks; TWAIT passes once the Cadence count has been reached,
otherwise it parks. -/
def Obligations.SyncClassResults : Prop :=
  ∀ (g : Issue) (s s0 : State) (c k : Nat) (sl : Slot) (n : SyncN) (v : Nat), v = SyncN.value sl n →
    (∀ sem, s.canIssue (.semsig g sem n) s0 c k sl → tget [] (s0.core c).semQ sem.val = [] →
      s0.get F.semValue_value [c, sem.val] + v < 2 ^ 32 →
      ∃ t, exec (.semsig g sem n) s = .next t ∧ passes s0 t c k sl ∧
        t.get F.semValue_value [c, sem.val] = s0.get F.semValue_value [c, sem.val] + v ∧
        ∀ f i, regAddr f.kind i ≠ regAddr .semValue [c, sem.val] → t.get f i = s0.get f i) ∧
    (∀ sem, s.canIssue (.semwait g sem n) s0 c k sl →
      (v = 0 → ∃ t, exec (.semwait g sem n) s = .next t ∧ t.sameBut s0 c k { sl with pc := (sl.pc + 8) % 2 ^ 64, seq := sl.seq + 1 }) ∧
      (tget [] (s0.core c).semQ sem.val = [] → v ≤ s0.get F.semValue_value [c, sem.val] →
        ∃ t, exec (.semwait g sem n) s = .next t ∧ passes s0 t c k sl ∧
          t.get F.semValue_value [c, sem.val] = s0.get F.semValue_value [c, sem.val] - v) ∧
      (v ≠ 0 → (tget [] (s0.core c).semQ sem.val ≠ [] ∨ s0.get F.semValue_value [c, sem.val] < v) →
        ∃ t, exec (.semwait g sem n) s = .next t ∧ parks s0 t c k sl (.sem sem.val v) ∧
          tget [] (t.core c).semQ sem.val = tget [] (s0.core c).semQ sem.val ++ [k] ∧
          t.get F.semValue_value [c, sem.val] = s0.get F.semValue_value [c, sem.val])) ∧
    (∀ ev, s.canIssue (.evset g ev) s0 c k sl → tget [] (s0.core c).evQ ev.val = [] →
      ∃ t, exec (.evset g ev) s = .next t ∧ passes s0 t c k sl ∧ ∀ j < 64, t.event c j = (decide (j = ev.val) || s0.event c j)) ∧
    (∀ ev, s.canIssue (.evwait g ev) s0 c k sl →
      (tget [] (s0.core c).evQ ev.val = [] → s0.event c ev.val = true →
        ∃ t, exec (.evwait g ev) s = .next t ∧ passes s0 t c k sl ∧ ∀ j < 64, t.event c j = (decide (j ≠ ev.val) && s0.event c j)) ∧
      ((tget [] (s0.core c).evQ ev.val ≠ [] ∨ s0.event c ev.val = false) →
        ∃ t, exec (.evwait g ev) s = .next t ∧ parks s0 t c k sl (.ev ev.val) ∧
          tget [] (t.core c).evQ ev.val = tget [] (s0.core c).evQ ev.val ++ [k])) ∧
    (∀ sa : SReg, s.canIssue (.twait g sa) s0 c k sl →
      ((sl.s sa).toNat ≤ s0.get F.cadCount_count → ∃ t, exec (.twait g sa) s = .next t ∧
        t.sameBut s0 c k { sl with pc := (sl.pc + 8) % 2 ^ 64, seq := sl.seq + 1 }) ∧
      (s0.get F.cadCount_count < (sl.s sa).toNat →
        ∃ t, exec (.twait g sa) s = .next t ∧ parks s0 t c k sl (.tick (sl.s sa).toNat)))

/-- R217, R238, R244: the address is s[SA] plus OFF sign-extended from 35 bits, modulo 2^64. Where it is a multiple of the size,
the banks it touches are the processor's, and the access is answered (`access` performs it), a load leaves SR with the bytes read,
least significant first, zero-extended, or sign-extended for LDS; a store writes the low bytes of s[SR]. What the change releases
then goes on (`kickAll`). A load or store at a peer chip that has a route leaves as a request, and waits. R28, R45, R249: an
aligned access of up to 64 bytes to a scratchpad byte range that its core serves: a read without bad parity gives the bytes
stored, least significant address first, and changes nothing; a write stores its bytes there, and every byte of the part's storage
at any other address reads as before, registers and all else included. -/
def Obligations.LoadsAndStores : Prop :=
  (∀ (g : Issue) (sr sa : SReg) (off : BitVec 35) (s s0 s2 : State) (c k : Nat) (sl : Slot) (bs : List Byte) (a : Nat),
      a = (sl.s sa + BitVec.ofInt 64 off.toInt).toNat →
      (∀ (i : Instr) (n : Nat) (signed : Bool),
        (i, n, signed) ∈ [(.ld8 g sr sa off, 1, false), (.ld16 g sr sa off, 2, false), (.ld32 g sr sa off, 4, false),
          (.ld64 g sr sa off, 8, false), (.lds8 g sr sa off, 1, true), (.lds16 g sr sa off, 2, true), (.lds32 g sr sa off, 4, true)] →
        s.canIssue i s0 c k sl → a % n = 0 → s0.bankCheck c [(a, n)] = .go →
        ((∀ p, s0.target a ≠ .peer p) →
          (s0.setSlot c k (some (sl.past 8))).access (mCore c) sl.tc a (.rd n) = (s2, .ok bs) →
          exec i s = .next (s2.modSlot c (slotNo k).val (fun x => x.setS sr
            (if signed then BitVec.ofInt 64 (toSigned (8 * bs.length) (leOf bs)) else BitVec.ofNat 64 (leOf bs)))).kickAll) ∧
        (∀ p, s0.target a = .peer p →
          (s0.setSlot c k (some (sl.past 8))).sendRequest 1 a n (c / 16) sl.tc (mCore c) [] (.core c (slotNo k).val sl.seq) 0 0 0 =
            (s2, true) →
          exec i s = .next (s2.awaits c { slot := slotNo k, seq := sl.seq, pc := sl.pc, instr := i }).kickAll)) ∧
      (∀ (i : Instr) (n : Nat),
        (i, n) ∈ [(.st8 g sr sa off, 1), (.st16 g sr sa off, 2), (.st32 g sr sa off, 4), (.st64 g sr sa off, 8)] →
        s.canIssue i s0 c k sl → a % n = 0 → s0.bankCheck c [(a, n)] = .go →
        ((∀ p, s0.target a ≠ .peer p) →
          (s0.setSlot c k (some (sl.past 8))).access (mCore c) sl.tc a (.wr (leBytes n (sl.s sr).toNat)) = (s2, .ok bs) →
          exec i s = .next s2.kickAll) ∧
        (∀ p, s0.target a = .peer p →
          (s0.setSlot c k (some (sl.past 8))).sendRequest 2 a n (c / 16) sl.tc (mCore c) (leBytes n (sl.s sr).toNat)
            (.core c (slotNo k).val sl.seq) 0 0 0 = (s2, true) →
          exec i s = .next (s2.awaits c { slot := slotNo k, seq := sl.seq, pc := sl.pc, instr := i }).kickAll))) ∧
  (∀ (s : State) (m tc a n c o : Nat) (bs : List Byte), (n = 1 ∨ n = 2 ∨ n = 4 ∨ n = 8 ∨ n = 64) → a % n = 0 → a < 2 ^ 64 →
      bs.length = n → s.target a = .spad c o → s.targetStatus m (.spad c o) n = 0 → s.held m (.spad c o) n = false →
      (s.parityHit [(spadBase + c * 2 ^ 24 + o, n)] = none →
        s.access m tc a (.rd n) = (s, .ok ((List.range n).map (fun i => s.peek (spadBase + c * 2 ^ 24 + o + i))))) ∧
      ∃ t, s.access m tc a (.wr bs) = (t, .ok []) ∧
        (∀ i, i < n → t.peek (spadBase + c * 2 ^ 24 + o + i) = bs.getD i 0#8) ∧
        (∀ l, l < spadBase + c * 2 ^ 24 + o ∨ spadBase + c * 2 ^ 24 + o + n ≤ l → t.peek l = s.peek l) ∧
        t = { s with mem := t.mem, badParity := t.badParity })

/-- R217, R220, R235, R240: a load, store, TDLD, TDST or SEMSIGR whose address is not a multiple of its size raises the
operand-shape exception, status 0x14, with the operand number of SA: 2, and 4 for SEMSIGR; it has no effect. -/
def Obligations.MisalignedAccessStops : Prop :=
  ∀ (g : Issue) (sr sa : SReg) (td : TReg) (nn : SyncN) (off : BitVec 35) (off' : BitVec 34) (s s0 : State) (c k : Nat)
    (sl : Slot) (i : Instr) (a n operand major minor : Nat), s.canIssue i s0 c k sl → s0.slot c k = some sl → sl.stop = none → sl.wait = none →
    ((i, n, minor) ∈ [(.ld16 g sr sa off, 2, 1), (.ld32 g sr sa off, 4, 2), (.ld64 g sr sa off, 8, 3), (.lds16 g sr sa off, 2, 5),
        (.lds32 g sr sa off, 4, 6), (.st16 g sr sa off, 2, 9), (.st32 g sr sa off, 4, 10), (.st64 g sr sa off, 8, 11)] ∧
      a = (sl.s sa + BitVec.ofInt 64 off.toInt).toNat ∧ operand = 2 ∧ major = 0x0C ∨
     (i = .tdld g td sa off' ∧ minor = 0 ∨ i = .tdst g td sa off' ∧ (sl.image td).isSome ∧ minor = 1) ∧
      a = (sl.s sa + BitVec.ofInt 64 off'.toInt).toNat ∧ n = 64 ∧ operand = 2 ∧ major = 0x10 ∨
     i = .semsigr g nn sa ∧ a = (sl.s sa).toNat ∧ n = 8 ∧ operand = 4 ∧ major = 0x30 ∧ minor = 1) →
    a % n ≠ 0 → ∃ t, exec i s = .next t ∧ stopsAtIssue s0 t c k sl 0x14 operand major minor

/-- R220, R225, R240: TDSET replaces image word DW of a valid TD with s[SA], where the result is a valid descriptor; TDCP copies a
valid TS; TDINV leaves TD invalid. Every other descriptor and all else of the context stays. An invalid source, or a result that
is no valid descriptor, raises the descriptor exception, status 0x12, and leaves TD. R220, R235: TDLD reads the 64 bytes at s[SA]
+ OFF, OFF sign-extended from 34 bits: a valid descriptor image becomes TD. TDST writes the 64 bytes of a valid TD's image there.
SEMSIGR at the SEM_SIGNAL register of a semaphore on a core of its own die signals n to it (R92); at an address of this chip that
is no such register it writes n as 4 bytes. What the change releases then goes on. -/
def Obligations.DescriptorsAndSignals : Prop :=
  (∀ (g : Issue) (td ts : TReg) (dw : Fin 8) (sa : SReg) (s s0 : State) (c k : Nat) (sl : Slot),
      (s.canIssue (.tdset g td dw sa) s0 c k sl → ∀ im im' : Image, sl.image td = some im →
        (∀ j < 8, bits im'.toNat (64 * j) 64 = if j = dw.val then (sl.s sa).toNat else bits im.toNat (64 * j) 64) →
        (descValid im' = true → ∃ t, exec (.tdset g td dw sa) s = .next t ∧ setsImage s0 t c k sl td (some im')) ∧
        (descValid im' = false → s0.slot c k = some sl → sl.stop = none → sl.wait = none →
          ∃ t, exec (.tdset g td dw sa) s = .next t ∧ stopsAtIssue s0 t c k sl 0x12 1 0x10 2)) ∧
      (s.canIssue (.tdcp g td ts) s0 c k sl →
        (∀ im, sl.image ts = some im → descValid im = true →
          ∃ t, exec (.tdcp g td ts) s = .next t ∧ setsImage s0 t c k sl td (some im)) ∧
        (sl.image ts = none → s0.slot c k = some sl → sl.stop = none → sl.wait = none →
          ∃ t, exec (.tdcp g td ts) s = .next t ∧ stopsAtIssue s0 t c k sl 0x12 2 0x10 3)) ∧
      (s.canIssue (.tdinv g td) s0 c k sl → ∃ t, exec (.tdinv g td) s = .next t ∧ setsImage s0 t c k sl td none)) ∧
  (∀ (g : Issue) (td : TReg) (sa : SReg) (n : SyncN) (off : BitVec 34) (s s0 s2 : State) (c k : Nat) (sl : Slot) (bs : List Byte)
      (a : Nat), let s1 := s0.setSlot c k (some (sl.past 8))
      (s.canIssue (.tdld g td sa off) s0 c k sl → a = (sl.s sa + BitVec.ofInt 64 off.toInt).toNat → a % 64 = 0 →
        s0.bankCheck c [(a, 64)] = .go → (∀ p, s0.target a ≠ .peer p) → s1.access (mCore c) sl.tc a (.rd 64) = (s2, .ok bs) →
        descValid (BitVec.ofNat 512 (leOf bs)) = true →
        exec (.tdld g td sa off) s =
          .next (s2.modSlot c (slotNo k).val (fun x => { x with tds := tset 0#512 x.tds td.val (BitVec.ofNat 512 (leOf bs)) })).kickAll) ∧
      (s.canIssue (.tdst g td sa off) s0 c k sl → ∀ im, sl.image td = some im →
        a = (sl.s sa + BitVec.ofInt 64 off.toInt).toNat → a % 64 = 0 → s0.bankCheck c [(a, 64)] = .go →
        (∀ p, s0.target a ≠ .peer p) → s1.access (mCore c) sl.tc a (.wr (leBytes 64 im.toNat)) = (s2, .ok bs) →
        exec (.tdst g td sa off) s = .next s2.kickAll) ∧
      (s.canIssue (.semsigr g n sa) s0 c k sl → a = (sl.s sa).toNat → a % 8 = 0 → s0.bankCheck c [(a, 4)] = .go →
        (∀ (o d i : Nat), s0.target a = .reg o → semAt o = some (d, i) → d / 16 = masterDie (mCore c) →
          s0.regServed (mCore c) o = true → exec (.semsigr g n sa) s = .next (s1.signal d i (SyncN.value sl n)).kickAll) ∧
        ((∀ p, s0.target a ≠ .peer p) → (∀ o, s0.target a = .reg o → semAt o = none) →
          s1.access (mCore c) sl.tc a (.wr (leBytes 4 (SyncN.value sl n))) = (s2, .ok bs) →
          exec (.semsigr g n sa) s = .next s2.kickAll)))

/-- R217, R271: an ATADD whose address is a multiple of its operand's size, in a slice of this chip whose channel serves it, leaves
as a request at the end of its channel's adder queue with its operation code and the operand of s[SR] (with s[SR+1] above it for
ATADD.WSF), and its context waits for it at an END or FENCE. No storage changes, and no register but the state of its class at its die's regulator (R294). One in no slice raises the
operand-shape exception with the operand number of SA. -/
def Obligations.PostedAdditions : Prop :=
  ∀ (g : Issue) (sr sa : SReg) (off : BitVec 35) (s s0 : State) (c k : Nat) (sl : Slot) (i : Instr) (op n v minor a : Nat),
    (i, op, n, v, minor) ∈ [(.ataddI32 g sr sa off, 0, 4, (sl.s sr).toNat % 2 ^ 32, 0x10), (.ataddI64 g sr sa off, 1, 8, (sl.s sr).toNat, 0x11),
      (.ataddF32 g sr sa off, 2, 4, (sl.s sr).toNat % 2 ^ 32, 0x12), (.ataddBf16 g sr sa off, 3, 2, (sl.s sr).toNat % 2 ^ 16, 0x13),
      (.ataddWsf g sr sa off, 4, 16, (sl.s sr).toNat + 2 ^ 64 * (sl.s (sr + 1)).toNat, 0x14)] →
    s.canIssue i s0 c k sl → a = (sl.s sa + BitVec.ofInt 64 off.toInt).toNat →
    (∀ d ch o, s0.target a = .slice d ch o → a % n = 0 → s0.targetStatus (mCore c) (.slice d ch o) (addSize op) = 0 →
      addInvalid op a v 0 0 = false →
      ∃ t, exec i s = .next t ∧
        t.chan d ch = { s0.chan d ch with adder := (s0.chan d ch).adder ++
          [{ op := op, off := o, operand := v, tag := 0, tagOff := 0, master := mCore c, tc := sl.tc
             who := .core c (slotNo k).val sl.seq }] } ∧
        t = { s0 with cores := t.cores, chans := t.chans, regs := t.regs } ∧
        (∀ r j, regAddr r j ≠ regAddr .netTcState [masterDie (mCore c), sl.tc] → t.reg r j = s0.reg r j) ∧
        (k < 4 → t.slot c k = some { sl with
          pc := (sl.pc + 8) % 2 ^ 64, seq := sl.seq + 1
          waits := sl.waits ++ [{ slot := slotNo k, seq := sl.seq, pc := sl.pc, instr := i }] })) ∧
    ((a % n ≠ 0 ∨ (sliceOf a).isNone) → s0.slot c k = some sl → sl.stop = none → sl.wait = none →
      ∃ t, exec i s = .next t ∧ stopsAtIssue s0 t c k sl 0x14 2 0x0C minor)

/-- R79, R212: an instruction of a unit class (DMAQ; MMA, MACC, MZERO, MCVT; the vector, spline and row statistics classes; the
attention steps, AFIN and AMRG; NBMODE, NBSEQ, NBLOAD, NBRUN; KVOPEN, KVAPP, KVSEAL, KVFREE; CFORM, CRUN, CLEAVE), wherever it
issues, goes to the end of its unit's issue queue with its slot, its place in issue order and its address, its context goes on to
the next instruction, and every instruction that can then leave its queue does so (`kickAll`). -/
def Obligations.UnitInstructionsQueue : Prop :=
  ∀ (i : Instr) (u : UnitId) (s s0 : State) (c k : Nat) (sl : Slot), unitOf i = some u → s.canIssue i s0 c k sl →
    ∃ (q : State) (e : UEntry), exec i s = .next q.kickAll ∧
      e.slot.val = k % 4 ∧ e.seq = sl.seq ∧ e.pc = sl.pc ∧ e.instr = i ∧
      (q.core c).queue u = (s0.core c).queue u ++ [e] ∧
      q.slot c k = some { sl with pc := (sl.pc + lengthOf i) % 2 ^ 64, seq := sl.seq + 1 } ∧
      (∀ v, v ≠ u → (q.core c).queue v = (s0.core c).queue v) ∧ (∀ v, (q.core c).runs v = (s0.core c).runs v) ∧
      (∀ d, d ≠ c → q.core d = s0.core d) ∧ q = { s0 with cores := q.cores }

/-- R94: a signal, by SEM_SIGNAL (where the register is served) or by SEMSIG, that would carry the value above 0xFFFF_FFFF leaves the
value unchanged, increments SEM_OVERFLOW_COUNT (which saturates) and sets CORE_STATUS.SEM_OVF; no other register changes, nor any
storage. -/
def Obligations.SignalOverflowDiscarded : Prop :=
  ∀ (core : CoreId) (sem : Fin 256) (s : State),
    (∀ n : BitVec 32, s.regServed mHostIo (regAddr .semSignal [core.val, sem.val]) = true →
      2 ^ 32 ≤ s.get F.semValue_value [core.val, sem.val] + n.toNat →
      answers (exec (.semSignal core sem n) s) (fun t => overflowed s t core.val sem.val ∧ t = { s with regs := t.regs })) ∧
    (∀ (g : Issue) (n : SyncN) (s0 : State) (k : Nat) (sl : Slot), s.canIssue (.semsig g sem n) s0 core.val k sl →
      2 ^ 32 ≤ s0.get F.semValue_value [core.val, sem.val] + SyncN.value sl n →
      answers (exec (.semsig g sem n) s) (fun t => overflowed s0 t core.val sem.val ∧ passes s0 t core.val k sl))

/-- R92, R93, R105: a served write of n to SEM_SIGNAL adds n to the value; where the first command that waits on the semaphore asks
for no more than the new value, its wait is granted and takes its amount in the same operation, and a wait that asks for more
stays first and takes nothing. A served write of SEM_VALUE sets the value where no command waits. -/
def Obligations.SemaphoreWrites : Prop :=
  ∀ (core : CoreId) (sem : Fin 256) (n : BitVec 32) (s : State), let c := core.val; let i := sem.val
    let v := s.get F.semValue_value [c, i]
    (s.regServed mHostIo (regAddr .semSignal [c, i]) = true → v + n.toNat < 2 ^ 32 →
      (tget [] (s.core c).semQ i = [] → answers (exec (.semSignal core sem n) s) (fun t =>
        t.get F.semValue_value [c, i] = v + n.toNat ∧ changesRegs s t c [regAddr .semValue [c, i]])) ∧
      (∀ k m sl, tget [] (s.core c).semQ i = [k] → s.slot c k = some sl → sl.wait = some (.sem i m) →
        (m ≤ v + n.toNat → answers (exec (.semSignal core sem n) s) (fun t =>
          t.get F.semValue_value [c, i] = v + n.toNat - m ∧ t.slot c k = some { sl with granted := true } ∧
          tget [] (t.core c).semQ i = [])) ∧
        (v + n.toNat < m → answers (exec (.semSignal core sem n) s) (fun t =>
          t.get F.semValue_value [c, i] = v + n.toNat ∧ t.slot c k = some sl ∧ tget [] (t.core c).semQ i = [k])))) ∧
    (s.regServed mHostIo (regAddr .semValue [c, i]) = true → tget [] (s.core c).semQ i = [] →
      answers (exec (.semValueWrite core sem n) s) (fun t =>
        t.get F.semValue_value [c, i] = n.toNat ∧ changesRegs s t c [regAddr .semValue [c, i]]))

/-- R95, R105, R126, R157: where the registers are served, a write of EV_SET sets every flag whose bit is 1 (of those no command waits
on), a write of EV_CLR clears them, HOLD takes the value written, and INJECT and INJECT_TWICE arm one or both passes of the next
instruction of the matrix array or of the vector units; no other register changes. -/
def Obligations.CoreControlWrites : Prop :=
  ∀ (core : CoreId) (s : State), let c := core.val
    (∀ mask : Word, s.regServed mHostIo (regAddr .evSet [c]) = true → (∀ i < 64, tget [] (s.core c).evQ i = []) →
      answers (exec (.evSetReg core mask) s) (fun t =>
        (∀ i < 64, t.event c i = (s.event c i || mask.getLsbD i)) ∧ changesRegs s t c [regAddr .evSet [c]])) ∧
    (∀ mask : Word, s.regServed mHostIo (regAddr .evClr [c]) = true → answers (exec (.evClrReg core mask) s) (fun t =>
        (∀ i < 64, t.event c i = (s.event c i && !mask.getLsbD i)) ∧ changesRegs s t c [regAddr .evSet [c]])) ∧
    (∀ hold : Bool, s.regServed mHostIo (regAddr .coreControl [c]) = true → answers (exec (.coreHold core hold) s) (fun t =>
        t.flag F.coreControl_hold [c] = hold ∧ changesRegs s t c [regAddr .coreControl [c]])) ∧
    (s.regServed mHostIo (regAddr .mxaControl [c]) = true →
      (answers (exec (.mxaInject core) s) (fun t => t.core c = { s.core c with injMxa := 1 } ∧ t = { s with cores := t.cores })) ∧
      answers (exec (.mxaInjectTwice core) s) (fun t => t.core c = { s.core c with injMxa := 2 } ∧ t = { s with cores := t.cores })) ∧
    (s.regServed mHostIo (regAddr .vsuControl [c]) = true →
      (answers (exec (.vsuInject core) s) (fun t => t.core c = { s.core c with injVsu := 1 } ∧ t = { s with cores := t.cores })) ∧
      answers (exec (.vsuInjectTwice core) s) (fun t => t.core c = { s.core c with injVsu := 2 } ∧ t = { s with cores := t.cores }))

/-- R377, R375, R89: a TAIL write at or above the ring size, or one that would remove posted commands, is ignored: it increments
HIF_DB_IGNORED and sets HIF_STATUS.DB_IGNORED, and changes nothing else. Any other TAIL write sets TAIL, posts the commands between,
and moves an IDLE queue whose ring it makes non-empty to PENDING; another state stays. A write of CQ_HEAD sets it. -/
def Obligations.DoorbellWrites : Prop :=
  ∀ (q : QueueId) (value : BitVec 16) (s : State), let v := value.toNat; let n := s.ringSize q.val
    let new := (v + n - s.qHead q.val) % n
    ((n ≤ v ∨ new < s.ringCount q.val) → answers (exec (.doorbellTail q value) s) (fun t =>
      t.get F.hifDbIgnored_count [] = sat 32 (s.get F.hifDbIgnored_count [] + 1) ∧ t.flag F.hifStatus_dbIgnored [] = true ∧
      t.qTail q.val = s.qTail q.val ∧ t = { s with regs := t.regs })) ∧
    (v < n → s.ringCount q.val ≤ new → answers (exec (.doorbellTail q value) s) (fun t =>
      t.qTail q.val = v ∧ t.qHead q.val = s.qHead q.val ∧
      tget 0 t.posted q.val = tget 0 s.posted q.val + (new - s.ringCount q.val) ∧
      t.qState q.val = (if s.qState q.val = qIdle ∧ new ≠ 0 then qPending else s.qState q.val))) ∧
    answers (exec (.doorbellCqHead q value) s) (fun t =>
      t.get F.qCqHead_cqHead (qx q.val) = v ∧ changesRegs s t 0 [regAddr .qCqHead (qx q.val)])

/-- R375, R89, R105: where the register is served, a write of Q_RING_CFG takes effect only while ENABLE is 0 and the queue is
DISABLED: it sets both sizes, sets HEAD, TAIL and both completion pointers to 0 and the completion phase to 1; any other is ignored
and increments CORE_CTRL_IGNORED. A write of Q_SCHED sets ENABLE, PRIORITY, TC and SPL_COMPAT; enabling a DISABLED queue of a core
that is not failed or retired makes it IDLE or PENDING as its ring is empty or not, disabling an IDLE or PENDING one makes it
DISABLED, and a queue whose command has begun keeps its state. -/
def Obligations.QueueConfiguration : Prop :=
  ∀ (q : QueueId) (value : BitVec 32) (s : State), let v := value.toNat; let x := qx q.val
    (s.regServed mHostIo (regAddr .qRingCfg x) = true →
      (s.get F.qSched_enable x = 0 → s.qState q.val = qDisabled → answers (exec (.qRingCfgWrite q value) s) (fun t =>
        t.get F.qRingCfg_log2Size x = bits v 0 5 ∧ t.get F.qRingCfg_cqLog2Size x = bits v 8 5 ∧ t.qHead q.val = 0 ∧
        t.qTail q.val = 0 ∧ t.get F.qPtr_cqTail x = 0 ∧ t.get F.qPtr_phase x = 1 ∧ t.get F.qCqHead_cqHead x = 0)) ∧
      ((s.get F.qSched_enable x ≠ 0 ∨ s.qState q.val ≠ qDisabled) → answers (exec (.qRingCfgWrite q value) s) (fun t =>
        t.get F.coreCtrlIgnored_count [q.val / 64] = sat 32 (s.get F.coreCtrlIgnored_count [q.val / 64] + 1) ∧
        changesRegs s t 0 [regAddr .coreCtrlIgnored [q.val / 64]]))) ∧
    (s.regServed mHostIo (regAddr .qSched x) = true → answers (exec (.qSchedWrite q value) s) (fun t =>
      t.get F.qSched_enable x = bits v 0 1 ∧ t.get F.qSched_priority x = bits v 1 2 ∧ t.get F.qSched_tc x = bits v 3 3 ∧
      t.get F.qSched_splCompat x = bits v 6 1 ∧
      t.qState q.val =
        (if s.get F.qSched_enable x = 0 ∧ bits v 0 1 = 1 ∧ s.qState q.val = qDisabled then
          (if s.coreGone (q.val / 64) then qHeld else if s.ringCount q.val = 0 then qIdle else qPending)
        else if bits v 0 1 = 0 ∧ (s.qState q.val = qIdle ∨ s.qState q.val = qPending) then qDisabled else s.qState q.val)))

/-- R88, R90, R100, R446: what the sequencer chooses is of the most urgent priority for which there is anything: a slot whose wait is
satisfied or that was resumed, the one that parked or stopped first, before any queue; otherwise a PENDING queue of that priority,
in rotation from the one after the last started, for a free slot, unless a mailbox request wants the core's region. -/
def Obligations.SelectionOrder : Prop :=
  ∀ (s : State) (c : Nat),
    (∀ k, s.choose c = some (.slot k) → ∃ sl, k < 4 ∧ s.slot c k = some sl ∧ s.slotReady sl = true ∧ sl.prio < 4 ∧
      (∀ j sj, j < 4 → s.slot c j = some sj → s.slotReady sj = true → sl.prio ≤ sj.prio ∧ (sj.prio = sl.prio → sl.order ≤ sj.order)) ∧
      ((∃ j < 4, s.slot c j = none) → s.regionWanted (offCore c) = false → ∀ p < sl.prio, s.nextQueue c p = none)) ∧
    (∀ k j, s.choose c = some (.queue k j) → k < 4 ∧ j < 64 ∧ s.slot c k = none ∧ s.regionWanted (offCore c) = false ∧
      s.qState (64 * c + j) = qPending ∧ s.get F.qSched_priority [c, j] < 4 ∧
      (∀ i si, i < 4 → s.slot c i = some si → s.slotReady si = true → s.get F.qSched_priority [c, j] < si.prio) ∧
      ∀ p < s.get F.qSched_priority [c, j], s.nextQueue c p = none)

/-- R78, R81, R82, R88, R378: on a core that may issue and where no slot issues, the chosen slot whose wait is satisfied issues again
at its program counter, its queue RUNNING; for a chosen queue whose descriptor is read and passes its checks, and whose header then
does, the slot holds a fresh context: s1 to s4 from the descriptor, every other register zero and no descriptor valid, the queue's
epoch, priority, traffic class and SPL_COMPAT, the program counter at the header's entry, and the queue is RUNNING. -/
def Obligations.SelectionStartsAndResumes : Prop :=
  ∀ (core : CoreId) (s : State), let c := core.val
    s.issueHalted = false → s.coreUsable c = true → s.phase = phReady → s.flag F.coreControl_hold [c] = false → s.issuing c = none →
    (∀ k sl, s.choose c = some (.slot k) → s.slot c k = some sl → sl.phase = .parked →
      settles (exec (.select core) s) (fun u =>
        u.slot c k = some { sl with
          phase := .issuing, wait := none, granted := false, stop := none, held := []
          prio := s.get F.qSched_priority (qx sl.queue), tc := s.get F.qSched_tc (qx sl.queue)
          compat := s.flag F.qSched_splCompat (qx sl.queue) } ∧
        u.qState sl.queue = qRunning ∧ u = { s with regs := u.regs, cores := u.cores })) ∧
    (∀ k j s1 b h, let q := 64 * c + j
      s.choose c = some (.queue k j) →
      s.storeAccess (mCore c) (s.get F.qSched_tc (qx q)) (s.get F.qRingBase_base (qx q) * 64 + 64 * s.qHead q) (.rd 64) = (s1, .ok b) →
      s.descCheck q b = none →
      let f := s.freshSlot q b
      let s2 := (((s1.modCore c (fun y => { y with
        lastStarted := tset 0 y.lastStarted (s.get F.qSched_priority (qx q)) (q % 64 + 1) })).setSlot c k (some f)).setQState q
          qRunning).put F.qState_slot (qx q) k
      s2.storeAccess (mCore c) f.tc f.hdr (.rd 32) = (s2, .ok h) → s2.headerCheck f.hdr h = none →
      settles (exec (.select core) s) (fun u => ∃ sl, u.slot c k = some sl ∧ u.qState q = qRunning ∧
        sl.phase = .issuing ∧ sl.queue = q ∧ sl.tds = [] ∧ sl.preds = 0#8 ∧ sl.aflags = 0#8 ∧ sl.seq = 0 ∧
        (∀ r : SReg, sl.s r = if 1 ≤ r.val ∧ r.val ≤ 4 then BitVec.ofNat 64 (leOf ((b.drop (0x10 + 8 * r.val)).take 8)) else 0#64) ∧
        sl.epoch = s.get F.qEpoch_epoch (qx q) ∧ sl.prio = s.get F.qSched_priority (qx q) ∧ sl.tc = s.get F.qSched_tc (qx q) ∧
        sl.compat = s.flag F.qSched_splCompat (qx q) ∧ sl.level = leOf ((h.drop 4).take 1) ∧
        sl.pc = (leOf ((b.drop 0x10).take 8) + leOf ((h.drop 8).take 4)) % 2 ^ 64 ∧
        sl.codeHi = leOf ((b.drop 0x10).take 8) + leOf ((h.drop 0xC).take 4)))

/-- R85, R89, R375, R380, R381: where a queue's command has ended, or its final record waits, and the completion ring has space, the
record of 32 bytes goes to CQ_BASE at CQ_TAIL with the ring's PHASE; CQ_TAIL advances and PHASE inverts where it wraps to 0, HEAD
advances, the slot is free, and the queue is IDLE or PENDING, or DISABLED or HELD where it is disabled or its core has gone. R99: the
waiting record of a stop goes out with its own status; the slot is STOPPED and keeps its context, the queue is STOPPED, CQ_TAIL
advances, and HEAD does not. -/
def Obligations.CompletionRecords : Prop :=
  ∀ (q : QueueId) (s s2 : State) (k : Nat) (sl : Slot) (r : CqRec), let c := q.val / 64; let x := qx q.val
    s.slotOf q.val = some (k, sl) → (s.get F.qPtr_cqTail x + 1) % s.cqSize q.val ≠ s.get F.qCqHead_cqHead x →
    ((sl.cq = some r ∧ r.final = true ∨ sl.cq = none ∧ sl.phase = .ended ∧ s.unfinished c k = [] ∧
      r = { status := 0, final := true, epoch := sl.epoch, aflags := sl.aflags.toNat }) →
    s.storeAccess (mCore c) sl.tc (s.get F.qCqBase_base x * 32 + 32 * s.get F.qPtr_cqTail x)
      (.wr (recordBytes sl.tag q.val r (s.get F.qPtr_phase x))) = (s2, .ok []) →
    settles (exec (.completionRecord q) s) (fun u =>
      u.slot c k = none ∧ u.qHead q.val = (s2.qHead q.val + 1) % s2.ringSize q.val ∧ u.qTail q.val = s2.qTail q.val ∧
      u.get F.qPtr_cqTail x = (s2.get F.qPtr_cqTail x + 1) % s2.cqSize q.val ∧
      u.get F.qPtr_phase x = (if (s2.get F.qPtr_cqTail x + 1) % s2.cqSize q.val = 0 then 1 - s2.get F.qPtr_phase x
        else s2.get F.qPtr_phase x) ∧
      u.qState q.val = (if s2.get F.qSched_enable x = 0 then qDisabled else if s2.coreGone c then qHeld
        else if u.ringCount q.val = 0 then qIdle else qPending) ∧
      tget 0 u.finals q.val = tget 0 s2.finals q.val + 1)) ∧
    (sl.cq = some r → r.final = false →
      ((s.modCore c (fun y => { y with clock := (s.core c).clock + 1 })).setSlot c k (some { sl with order := (s.core c).clock })).storeAccess
        (mCore c) sl.tc (s.get F.qCqBase_base x * 32 + 32 * s.get F.qPtr_cqTail x)
        (.wr (recordBytes sl.tag q.val r (s.get F.qPtr_phase x))) = (s2, .ok []) →
      settles (exec (.completionRecord q) s) (fun u =>
        u.slot c k = some { sl with order := (s.core c).clock, phase := .stopped, cq := none } ∧ u.qState q.val = qStopped ∧
        u.qHead q.val = s2.qHead q.val ∧ u.get F.qPtr_cqTail x = (s2.get F.qPtr_cqTail x + 1) % s2.cqSize q.val))

/-- R381, R99: where (CQ_TAIL + 1) mod size is CQ_HEAD, the OK record of an ended command waits in its slot, HIF_CQ_WAITS is
incremented and HIF_STATUS.CQ_WAIT set, and the queue's state and pointers stay. A stop whose earlier instructions have finished is
reported in Q_STATE.STOP_STATUS, Q_STOP_DETAIL and Q_STOP_PC, its record waiting in the same way. -/
def Obligations.FullRingHoldsRecord : Prop :=
  ∀ (q : QueueId) (s : State) (k : Fin 4) (sl : Slot), let c := q.val / 64; let x := qx q.val
    sl.queue = q.val → sl.cq = none → s.slot c k.val = some sl →
    (s.get F.qPtr_cqTail x + 1) % s.cqSize q.val = s.get F.qCqHead_cqHead x →
    (s.slotOf q.val = some (k.val, sl) → sl.phase = .ended → s.unfinished c k.val = [] →
      settles (exec (.completionRecord q) s) (fun u =>
        u.slot c k.val = some { sl with
          cq := some { status := 0, final := true, epoch := sl.epoch, aflags := sl.aflags.toNat, waited := true } } ∧
        u.get F.hifCqWaits_count [] = sat 32 (s.get F.hifCqWaits_count [] + 1) ∧ u.flag F.hifStatus_cqWait [] = true ∧
        u.qState q.val = s.qState q.val ∧ u.qHead q.val = s.qHead q.val)) ∧
    (∀ (core : CoreId) (r : StopRec), core.val = c → sl.phase = .stopping → sl.stop = some r →
      (s.unfinished c k.val).any (fun n => decide (n < r.seq)) = false →
      settles (exec (.stopReport core k) s) (fun u =>
        u.get F.qState_stopStatus x = r.detail.status % 256 ∧ u.get F.qStopDetail_unitClass x = r.detail.cls % 256 ∧
        u.get F.qStopDetail_unitState x = r.detail.ust % 256 ∧ u.get F.qStopDetail_unitIndex x = r.detail.idx % 65536 ∧
        u.get F.qStopDetail_major x = r.detail.major % 256 ∧ u.get F.qStopDetail_minor x = r.detail.minor % 256 ∧
        u.get F.qStopPc_pc x = r.detail.pc % 2 ^ 64 ∧
        u.slot c k.val = some { sl with
          order := (s.core c).clock
          cq := some { status := r.detail.status, final := false, epoch := sl.epoch, aflags := sl.aflags.toNat
                       detail := r.detail.word, pc := r.detail.pc, waited := true } } ∧
        u.get F.hifCqWaits_count [] = sat 32 (s.get F.hifCqWaits_count [] + 1)))

/-- R100, R378, R382, R383: where Q_CONTROL is served, RESUME makes the command of a STOPPED queue ready to issue again; in a state
that admits neither, RESUME and CANCEL are ignored and increment CORE_CTRL_IGNORED. CANCEL ends the command's unit work, advances the
epoch, and writes or holds the final record CANCELLED, which carries the epoch that the command ran under. At the end of a hold-off
with a message owed the queue's MSI-X vector leaves and the next begins; with none owed it ends. The retry of ring accesses lets the
queue's descriptor be read again. -/
def Obligations.QueueControl : Prop :=
  ∀ (q : QueueId) (s : State), let c := q.val / 64; let x := qx q.val
    (s.regServed mHostIo (regAddr .qControl x) = true →
      (∀ k sl, s.slotOf q.val = some (k, sl) → sl.phase = .stopped → settles (exec (.resume q) s) (fun u =>
        u.sameBut s c k { sl with phase := .resumed })) ∧
      (∀ k sl, s.slotOf q.val = some (k, sl) → sl.phase ≠ .recording → settles (exec (.cancel q) s) (fun u =>
        ∀ sl', (s.dropWork c k).slot c k = some sl' →
          u = (((s.dropWork c k).put F.qEpoch_epoch (qx sl'.queue) (((s.dropWork c k).get F.qEpoch_epoch (qx sl'.queue) + 1) % 2 ^ 32)).setSlot
            c k (some { sl' with phase := .recording })).emitRecord c k
              { status := 1, final := true, epoch := sl'.epoch, aflags := sl'.aflags.toNat })) ∧
      (s.slotOf q.val = none →
        settles (exec (.resume q) s) (fun u => u.get F.coreCtrlIgnored_count [c] = sat 32 (s.get F.coreCtrlIgnored_count [c] + 1) ∧
          changesRegs s u c [regAddr .coreCtrlIgnored [c]]) ∧
        settles (exec (.cancel q) s) (fun u => u.get F.coreCtrlIgnored_count [c] = sat 32 (s.get F.coreCtrlIgnored_count [c] + 1) ∧
          changesRegs s u c [regAddr .coreCtrlIgnored [c]]))) ∧
    (tget 0 s.holdoff q.val = 2 → answers (exec (.holdoffExpiry q) s) (fun t =>
      t = { s with out := .msix (s.get F.qIrq_vector x) :: s.out, holdoff := t.holdoff } ∧ tget 0 t.holdoff q.val = 1)) ∧
    (tget 0 s.holdoff q.val ≠ 2 → answers (exec (.holdoffExpiry q) s) (fun t =>
      t = { s with holdoff := t.holdoff } ∧ tget 0 t.holdoff q.val = 0)) ∧
    (s.slotOf q.val = none → settles (exec (.hostRingRetry q) s) (fun u =>
      q.val ∉ u.hostWait ∧ (∀ p, p ≠ q.val → (p ∈ u.hostWait ↔ p ∈ s.hostWait)) ∧ u = { s with hostWait := u.hostWait }))

/-- R109 to R113, R120: where the next row of the running MMA passes its checks, it commits: entry E0 + m × LD + n of the core's
accumulator store receives the row's term for column n and its tag, or with ACC = 1 the term is added modulo 2^128 and the tag is
joined; every other entry of the store stays; the next row is the one after, and the invalid flags of the row join the command's.
R65, R111 to R113: the term of an output element over K1 + K2 elements, K1 a multiple of 32, is the sum in the Wide Sum Format of
the terms over the first K1 and over the other K2 elements, its tag and flags those of both: the order in which a product is split
over MMAs with ACC = 1 changes no bit. -/
def Obligations.MatrixRowCommits : Prop :=
  (∀ (core : CoreId) (g : Issue) (tw tx tout : TReg) (acc : Bool) (s : State) (r : Running) (sl : Slot) (dw dx dt : Desc), let c := core.val
      s.issueHalted = false → (s.core c).runs .matrix = some r → r.entry.instr = .mma g tw tx tout acc → r.inj = 0 →
      s.slot c r.entry.slot.val = some sl → sl.td tw = some dw → sl.td tx = some dx → sl.td tout = some dt → r.row < dx.rows →
      dw.cols ≤ dt.stride → dt.entry0 + r.row * dt.stride + dw.cols ≤ 131072 → s.parityHit (rowReads sl tw dx r.row) = none →
      settles (exec (.commit core none) s) (fun u =>
        (∀ n < dw.cols, u.accGet c (dt.entry0 + r.row * dt.stride + n) =
          (if acc then (s.accGet c (dt.entry0 + r.row * dt.stride + n)).add (s.mmaCell dw dx dt.anchor r.row n).1
            else (s.mmaCell dw dx dt.anchor r.row n).1)) ∧
        (∀ e < 131072, (e < dt.entry0 + r.row * dt.stride ∨ dt.entry0 + r.row * dt.stride + dw.cols ≤ e) →
          u.accGet c e = s.accGet c e) ∧
        (u.core c).runs .matrix = some { r with row := r.row + 1 } ∧
        ∃ f, u.slot c r.entry.slot.val = some { sl with aflags := sl.aflags ||| f })) ∧
  (∀ (g k2 : Nat) (w x : Nat → Val) (ew ex : Nat → Option Nat) (a : Int),
      dotTerms (32 * g + k2) w x ew ex a =
        (let p := dotTerms (32 * g) w x ew ex a
         let q := dotTerms k2 (fun k => w (32 * g + k)) (fun k => x (32 * g + k)) (fun j => ew (g + j)) (fun j => ex (g + j)) a
         (p.1.add q.1, p.2 ||| q.2)))

/-- R65: adding an element into another adds the integers modulo 2^128 and joins the tags; it is associative and commutative, so that
sums of the same elements in any order agree bit for bit; the zero element changes nothing, and nothing rounds or saturates. -/
def Obligations.WideSumsInAnyOrder : Prop :=
  (∀ a b : Wsf, (a.add b).n.toNat = (a.n.toNat + b.n.toNat) % 2 ^ 128 ∧ (a.add b).tag = a.tag ||| b.tag) ∧
  (∀ a b c : Wsf, (a.add b).add c = a.add (b.add c)) ∧ (∀ a b : Wsf, a.add b = b.add a) ∧ (∀ a : Wsf, a.add Wsf.zero = a) ∧
  ∀ (l m : List Wsf), l.Perm m → l.foldl Wsf.add Wsf.zero = m.foldl Wsf.add Wsf.zero

/-- R116, R125, R126: an MMA whose rows are all committed ends: MXA_INSTRUCTIONS counts it, MXA_MAC_COUNT its K × N × M products, the
array executes nothing, and is IDLE where nothing is queued. MACC, MZERO and MCVT end with their effects: MZERO leaves every entry
of its region zero with no tag. -/
def Obligations.MatrixInstructionEnds : Prop :=
  ∀ (core : CoreId) (g : Issue) (tw tx tout : TReg) (acc : Bool) (s : State) (r : Running) (sl : Slot) (dt : Desc), let c := core.val
    (s.core c).runs .matrix = some r → s.slot c r.entry.slot.val = some sl →
    (∀ dw dx, r.entry.instr = .mma g tw tx tout acc → sl.td tw = some dw → sl.td tx = some dx → r.row = dx.rows →
      settles (exec (.mmaEnd core) s) (fun u => (u.core c).runs .matrix = none ∧
        u.get F.mxaInstructions_count [c] = sat 64 (s.get F.mxaInstructions_count [c] + 1) ∧
        u.get F.mxaMacCount_count [c] = sat 64 (s.get F.mxaMacCount_count [c] + dw.rows * dw.cols * dx.rows) ∧
        (s.get F.mxaStatus_state [c] = stBusy → (s.core c).queue .matrix = [] → u.get F.mxaStatus_state [c] = stIdle))) ∧
    (r.entry.instr = .mzero g tout → sl.td tout = some dt → dt.cols ≤ dt.stride →
      dt.entry0 + (dt.rows - 1) * dt.stride + dt.cols ≤ 131072 → s.parityHit (unitReads sl r.entry.instr) = none →
      settles (exec (.mmaEnd core) s) (fun u => (u.core c).runs .matrix = none ∧
        ∀ i < dt.rows, ∀ j < dt.cols, u.accGet c (dt.entry0 + i * dt.stride + j) = Wsf.zero)) ∧
    (∀ ds, r.entry.instr = .macc g tw tout → sl.td tw = some ds → sl.td tout = some dt →
      s.parityHit (unitReads sl r.entry.instr) = none →
      settles (exec (.mmaEnd core) s) (fun u => (u.core c).runs .matrix = none ∧
        ∀ l, u.peek l = (s.doMacc c ds dt).peek l)) ∧
    (∀ ds, r.entry.instr = .mcvt g tw tx → sl.td tw = some ds → sl.td tx = some dt →
      s.parityHit (unitReads sl r.entry.instr) = none →
      settles (exec (.mmaEnd core) s) (fun u => (u.core c).runs .matrix = none ∧
        (∀ l, u.peek l = (s.doMcvt ds dt).1.peek l) ∧
        u.slot c r.entry.slot.val = some { sl with aflags := sl.aflags ||| (s.doMcvt ds dt).2 }))

/-- R121, R123, R155, R172: on the first mismatch of the instruction that a unit executes, the unit's MISMATCH is set and the
instruction is repeated once: an MMA enters REPLAY and MXA_REPLAYS counts it, without its row committed; a matrix move repeats; a
vector, row statistics or attention-step instruction repeats and VSU_REPEATS or ATT_REPEATS counts it. No storage changes, and no
command is discarded. -/
def Obligations.FirstMismatchRepeats : Prop :=
  ∀ (core : CoreId) (s : State) (r : Running) (kind : Fin 3) (bank : Fin 8), let c := core.val
    r.again = false →
    (∀ g tw tx tout acc sl dw dx dt m, r.entry.instr = .mma g tw tx tout acc → (s.core c).runs .matrix = some r → r.inj = 0 →
      s.issueHalted = false → s.slot c r.entry.slot.val = some sl → sl.td tw = some dw → sl.td tx = some dx → sl.td tout = some dt →
      r.row < dx.rows → s.parityHit (rowReads sl tw dx r.row) = none →
      settles (exec (.commit core (some m)) s) (fun u => (u.core c).runs .matrix = some { r with again := true } ∧
        u.get F.mxaStatus_state [c] = stReplay ∧ u.get F.mxaReplays_count [c] = sat 32 (s.get F.mxaReplays_count [c] + 1) ∧
        u.flag F.mxaStatus_mismatch [c] = true ∧ u.get F.mxaMismatchPc_pc [c] = r.entry.pc % 2 ^ 64 ∧
        u = { s with regs := u.regs, cores := u.cores })) ∧
    ((s.core c).runs .matrix = some r → (∀ g tw tx tout acc, r.entry.instr ≠ .mma g tw tx tout acc) →
      settles (exec (.unitRepeat core .matrixMove kind bank) s) (fun u => (u.core c).runs .matrix = some { r with again := true } ∧
        u.flag F.mxaStatus_mismatch [c] = true ∧ u = { s with regs := u.regs, cores := u.cores })) ∧
    ((s.core c).runs .vector = some r → settles (exec (.unitRepeat core .vector kind bank) s) (fun u =>
      (u.core c).runs .vector = some { r with again := true } ∧ u.flag F.vsuStatus_mismatch [c] = true ∧
      u.get F.vsuRepeats_count [c] = sat 32 (s.get F.vsuRepeats_count [c] + 1) ∧
      u.get F.vsuMismatchLog_kind [c] = kind.val ∧ u = { s with regs := u.regs, cores := u.cores })) ∧
    ((s.core c).runs .rowstat = some r → settles (exec (.unitRepeat core .rowstat kind bank) s) (fun u =>
      (u.core c).runs .rowstat = some { r with again := true } ∧ u.flag F.vsuStatus_mismatch [c] = true ∧
      u.get F.vsuRepeats_count [c] = sat 32 (s.get F.vsuRepeats_count [c] + 1) ∧ u = { s with regs := u.regs, cores := u.cores })) ∧
    ((s.core c).runs .attention = some r → settles (exec (.unitRepeat core .attention kind bank) s) (fun u =>
      (u.core c).runs .attention = some { r with again := true } ∧ u.flag F.attStatus_mismatch [c] = true ∧
      u.get F.attRepeats_count [c] = sat 32 (s.get F.attRepeats_count [c] + 1) ∧ u = { s with regs := u.regs, cores := u.cores }))

/-- R102, R122, R155, R172, R254: on the second mismatch of one instruction of the matrix array (a move), of the vector and spline
unit, of the row statistics unit or of the attention unit, or of one DMA burst, the core faults: it has no usable entry in the
Marquetry map where it had one, and the Jig is to run on it. -/
def Obligations.SecondMismatchFaultsCore : Prop :=
  ∀ (core : CoreId) (s : State) (r : Running) (kind : Fin 3) (bank : Fin 8) (e : Fin 4), let c := core.val
    let faults (u : State) : Prop := statusOf (u.ownAt (offCore c)) = stOffline ∧
      u.bring.jig = s.bring.jig ++ [{ unit := offCore c, why := .fault }]
    usableSt (statusOf (s.ownAt (offCore c))) = true → r.again = true →
    ((s.core c).runs .matrix = some r → (∀ g tw tx tout acc, r.entry.instr ≠ .mma g tw tx tout acc) →
      settles (exec (.unitRepeat core .matrixMove kind bank) s) faults) ∧
    ((s.core c).runs .vector = some r → settles (exec (.unitRepeat core .vector kind bank) s) faults) ∧
    ((s.core c).runs .rowstat = some r → settles (exec (.unitRepeat core .rowstat kind bank) s) faults) ∧
    ((s.core c).runs .attention = some r → settles (exec (.unitRepeat core .attention kind bank) s) faults) ∧
    (s.issueHalted = false → s.dmaState c e.val = dmaActive → (s.eng c e.val).loaded = true → (s.eng c e.val).code = none →
      (s.eng c e.val).again = true → settles (exec (.dmaBurst core e true) s) faults)

/-- R130 to R132, R59, R228: where VADD, VSUB, VMUL, VFMA, VMIN, VMAX, VABS, VNEG, VSCALE, VCVT or VBCAST ends with an FP32
destination whose elements do not overlap, each element holds the exact result of the elements at its place, rounded once to FP32;
for VSEL, whose sources have the destination's format, the code of the element it chooses; for VCMP 1 or 0; and for VRSUM, VRMAX and
VRMIN, of one column, the row's sum in the fixed order of its 256 lanes, its maximum or its minimum. A destination that overlaps no
source is not needed: every element is read before any is written. -/
def Obligations.VectorElementResults : Prop :=
  ∀ (core : CoreId) (g : Issue) (s : State) (r : Running) (sl : Slot) (td ta tb tc : TReg) (sb : SReg) (rel : Fin 8) (d da db dc : Desc),
    let c := core.val; let i := r.entry.instr
    s.slot c r.entry.slot.val = some sl → (s.core c).runs .vector = some r → s.parityHit (unitReads sl i) = none → r.inj = 0 →
    sl.td td = some d → sl.td ta = some da → sl.td tb = some db → sl.td tc = some dc →
    let w := d.fmt.width / 8
    let addr (m j k : Nat) : Nat := localOf (d.byteAddr m (w * j + k))
    0 < w → d.fmt.width = 8 * w → (∀ m j k, m < d.rows → j < d.cols → k < w → localFar (addr m j k) = false) →
    (∀ m j k m' j' k', m < d.rows → j < d.cols → k < w → m' < d.rows → j' < d.cols → k' < w →
      canon (addr m j k) = canon (addr m' j' k') → m = m' ∧ j = j' ∧ k = k') →
    let a (m j : Nat) := s.elem da m j; let b (m j : Nat) := s.elem db m j; let x (m j : Nat) := s.elem dc m j
    let k := (sl.s sb).toInt
    let gives (f : Nat → Nat → Nat) : Prop := settles (exec (.unitInstructionEnd core .vector) s) (fun u =>
      ∀ m < d.rows, ∀ j < d.cols, u.elemCode d m j = f m j)
    (d.fmt = .fp32 → ∀ f : Nat → Nat → Val, (i, f) ∈ [
        (.vadd g td ta (.tensor tb), fun m j => (a m j).add (b m j)), (.vsub g td ta (.tensor tb), fun m j => (a m j).sub (b m j)),
        (.vmul g td ta (.tensor tb), fun m j => (a m j).mul (b m j)), (.vmul g td ta (.scalar sb), fun m j => (a m j).mul (scalarVal da.fmt (sl.s sb))),
        (.vfma g td ta (.tensor tb) tc, fun m j => ((a m j).mul (b m j)).add (x m j)),
        (.vmin g td ta (.tensor tb), fun m j => valMin (a m j) (b m j)), (.vmax g td ta (.tensor tb), fun m j => valMax (a m j) (b m j)),
        (.vabs g td ta, fun m j => (a m j).abs), (.vneg g td ta, fun m j => (a m j).neg),
        (.vscale g td ta (.scalar sb), fun m j => (a m j).scale2 k), (.vcvt g td ta, fun m j => a m j),
        (.vbcast g td (.scalar sb), fun _ _ => fpOf (sl.s sb))] →
      gives (fun m j => (toFp32 (f m j)).1)) ∧
    (d.fmt = .fp32 → d.cols = 1 → ∀ f : List Val → Val × BitVec 8,
      (i, f) ∈ [(.vrsum g td ta, vrsum), (.vrmax g td ta, fun l => (l.foldl valMax (.inf true), 0#8)),
        (.vrmin g td ta, fun l => (l.foldl valMin (.inf false), 0#8))] →
      gives (fun m _ => (toFp32 (f ((List.range da.cols).map (a m))).1).1)) ∧
    (i = .vsel g td ta (.tensor tb) tc → d.fmt.isMx = false → db.fmt = d.fmt → dc.fmt = d.fmt →
      gives (fun m j => if s.elemCode da m j ≠ 0 then s.elemCode db m j else s.elemCode dc m j)) ∧
    (i = .vcmp g td ta (.tensor tb) rel → d.fmt = .int8 → gives (fun m j => let p := a m j; let q := b m j
      if (rel.val = 0 ∧ p.eq q = true) ∨ (rel.val = 1 ∧ p.eq q = false) ∨ (rel.val = 2 ∧ p.lt q = true) ∨ (rel.val = 3 ∧ p.le q = true) ∨
        (rel.val = 4 ∧ q.lt p = true) ∨ (5 ≤ rel.val ∧ q.le p = true) then 1 else 0))

/-- R127, R128, R147, R156, R158, R172: where no injected error is due and no operand byte has bad parity, the instruction that a
unit executes ends with its results and its arithmetic flags, which join the command's; the unit executes nothing, its counter
counts the instruction (VEC_INSTRUCTIONS, SPL_INSTRUCTIONS, ATT_STEPS) or its rows (RST_ROWS), its issue queue is as it was, and
but for registers and the core nothing has changed beyond the results. -/
def Obligations.UnitInstructionEnds : Prop :=
  ∀ (core : CoreId) (s : State) (r : Running) (sl : Slot), let c := core.val; let k := r.entry.slot.val; let i := r.entry.instr
    s.slot c k = some sl → s.parityHit (unitReads sl i) = none → r.inj = 0 →
    (∀ v d t, (s.core c).runs .vector = some r → vecOf i = some v → sl.td v.td = some d → t = s.doVec sl v 0 d.rows →
      settles (exec (.unitInstructionEnd core .vector) s) (fun u => unitEnded u c k .vector t.1 t.2 sl ∧
        u.get F.vecInstructions_count [c] = sat 64 (t.1.get F.vecInstructions_count [c] + 1))) ∧
    (∀ op td ta d t, (s.core c).runs .vector = some r → redOf i = some (op, td, ta) → sl.td ta = some d →
      t = s.doRed sl op td ta 0 d.rows →
      settles (exec (.unitInstructionEnd core .vector) s) (fun u => unitEnded u c k .vector t.1 t.2 sl ∧
        u.get F.vecInstructions_count [c] = sat 64 (t.1.get F.vecInstructions_count [c] + 1))) ∧
    (∀ g td ta fn pm d t, (s.core c).runs .vector = some r → i = .spl g td ta fn pm → sl.td td = some d →
      t = s.doSpl c sl td ta fn.val r.bind pm 0 d.rows →
      settles (exec (.unitInstructionEnd core .vector) s) (fun u => unitEnded u c k .vector t.1 t.2 sl ∧
        u.get F.splInstructions_count [c] = sat 64 (t.1.get F.splInstructions_count [c] + 1))) ∧
    (∀ g td ta partl div shs se si e d t, (s.core c).runs .rowstat = some r → i = .rstat g td ta partl div shs se si e →
      sl.td td = some d → t = s.doRstat sl td ta partl div shs se si e 0 d.rows →
      settles (exec (.unitInstructionEnd core .rowstat) s) (fun u => unitEnded u c k .rowstat t.1 t.2 sl ∧
        u.get F.rstRows_count [c] = sat 64 (t.1.get F.rstRows_count [c] + d.rows))) ∧
    (∀ g td ta div se t, (s.core c).runs .rowstat = some r → i = .rstatc g td ta div se → t = s.doRstatc sl td ta div se →
      settles (exec (.unitInstructionEnd core .rowstat) s) (fun u => unitEnded u c k .rowstat t.1 t.2 sl ∧
        u.get F.rstRows_count [c] = sat 64 (t.1.get F.rstRows_count [c] + 1))) ∧
    (∀ x t, (s.core c).runs .attention = some r → attnOf i = some x → t = s.doAttn c sl x r →
      settles (exec (.unitInstructionEnd core .attention) s) (fun u => unitEnded u c k .attention t.1 t.2 sl ∧
        u.get F.attSteps_count [c] = sat 64 (t.1.get F.attSteps_count [c] + 1)))

/-- R250 to R253: an IDLE or ACTIVE engine of a usable core, between chains, takes the first descriptor of its queue and is ACTIVE; an
invalid one ends DESC_INVALID (2). A burst ends at a 64-byte boundary of the destination, or at the row's end: where its read and its
write are served the bytes read are written and counted in DMA_BYTES, and the engine goes on behind them; a failed read ends the
descriptor with its code, the address in DMA_FAILED_ADDR; a first residue mismatch only repeats the burst. The end of a descriptor
writes STATUS, DONE with its code, sets LAST_CODE, and ERR unless it is OK; after one with neither signal nor event the engine is
IDLE, or ACTIVE while more is queued, or STOPPED after a code of 2 or more; after OK with CHAIN the next descriptor follows. -/
def Obligations.DmaDescriptorRuns : Prop :=
  ∀ (core : CoreId) (eng : Fin 4) (s s1 s2 : State) (b bs : List Byte), let c := core.val; let e := eng.val; let x := s.eng c e
    (∀ r q, s.issueHalted = false → s.coreUsable c = true → (s.dmaState c e = dmaIdle ∨ s.dmaState c e = dmaActive) →
      x.loaded = false → x.req = none → x.queue = r :: q → s.access (mDma c e) r.tc r.addr (.rd 64) = (s1, .ok b) →
      settles (exec (.dmaDescriptorStart core eng) s) (fun u => u.dmaState c e = dmaActive ∧
        u.eng c e = { queue := q, req := some r, desc := r.addr, image := leOf b, flush := x.flush
                      code := if dmaValid (leOf b) then none else some 2 } ∧
        u = { s1 with regs := u.regs, dma := u.dma })) ∧
    (∀ r (n src dst : Nat), s.issueHalted = false → s.dmaState c e = dmaActive → x.loaded = true → x.code = none → x.req = some r →
      dst = dmaAddr (dmaField x.image 0x10 8) (dmaField x.image 0x28 8) x.row x.byte →
      src = dmaAddr (dmaField x.image 0x08 8) (dmaField x.image 0x20 8) x.row x.byte →
      n = min (dmaLen x.image - x.byte) (64 - dst % 64) →
      (dmaFill x.image = false → s.access (mDma c e) r.tc src (.rd n) = (s1, .ok bs) →
        s1.access (mDma c e) r.tc dst (.wr bs) = (s2, .ok []) →
        settles (exec (.dmaBurst core eng false) s) (fun u => u.eng c e = x.advance n ∧
          u.get F.dmaBytes_value [c, e] = sat 64 (s2.get F.dmaBytes_value [c, e] + n) ∧
          u = { s2 with regs := u.regs, dma := u.dma })) ∧
      (∀ st, dmaFill x.image = false → s.access (mDma c e) r.tc src (.rd n) = (s1, .fail st) →
        settles (exec (.dmaBurst core eng false) s) (fun u => u.eng c e = { x with code := some (dmaCode st) } ∧
          u.get F.dmaFailedAddr_value [c, e] = src ∧ u = { s1 with regs := u.regs, dma := u.dma })) ∧
      (x.again = false → settles (exec (.dmaBurst core eng true) s) (fun u => u.eng c e = { x with again := true } ∧
        u = { s with dma := u.dma }))) ∧
    (∀ r k, x.code = some k → k < 256 → x.req = some r → s.access (mDma c e) r.tc (x.desc + 0x1C) (.wr (leBytes 4 (0x100 + k))) = (s1, .ok []) →
      dmaSigEn x.image = false →
      ((k ≠ 0 ∨ dmaChain x.image = false) → r.event = none →
        settles (exec (.dmaCompletion core eng) s) (fun u => u.eng c e = { queue := x.queue } ∧
          u.get F.dmaStatus_lastCode [c, e] = k ∧ (k ≠ 0 → u.flag F.dmaStatus_err [c, e] = true) ∧
          (s1.dmaState c e ≠ dmaFaulted →
            u.dmaState c e = if 2 ≤ k then dmaStopped else if x.queue = [] then dmaIdle else dmaActive) ∧
          u = { s1 with regs := u.regs, dma := u.dma })) ∧
      (k = 0 → dmaChain x.image = true → x.flush = false → settles (exec (.dmaCompletion core eng) s) (fun u =>
        u.eng c e = { queue := x.queue, req := some r, desc := dmaNext x.image } ∧ u.get F.dmaStatus_lastCode [c, e] = 0 ∧
        u.dmaState c e = s1.dmaState c e)))

/-- R247, R249, R250, R253, R255: where the registers are served: a 64-bit write of DMA_SUBMIT to an engine that is neither STOPPED nor
FAULTED and has room queues the descriptor at bits [63:6] with the traffic class of bits [2:0]; any other is counted in SPAD_IGNORED.
RESTART makes a STOPPED engine ACTIVE, or IDLE with nothing queued. FLUSH empties the queue; a descriptor that runs ends its chain.
A write of SPAD_HANDOVER puts the banks of MASK that TARGET does not own into HANDOVER and counts those that are already there, the
owners staying; the end of a handover changes the owner of that bank only. A bad parity that a re-read corrects is counted and
changes nothing stored. -/
def Obligations.DmaControlAndBanks : Prop :=
  ∀ (core : CoreId) (eng : Fin 4) (s : State), let c := core.val; let e := eng.val; let x := s.eng c e
    (∀ (v : Word) (wide : Bool), s.regServed mHostIo (regAddr .dmaSubmit [c, e]) = true →
      (wide = true → s.dmaState c e ≠ dmaStopped → s.dmaState c e ≠ dmaFaulted → x.queue.length < 16 →
        settles (exec (.dmaSubmit core eng v wide) s) (fun u => u = { s with dma := u.dma } ∧
          u.eng c e = { x with queue := x.queue ++ [{ addr := v.toNat / 64 * 64, tc := v.toNat % 8, owner := none, event := none }] })) ∧
      ((wide = false ∨ s.dmaState c e = dmaStopped ∨ s.dmaState c e = dmaFaulted ∨ 16 ≤ x.queue.length) →
        settles (exec (.dmaSubmit core eng v wide) s) (fun u => regsOnly s u [regAddr .spadIgnored [c]] ∧
          u.get F.spadIgnored_count [c] = sat 32 (s.get F.spadIgnored_count [c] + 1)))) ∧
    (s.regServed mHostIo (regAddr .dmaControl [c, e]) = true →
      (s.dmaState c e = dmaStopped → settles (exec (.dmaRestart core eng) s) (fun u => regsOnly s u [regAddr .dmaStatus [c, e]] ∧
        u.dmaState c e = if x.queue = [] then dmaIdle else dmaActive)) ∧
      (s.dmaState c e ≠ dmaStopped → settles (exec (.dmaRestart core eng) s) (fun u => u = s)) ∧
      (x.loaded = true → settles (exec (.dmaFlush core eng) s) (fun u => u.eng c e = { x with queue := [], flush := true } ∧
        u.mem = s.mem ∧ ∀ r ∈ x.queue, ∀ i < 64, r.event = some i → tget [] (s.core c).evQ i = [] → u.event c i = true)) ∧
      (x.loaded = false → s.dmaState c e ≠ dmaFaulted →
        settles (exec (.dmaFlush core eng) s) (fun u => u.eng c e = {} ∧ u.dmaState c e = dmaIdle ∧ u.mem = s.mem))) ∧
    (∀ (mask : BitVec 32) (target : Bool), s.regServed mHostIo (regAddr .spadHandover [c]) = true →
      settles (exec (.spadHandover core mask target) s) (fun u =>
        regsOnly s u [regAddr .spadOwner [c], regAddr .spadIgnored [c]] ∧ u.get F.spadOwner_dma [c] = s.get F.spadOwner_dma [c] ∧
        (∀ b < 32, bit (u.get F.spadOwner_handover [c]) b = (bit (s.get F.spadOwner_handover [c]) b ||
          (mask.getLsbD b && (bit (s.get F.spadOwner_dma [c]) b != target)))) ∧
        u.get F.spadIgnored_count [c] = sat 32 (s.get F.spadIgnored_count [c] +
          ((List.range 32).filter (fun b => mask.getLsbD b && bit (s.get F.spadOwner_handover [c]) b)).length))) ∧
    (∀ bank : Fin 32, bit (s.get F.spadOwner_handover [c]) bank.val = true →
      (bit (s.get F.spadOwner_dma [c]) bank.val = true ∨ s.bankBusy c bank.val = false) →
      settles (exec (.handoverDone core bank) s) (fun u => regsOnly s u [regAddr .spadOwner [c]] ∧
        ∀ b < 32, bit (u.get F.spadOwner_handover [c]) b = (decide (b ≠ bank.val) && bit (s.get F.spadOwner_handover [c]) b) ∧
          bit (u.get F.spadOwner_dma [c]) b = (decide (b = bank.val) ^^ bit (s.get F.spadOwner_dma [c]) b))) ∧
    (∀ (bank : Fin 32) (off : BitVec 19) (m : BitVec 9) (k : Fin 4) (dmaSide : Bool),
      settles (exec (.spadParityReread core bank off m k dmaSide false) s) (fun u =>
        regsOnly s u [regAddr .spadParityCount [c], regAddr .spadParityLog [c]] ∧
        u.get F.spadParityCount_count [c] = sat 32 (s.get F.spadParityCount_count [c] + 1) ∧
        (s.flag F.spadParityLog_valid [c] = false → u.get F.spadParityLog_bank [c] = bank.val ∧
          u.get F.spadParityLog_offset [c] = off.toNat ∧ u.get F.spadParityLog_masterId [c] = m.toNat) ∧
        (s.flag F.spadParityLog_valid [c] = true → u.reg .spadParityLog [c] = s.reg .spadParityLog [c])))

/-- R141, R142, R190, R232: where no loaded byte has bad parity: the oldest user-table load ends with its bank READY and the image of
5,152 bytes in it where the image is valid, and EMPTY where it is not. A near-bank load ends with the elements of its tensor, in
element order, in the vector buffer, or from IOFF in the index buffer, of each NBR that its mask names; the buffers of the others
stay. R179: a usable lender whose KV unit is enabled takes a frame from its list for a borrower, in transit and counted in its
KV_PENDING; the acknowledgement of the oldest one ends its transit, takes it off KV_PENDING, and counts it in the borrower's
KV_BORROW_COUNT. -/
def Obligations.LoadsEnd : Prop :=
  ∀ (core : CoreId) (ch : ChanId) (g : Issue) (s : State) (e : UEntry) (sl : Slot), let c := core.val; let n := ch.val
    (∀ tb b sa rest, s.slot c e.slot.val = some sl → (s.core c).loading = e :: rest → e.instr = .spld g tb b sa → s.parityHit [((sl.s sa).toNat, 5152)] = none →
      let im := s.peekLE (localOf (sl.s sa).toNat) 5152
      let k := 2 * tb.val + b.val
      (tableOk im = true → settles (exec (.spldDone core) s) (fun u => u.bankState c k = bankReady ∧
        tget 0 (u.core c).tables k = im ∧ (u.core c).loading = rest ∧ (∀ j < 8, j ≠ k → u.bankState c j = s.bankState c j) ∧
        u = { s with regs := u.regs, cores := u.cores })) ∧
      (tableOk im = false → settles (exec (.spldDone core) s) (fun u => u.bankState c k = bankEmpty ∧
        tget 0 (u.core c).tables k = tget 0 (s.core c).tables k ∧ u.mem = s.mem))) ∧
    (∀ ch' ta mask index ioff d, s.slot c e.slot.val = some sl → tget none (s.core c).nbloads n = some e → e.instr = .nbload g ch' ta mask index ioff →
      sl.td ta = some d → s.parityHit d.allRuns = none →
      settles (exec (.nbloadDone core ch) s) (fun u => tget none (u.core c).nbloads n = none ∧ u.mem = s.mem ∧ u.regs = s.regs ∧
        (∀ j < 4, mask.getLsbD j = false → u.buf c n j = s.buf c n j) ∧
        (∀ j < 4, mask.getLsbD j = true → (u.buf c n j).outp = (s.buf c n j).outp ∧
          (index = true → (u.buf c n j).vec = (s.buf c n j).vec ∧
            ∀ i < d.rows * d.cols, tget 0 (u.buf c n j).index (ioff.toNat + i) = s.elemCode d (i / d.cols) (i % d.cols)) ∧
          (index = false → (u.buf c n j).index = (s.buf c n j).index ∧
            ∀ i < d.rows * d.cols, tget 0 (u.buf c n j).vec i = s.elemCode d (i / d.cols) (i % d.cols))))) ∧
    (∀ (borrower : CoreId), let b := borrower.val
      (∀ (far : Bool) (s1 : State) (n : Nat), s.coreUsable c = true → s.flag F.kvControl_enable [c] = true →
        kvPop c far s = .ok (s1, some n) → answers (exec (.kvFrameBorrow core borrower far) s) (fun t =>
          t.loans = s1.loans ++ [{ lender := c, borrower := b, far := far, frame := n }] ∧
          t.get F.kvPending_count [c] = (s1.get F.kvPending_count [c] + 1) % 2 ^ 32 ∧ t = { s1 with loans := t.loans, regs := t.regs })) ∧
      (∀ (x : Loan) (rest : List Loan), s.loans = x :: rest → x.lender = c → x.borrower = b → 0 < s.get F.kvPending_count [c] →
        settles (exec (.kvFrameAck core borrower) s) (fun u => u.loans = rest ∧
          u.get F.kvPending_count [c] = s.get F.kvPending_count [c] - 1 ∧
          u.get F.kvBorrowCount_count [b] = sat 32 (s.get F.kvBorrowCount_count [b] + 1) ∧
          tget [] u.gotFrames b = tget [] s.gotFrames b ++ [(x.far, x.frame)] ∧ u.mem = s.mem)))

/-- R199, R209: a served write of NB_MODE.REQ to a channel in MEMORY, PROCESSOR or SHARED mode: MEMORY may go to either other mode and
either other to MEMORY, through SWITCHING; a request of the present mode changes nothing; any other, and every request in SWITCHING,
is ignored and increments NB_IGNORED. SWITCHING ends in the target mode once no run is left, or, out of MEMORY, nothing holds the
channel, where no near-bank load is in progress. A write to a sequence-store window is stored, or, while the channel has a run,
ignored and counted. -/
def Obligations.ChannelModeChanges : Prop :=
  ∀ (core : CoreId) (ch : ChanId) (s : State), let c := core.val; let n := ch.val; let cur := s.chanMode c n
    let reg := regAddr .nbMode [c, n]
    (∀ req : Fin 4, s.regServed mHostIo reg = true →
      ((cur = modeMemory ∧ (req.val = modeProcessor ∨ req.val = modeShared) ∨
          (cur = modeProcessor ∨ cur = modeShared) ∧ req.val = modeMemory) →
        settles (exec (.nbModeReq core ch req) s) (fun u => u.chanMode c n = modeSwitching ∧
          u.get F.nbMode_target [c, n] = req.val ∧ regsOnly s u [reg])) ∧
      (cur ≠ modeSwitching → req.val = cur → settles (exec (.nbModeReq core ch req) s) (fun u => u = s)) ∧
      ((cur = modeSwitching ∨ cur = modeProcessor ∧ req.val = modeShared ∨ cur = modeShared ∧ req.val = modeProcessor) →
        settles (exec (.nbModeReq core ch req) s) (fun u => regsOnly s u [regAddr .nbIgnored [c, n]] ∧
          u.get F.nbIgnored_count [c, n] = sat 32 (s.get F.nbIgnored_count [c, n] + 1)))) ∧
    (cur = modeSwitching → tget none (s.core c).nbloads n = none → (s.core c).runs .nearbank = none →
      (s.get F.nbMode_target [c, n] = modeMemory ∧ s.run c n = none ∧ s.nextRun c n = none ∨
        s.get F.nbMode_target [c, n] ≠ modeMemory ∧ (s.chan c n).holder = none) →
      settles (exec (.switchingDone core ch) s) (fun u => u.chanMode c n = s.get F.nbMode_target [c, n] ∧ regsOnly s u [reg])) ∧
    (∀ (o : Fin 2048) (bytes : List Byte), o.val + bytes.length ≤ 2048 →
      s.regServed mHostIo (seqStore c n - regLocal 0) = true →
      (s.run c n = none → s.nextRun c n = none → answers (exec (.nbWindowWrite core ch o bytes) s) (fun t =>
        (∀ i < bytes.length, t.peek (seqStore c n + o.val + i) = bytes.getD i 0#8) ∧
        (∀ l, l < seqStore c n + o.val ∨ seqStore c n + o.val + bytes.length ≤ l → t.peek l = s.peek l) ∧ t.regs = s.regs)) ∧
      ((s.run c n ≠ none ∨ s.nextRun c n ≠ none) → answers (exec (.nbWindowWrite core ch o bytes) s) (fun t =>
        regsOnly s t [regAddr .nbIgnored [c, n]] ∧ t.get F.nbIgnored_count [c, n] = sat 32 (s.get F.nbIgnored_count [c, n] + 1))))

/-- R202 to R206: the oldest result write of a run is performed where it is served; a failed one decides the run's end code by its
status, NB_ERR_ADDR its address, and the rest is not sent. A step that has read all its rows and written all its results ends: its
event flag is set where EV_EN says so; after the last step the run is to end OK, otherwise the next one starts. Near the refresh
deadline the NBRs pause, every owed refresh is issued, and NB_SPLITS counts the pause. A run whose code is decided ends: CODE and
STEP, RUNNING cleared, DONE set here and in NB_DONE_SUMMARY, its flags joined to its command's, and the run behind it starts. -/
def Obligations.NearBankRunProgress : Prop :=
  ∀ (core : CoreId) (ch : ChanId) (s s1 : State) (r : NbRun), let c := core.val; let n := ch.val
    s.run c n = some r →
    (∀ a b rest, r.writes = (a, b) :: rest →
      (s.access (mNbr c) r.tc a (.wr b) = (s1, .ok []) → settles (exec (.nbrResultWrite core ch) s) (fun u =>
        u.run c n = some { r with writes := rest } ∧ u = { s1 with nbRun := u.nbRun })) ∧
      (∀ st, s.access (mNbr c) r.tc a (.wr b) = (s1, .fail st) → a < 2 ^ 64 → r.code = none →
        settles (exec (.nbrResultWrite core ch) s) (fun u =>
          u.run c n = some { r with
            code := some (if st = stUnusable then 4 else if st = stAddrOffline then 5 else 6), writes := [] } ∧
          u.get F.nbErrAddr_address [c, n] = a ∧ u = { s1 with nbRun := u.nbRun, regs := u.regs }))) ∧
    (r.code = none → r.read = true → r.writes = [] → let t := s.nbStep c n r.step
      settles (exec (.nbStepEnd core ch) s) (fun u =>
        (t.evEn = true → tget [] (s.core c).evQ t.event = [] → u.event c t.event = true) ∧ (t.evEn = false → u.cores = s.cores) ∧
        (t.last = true → u.run c n = some { r with code := some 0 }) ∧
        (t.last = false → u.run c n = some { r with step := (r.step + 1) % 64, visit := 0, read := false, again := false } ∧
          u.get F.nbStatus_step [c, n] = (r.step + 1) % 64) ∧ u.mem = s.mem)) ∧
    (∀ (toDeadline : Nat) errs mm, toDeadline ≤ 256 → r.code = none → r.read = false → s.issueHalted = false →
      s.chanUsable c n = true → s.burstReady c n = true → (s.chan c n).refreshing = 0 →
      settles (exec (.rowBurst core ch toDeadline errs mm) s) (fun u => u.run c n = some r ∧
        (u.chan c n).refreshing = s.get F.slcStatus_owed [c, n] ∧ (u.chan c n).openRow = [] ∧
        u.get F.nbSplits_count [c, n] = sat 32 (s.get F.nbSplits_count [c, n] + 1) ∧ u.mem = s.mem)) ∧
    (∀ k, r.code = some k → k < 16 → r.writes = [] → settles (exec (.nbRunEnd core ch) s) (fun u =>
      u.get F.nbStatus_code [c, n] = k ∧ u.flag F.nbStatus_done [c, n] = true ∧ bit (u.get F.nbDoneSummary_done [c]) n = true ∧
      (r.event < 64 → tget [] (s.core c).evQ r.event = [] → u.event c r.event = true) ∧
      (s.nextRun c n = none → u.run c n = none ∧ u.flag F.nbStatus_running [c, n] = false ∧ u.get F.nbStatus_step [c, n] = r.step % 64) ∧
      (∀ t, s.nextRun c n = some t → u.nextRun c n = none ∧ u.run c n = some (if k = 0 then t else { t with code := some 1 })) ∧
      (∀ sl, s.slot c r.slot.val = some sl → tget [] (s.core c).evQ r.event = [] →
        u.slot c r.slot.val = some { sl with aflags := sl.aflags ||| r.aflags }) ∧ u.mem = s.mem))

/-- R263, R264, R271, R272, R279, R291: a request within one codeword, of the requester that its master is, joins the requests that
reach its channel. The end of a burst that has begun frees the channel: a write that covers its codeword whole stores its bytes, a
read of a codeword that decodes answers the bytes stored. A read-merge-write of one codeword that decodes stores its bytes and no
other. An adder request that its channel performs waits at the end of the adder's queue; the sequence of the adder over a lone
request without a tag stores the sum by its operation code. Every other byte of storage stays. -/
def Obligations.ChannelTransfers : Prop :=
  ∀ (core : CoreId) (ch : ChanId) (s : State), let c := core.val; let n := ch.val; let x := s.chan c n
    (∀ (rq : Fin 8) (m : BitVec 9) (tc : Fin 8) (off : BitVec 27) (acc : MemAccess), let o := off.toNat; let op := MemOp.ofAccess acc
      requesterOf c m.toNat = rq.val → 0 < op.len → o / 256 = (o + op.len - 1) / 256 → s.targetStatus m.toNat (.slice c n o) op.len = 0 →
      answers (exec (.channelRequest core ch rq m tc off acc) s) (fun t => t = { s with chans := t.chans, regs := t.regs } ∧
        (∀ k i, regAddr k i ≠ regAddr .netTcState [masterDie m.toNat, tc.val] → t.reg k i = s.reg k i) ∧
        t.chan c n = { x with net := x.net ++ [{ requester := rq.val, master := m.toNat, tc := tc.val, off := o, len := op.len
                                                 wr := match op with | .rd _ => none | .wr bs => some bs }] })) ∧
    (∀ (h : Holder), x.holder = some h → h.req.requester ≠ rqNbr → h.req.requester ≠ rqAtomic → x.toBurst h.req.off < h.age →
      h.req.who = .answer → let q := h.req
      (∀ bs, q.wr = some bs → bs.length = 256 → q.off % 256 = 0 → q.off + 256 ≤ 2 ^ 27 →
        settles (exec (.transferEnd core ch []) s) (fun u => (u.chan c n).holder = none ∧ u.out = .answer 0 [] :: s.out ∧
          (∀ i < 256, u.peek (sliceAddr c n q.off + i) = bs.getD i 0#8) ∧
          (∀ l, canon l < sliceAddr c n q.off ∨ sliceAddr c n q.off + 256 ≤ canon l → u.peek l = s.peek l))) ∧
      (q.wr = none → 0 < q.len → q.off / 256 = (q.off + q.len - 1) / 256 → s.decodes c n q.off = .good →
        settles (exec (.transferEnd core ch []) s) (fun u => (u.chan c n).holder = none ∧ u.mem = s.mem ∧
          u.out = .answer 0 (s.peeks (sliceAddr c n q.off) q.len) :: s.out))) ∧
    (∀ (h : Holder) (bs : List Byte), let q := h.req
      x.holder = some h → q.requester ≠ rqAtomic → q.wr = some bs → 0 < bs.length → bs.length < 256 →
      q.off / 256 = (q.off + bs.length - 1) / 256 → q.off < 2 ^ 27 → x.pend = [] → q.who = .answer → s.decodes c n q.off = .good →
      settles (exec (.readMergeWrite core ch []) s) (fun u => (u.chan c n).holder = none ∧
        (∀ i < bs.length, u.peek (sliceAddr c n q.off + i) = bs.getD i 0#8) ∧
        (∀ l, canon l < sliceAddr c n q.off ∨ sliceAddr c n q.off + bs.length ≤ canon l → u.peek l = s.peek l))) ∧
    (∀ (op : Fin 8) (a : Word) (v : BitVec 128) (m : BitVec 9) (tc : Fin 8) (d h o : Nat),
      sliceOf a.toNat = some (d, h, o) → s.targetStatus m.toNat (.slice d h o) (addSize op.val) = 0 →
      addInvalid op.val a.toNat v.toNat 0 0 = false →
      answers (exec (.adderRequest op a v 0#8 0#64 m tc) s) (fun t => t = { s with chans := t.chans, regs := t.regs } ∧
        (∀ k i, regAddr k i ≠ regAddr .netTcState [masterDie m.toNat, tc.val] → t.reg k i = s.reg k i) ∧
        t.chan d h = { s.chan d h with adder := (s.chan d h).adder ++
          [{ op := op.val, off := o, operand := v.toNat, master := m.toNat, tc := tc.val, who := .answer }] })) ∧
    (∀ (h : Holder) (a : AddReq), x.holder = some h → h.req.requester = rqAtomic → x.adder = [a] → a.tag = 0 →
      s.resultHeld c n a.off (addSize a.op) = false → a.off % addSize a.op = 0 → a.off < 2 ^ 27 → s.decodes c n a.off = .good →
      a.who = .nobody → let l := sliceAddr c n a.off
      settles (exec (.adderSequence core ch []) s) (fun u => (u.chan c n).holder = none ∧ (u.chan c n).adder = [] ∧
        u.peekLE l (addSize a.op) = addSum a.op (s.peekLE l (addSize a.op)) a.operand % 256 ^ addSize a.op ∧
        (∀ k, canon k < l ∨ l + addSize a.op ≤ canon k → u.peek k = s.peek k)))

/-- R279, R281, R282, R285, R288, R290, R295: at a slot boundary the next slot follows; a transfer that is locked, or whose burst has
begun, goes on; otherwise an idle channel that no refresh takes grants the oldest request of the requester picked, than which no other
with a request comes before in the order of the slot. At slot 0 an accepted table becomes live, and as many slots are withdrawn
as the table reserves beyond what b leaves. At a window start the written quotas are in force and every requester with a nonzero
quota has its quota of tokens. A served ARB_LOAD accepts the staged table only when it passes the checks. A flit served for
starvation is counted. -/
def Obligations.ArbiterEvents : Prop :=
  ∀ (core : CoreId) (ch : ChanId) (s : State), let c := core.val; let n := ch.val; let x := s.chan c n
    answers (exec (.slotBoundary core ch) s) (fun t => (t.chan c n).slot = (x.slot + 1) % 64 ∧ t.mem = s.mem ∧
      (∀ h, x.holder = some h → (s.lanesTaken c n = true ∨ h.locked = true ∨ x.toBurst h.req.off ≤ h.age) →
        (t.chan c n).holder = some { h with age := h.age + 1 }) ∧
      (let s1 := (s.askBurst c n).askAdder c n
       x.holder = none → s1.lanesTaken c n = false → ∀ p q, s1.pick c n x.slot = some p → s1.oldestReq c n p.1 = some q →
        (∃ locked token, (t.chan c n).holder = some { req := q, locked := locked, token := token, age := 1 }) ∧
        ∀ r o, r ∈ [rqProc, rqDma, rqNbr, rqRemote, rqAtomic, rqNbWrite] → (s1.oldestReq c n r).isSome = true →
          s1.chanParks c n = false → s1.orderOf c n x.slot r = some o → before o p.2 = false)) ∧
    answers (exec (.slotZero core ch) s) (fun t => (t.chan c n).slot = 0 ∧ (t.chan c n).loaded = none ∧ t.mem = s.mem ∧
      (∀ ws, x.loaded = some ws → ∀ k < 4, t.get F.arbLive_entries [c, n, k] = ws.getD k 0 % 2 ^ 64) ∧
      (x.loaded = none → t.liveTable c n = s.liveTable c n) ∧
      (let k := ((List.range 64).filter (fun i => decide (tableEntry (t.liveTable c n) i ≤ 4))).length
       (t.chan c n).withdrawn.length = k - min k ((64 - s.get F.arbThrottle_b [c, n]) * 91808 / 100000))) ∧
    answers (exec (.quotaWindowStart core ch) s) (fun t => (t.chan c n).quota = s.get F.arbQuota_quota [c, n] ∧
      (∀ r < 5, let v := bits (s.get F.arbQuota_quota [c, n]) (8 * r) 8
        t.tokens c n r = if v = 0 then s.tokens c n r else v) ∧ t.mem = s.mem) ∧
    (s.regServed mHostIo (regAddr .arbLoad [c, n]) = true → answers (exec (.arbLoad core ch) s) (fun t =>
      let ws := (List.range 4).map (fun k => s.reg .arbStage [c, n, k])
      t.get F.arbStatus_loadResult [c, n] = loadResult ws ∧
      (loadResult ws = 1 → (t.chan c n).loaded = some ws ∧ t.flag F.arbStatus_loadPending [c, n] = true) ∧
      (loadResult ws ≠ 1 → t.chans = s.chans) ∧ t.mem = s.mem)) ∧
    (∀ die : DieId, answers (exec (.starvationServe die) s) (fun t => regsOnly s t [regAddr .netStarveCount [die.val]] ∧
      t.get F.netStarveCount_count [die.val] = sat 32 (s.get F.netStarveCount_count [die.val] + 1)))

/-- R265, R266, R273: an interval boundary owes one refresh more, four at most. In an idle cycle, with ALIGN only in the window, one
owed refresh is issued; a forced one issues every refresh owed, counts them in SLC_FORCED and sets FORCED. A refresh issued is
counted and closes every row. Its end takes one from those owed, and the last one clears FORCED. The scrubber, where it has its
turn and nothing waits to be repaired, reads the walk's codeword: one without errors stays as it is and the walk goes on; one with
symbols in error that it can correct is written back. -/
def Obligations.RefreshAndScrub : Prop :=
  ∀ (core : CoreId) (ch : ChanId) (s : State), let c := core.val; let n := ch.val; let x := s.chan c n
    let owed := s.get F.slcStatus_owed [c, n]
    let issued (t : State) (k : Nat) : Prop := t.chan c n = { x with refreshing := x.refreshing + k, openRow := [] } ∧
      t.get F.slcRefreshes_count [c, n] = sat 32 (s.get F.slcRefreshes_count [c, n] + k) ∧ t.mem = s.mem
    answers (exec (.refreshBoundary core ch) s) (fun t => t.get F.slcStatus_owed [c, n] = min 4 (owed + 1) ∧
      regsOnly s t [regAddr .slcStatus [c, n]]) ∧
    (∀ inWindow, owed ≠ 0 → s.chanIdle c n = true → (s.flag F.slcControl_align [c] = false ∨ inWindow = true) →
      answers (exec (.refresh core ch inWindow) s) (fun t => issued t 1 ∧ t.get F.slcStatus_owed [c, n] = owed)) ∧
    (∀ inWindow, (owed = 0 ∨ s.chanIdle c n = false ∨ s.flag F.slcControl_align [c] = true ∧ inWindow = false) →
      exec (.refresh core ch inWindow) s = .next s) ∧
    (owed ≠ 0 → x.holder = none → s.lanesTaken c n = false → s.wantsBurst c n = false →
      answers (exec (.forcedRefresh core ch) s) (fun t => issued t owed ∧ t.flag F.slcStatus_forced [c, n] = true ∧
        t.get F.slcForced_count [c, n] = sat 32 (s.get F.slcForced_count [c, n] + owed))) ∧
    (x.refreshing ≠ 0 → answers (exec (.refreshDone core ch) s) (fun t => t.get F.slcStatus_owed [c, n] = owed - 1 ∧
      (t.chan c n) = { x with refreshing := x.refreshing - 1 } ∧
      t.flag F.slcStatus_forced [c, n] = (decide (x.refreshing ≠ 1) && s.flag F.slcStatus_forced [c, n]) ∧ t.mem = s.mem)) ∧
    (s.scrubReady c n = true → x.repair = [] → let p := s.get F.slcScrubPos_codeword [c, n]
      s.decodes c n (256 * p) = .good → answers (exec (.scrubRead core ch []) s) (fun t => t.mem = s.mem ∧
        t.get F.slcScrubPos_codeword [c, n] = (p + 1) % 524288 ∧
        (s.badLanes c n (256 * p) = [] → t.symErrs = s.symErrs ∧ t.chans = s.chans) ∧
        (s.badLanes c n (256 * p) ≠ [] → tget [] t.symErrs (cwOf c n (256 * p)) = [] ∧
          t.get F.slcCorrected_count [c, n] = sat 32 (s.get F.slcCorrected_count [c, n] + 1))))

/-- R262, R275, R276: a lane corrected LANE_LIMIT times that is not yet in the erasure mask enters it, and its usable dowel group is
DEGRADED with cause 0x5; a served write of SLC_DEAD_LANES adds the lanes of its word's ones. No lane leaves the mask. A channel
with UNCORR_LIMIT distinct uncorrectable codewords in the window, where its own status is usable, is FAILED with cause 0x5 and its
count starts again. -/
def Obligations.LanesAndChannelsFail : Prop :=
  ∀ (core : CoreId) (ch : ChanId) (s : State), let c := core.val; let n := ch.val; let x := s.chan c n
    s.reg .slcDeadLanesLo [c, n] < 2 ^ 64 → s.reg .slcDeadLanesMid [c, n] < 2 ^ 64 →
    (∀ lane : Fin 144, let j := lane.val
      0 < tget 0 x.laneHits j → s.get F.slcThresh_laneLimit [c] ≤ tget 0 x.laneHits j → bit (s.deadLanes c n) j = false →
      answers (exec (.laneDead core ch lane) s) (fun t => tget 0 (t.chan c n).laneHits j = 0 ∧
        (∀ i < 144, bit (t.deadLanes c n) i = (decide (i = j) || bit (s.deadLanes c n) i)) ∧
        (usableSt (statusOf (s.ownAt (offDg c n (j / 16)))) = true → t.ownAt (offDg c n (j / 16)) = entry stDegraded 5))) ∧
    (∀ (word : Fin 3) (v : Word), s.regServed mHostIo (regAddr
        (match word.val with | 0 => RegKind.slcDeadLanesLo | 1 => .slcDeadLanesMid | _ => .slcDeadLanesHi) [c, n]) = true →
      settles (exec (.slcDeadLanesWrite core ch word v) s) (fun u => u.mem = s.mem ∧ ∀ i < 144,
        bit (u.deadLanes c n) i = ((decide (i / 64 = word.val) && v.getLsbD (i % 64)) || bit (s.deadLanes c n) i))) ∧
    (x.uncorr ≠ [] → s.get F.slcThresh_uncorrLimit [c] ≤ x.uncorr.length →
      usableSt (statusOf (s.ownAt (offChan c n))) = true →
      settles (exec (.channelFailed core ch) s) (fun u => u.ownAt (offChan c n) = entry stFailed 5 ∧
        u.chan c n = { x with uncorr := [] }))

/-- R30, R31: slice offset S of core c is in the channel-linear view channel S[31:27] at offset S[26:0], so that each channel is one
contiguous range of 128 MiB, and in the striped view channel S[12:8] at offset S[31:13] × 256 + S[7:0], so that block b lies on
channel b mod 32. -/
def Obligations.SliceViews : Prop :=
  ∀ c S : Nat, c < 64 → S < 2 ^ 32 →
    targetOfLocal (c * 2 ^ 32 + S) = .slice c (bits S 27 5) (bits S 0 27) ∧
    targetOfLocal (0x04000000000 + c * 2 ^ 32 + S) = .slice c (bits S 8 5) (bits S 13 19 * 256 + bits S 0 8) ∧
    (∀ n o : Nat, n < 32 → o < 2 ^ 27 → targetOfLocal (c * 2 ^ 32 + n * 2 ^ 27 + o) = .slice c n o) ∧
    (∀ b o : Nat, S = 256 * b + o → o < 256 →
      targetOfLocal (0x04000000000 + c * 2 ^ 32 + S) = .slice c (b % 32) (b / 32 * 256 + o))

/-- R27: a served write of GLB_CHIP_ID changes nothing while a Golfort port is trained, and otherwise sets the ID. While it reads
0xF_FFFF, every access of any master of one byte or more at an address that names another ID fails with ADDR_NO_ROUTE, is counted in
GLB_ADDR_ERR_COUNT, and reaches no storage. -/
def Obligations.ChipIdentity : Prop :=
  ∀ s : State,
    (∀ v : BitVec 32, s.regServed mHostIo (regAddr .glbChipId []) = true →
      (s.anyTrained = true → answers (exec (.glbChipIdWrite v) s) (fun t => t = s)) ∧
      (s.anyTrained = false → answers (exec (.glbChipIdWrite v) s) (fun t => regsOnly s t [regAddr .glbChipId []] ∧
        t.get F.glbChipId_id = v.toNat % 2 ^ 20))) ∧
    (∀ (m tc a : Nat) (op : MemOp), s.get F.glbChipId_id = 0xFFFFF → a < 2 ^ 64 → a / 2 ^ 44 ≠ 0xFFFFF → 0 < op.len →
      ∃ t, s.access m tc a op = (t, .fail 0x22) ∧ s.storeAccess m tc a op = (t, .fail 0x22) ∧
        t = { s with regs := t.regs } ∧ t.get F.glbAddrErrCount_count [] = sat 32 (s.get F.glbAddrErrCount_count [] + 1))

/-- R4, R6, R29, R40, R41, R371, R373: an access to the host window, a read through BAR4, and, while the link carries CXL.mem and the
decoder is committed, a line read or a whole-line write by CXL.mem, where it is served, is answered with its bytes and does what
the access does; a write through BAR4 does what the access does and is posted. A host snoop is answered on a CXL link. A write of a
register at its offset, of its own width, where its block is served, is that register's write. An access to an undefined address
is counted, unless D0 is in partial reset, and a read of one returns zero. -/
def Obligations.HostAccessesAnswered : Prop :=
  ∀ (s s1 : State) (bs : List Byte), let answered (o : Result) : Prop := settles o (fun u => u = { s1 with out := .answer 0 bs :: s1.out })
    (∀ (m : BitVec 9) (off : BitVec 42) (acc : MemAccess),
      s.access m.toNat 0 (selfAddr (0xC0000000000 + off.toNat)) (MemOp.ofAccess acc) = (s1, .ok bs) →
      answered (exec (.hostWindowAccess m off acc) s)) ∧
    (∀ (a : BitVec 44) (acc : MemAccess), s.access mHostIo 0 (selfAddr a.toNat) (MemOp.ofAccess acc) = (s1, .ok bs) →
      ((∃ n, acc = .read n) → answered (exec (.hostCxlIoAccess a acc) s)) ∧
      ((∃ b, acc = .write b) → settles (exec (.hostCxlIoAccess a acc) s) (fun u => u = s1))) ∧
    (∀ line : BitVec 32, s.hdmServes = true →
      (s.access mHostMem 0 (selfAddr (64 * line.toNat)) (.rd 64) = (s1, .ok bs) → answered (exec (.memRd line) s)) ∧
      (∀ data : BitVec 512, s.access mHostMem 0 (selfAddr (64 * line.toNat)) (.wr (leBytes 64 data.toNat)) = (s1, .ok bs) →
        answered (exec (.memWr line (BitVec.allOnes 64) data) s))) ∧
    (∀ line : Word, s.flag F.hifLink_up = true → s.flag F.hifLink_cxl = true →
      exec (.hostSnoop line) s = .next { s with out := .snoop line.toNat :: s.out }) ∧
    (∀ (o : BitVec 26) (v : Word) (wide : Bool) (k : RegKind) (i : List Nat), regAt o.toNat = some (k, i, 0) →
      isWindow o.toNat = false → winCxl o.toNat = false → o.toNat % k.bytes = 0 → s.regServed mHostIo o.toNat = true →
      (wide = true ∧ k.bytes = 8 ∨ wide = false ∧ k.bytes = 4) →
      settles (exec (.registerWrite o v wide) s) (fun u => u = s.regWrite k i 0 (8 * k.bytes) (v.toNat % 2 ^ (8 * k.bytes)))) ∧
    (∀ (a : BitVec 44), isUndefined a.toNat = true → s.dieInReset 0 = false →
      (∀ n, answers (exec (.unmappedAccess a (.read n)) s) (fun t =>
        t.out = .answer 0 (List.replicate n.val 0#8) :: s.out ∧
        t.get F.glbUnmappedCount_count = sat 32 (s.get F.glbUnmappedCount_count + 1) ∧ t = { s with out := t.out, regs := t.regs })) ∧
      (∀ b, answers (exec (.unmappedAccess a (.write b)) s) (fun t => regsOnly s t [regAddr .glbUnmappedCount []] ∧
        t.get F.glbUnmappedCount_count = sat 32 (s.get F.glbUnmappedCount_count + 1))))

/-- R369, R373, R389, R475: the decoder of 256 GiB that is not locked is committed on a CXL link; any other size leaves it. The loss of
a link that is up clears HIF_LINK, sets LINK_DOWN and counts; HPERST_N low does that, uncommits the decoder, and holds the port in
reset. From phase BOOT on, out of reset, a port that trains is up with the width and rate trained, its CXL.mem traffic only in CXL
mode. -/
def Obligations.HostLinkEvents : Prop :=
  ∀ s : State,
    (∀ (base : Word) (lock : Bool), s.flag F.hifLink_up = true → s.flag F.hifLink_cxl = true → (∀ b, s.hdm ≠ some (b, true)) →
      answers (exec (.hdmCommit base (2 ^ 38) lock) s) (fun t => t.hdm = some (base.toNat, lock) ∧
        t.flag F.hifStatus_hdmCommitted = true ∧ t = { s with hdm := t.hdm, regs := t.regs }) ∧
      ∀ size, size ≠ 2 ^ 38 → exec (.hdmCommit base size lock) s = .next s) ∧
    (s.flag F.hifLink_up = true → answers (exec .hostLinkDown s) (fun t => t.reg .hifLink [] % 2 ^ 12 = 0 ∧
      t.flag F.hifStatus_linkDown = true ∧ t.get F.hifLinkDowns_count = sat 32 (s.get F.hifLinkDowns_count + 1) ∧
      regsOnly s t [regAddr .hifLink [], regAddr .hifStatus [], regAddr .hifLinkDowns []])) ∧
    (s.flag F.hifLink_up = false → exec .hostLinkDown s = .next s) ∧
    answers (exec (.hperst true) s) (fun t => t.bring.hperst = true ∧ t.flag F.hifLink_up = false ∧ t.hdm = none ∧
      t.flag F.hifStatus_hdmCommitted = false ∧
      ∀ l, (canon l < 0x0C0000B4000 ∨ 0x0C0000C0000 ≤ canon l) → t.peek l = s.peek l) ∧
    answers (exec (.hperst false) s) (fun t => t = { s with bring := { s.bring with hperst := false } }) ∧
    (∀ (width : Fin 17) (rate : Fin 6) (cxl cacheEn memEn : Bool), s.bring.hperst = false → s.power.tripped = false →
      phBoot ≤ s.phase → s.dieInReset 0 = false → s.portUsable 10 = true → s.flag F.hifLink_up = false →
      width.val ∈ [1, 2, 4, 8, 16] → rate.val ≠ 0 →
      answers (exec (.hostLinkUp width rate cxl cacheEn memEn) s) (fun t => regsOnly s t [regAddr .hifLink []] ∧
        t.get F.hifLink_width = width.val ∧ t.get F.hifLink_rate = rate.val ∧ t.flag F.hifLink_cxl = cxl ∧
        t.flag F.hifLink_cacheEn = (cxl && cacheEn) ∧ t.flag F.hifLink_memEn = (cxl && memEn) ∧ t.flag F.hifLink_up = true))

/-- R45, R47, R300 to R306: an access within one line that its port serves leaves as MemRd, MemWr for a whole line or MemWrPtl, behind
an earlier request to the same line only when that one completes; one that cannot be served is answered with its status and counted. A
write's completion stores its bytes; a read's answers the bytes stored, or fails with MEM_DATA where the data is poisoned, which
FP_POISON_COUNT counts. A Type 3 device that commits opens the window at its size in multiples of 256 MiB, up to 4 TiB, the port
GOOD at full width and rate and otherwise DEGRADED; without a partner it is UNCONNECTED. A lost device leaves the port FAILED and its
window closed, and PERST the window closed; both fail what is outstanding. A retrain fails it with ADDR_OFFLINE and is counted. -/
def Obligations.FarPortEvents : Prop :=
  ∀ (far : FarId) (s : State), let f := far.val; let x := s.farPort f
    let bad (t : State) : Prop := (t.farPort f).queue = [] ∧
      ((∀ r ∈ x.queue, r.off < 2 ^ 42) → t.get F.fpFailedCount_count [f] = sat 32 (s.get F.fpFailedCount_count [f] + x.queue.length))
    (∀ (m : BitVec 9) (off : BitVec 42) (acc : MemAccess), let o := off.toNat; let op := MemOp.ofAccess acc
      let st := s.targetStatus m.toNat (.far f o) op.len
      let r : FarReq := { master := m.toNat, off := o, len := op.len, wr := match op with | .rd _ => none | .wr b => some b }
      (st = 0 → 0 < op.len → o / 64 = (o + op.len - 1) / 64 → (∀ e ∈ x.queue, e.issued = true) →
        (x.queue.length < 256 → (∀ e ∈ x.queue, e.off / 64 ≠ o / 64) → answers (exec (.farWindowAccess far m off acc) s) (fun t =>
          t.farPort f = { x with queue := x.queue ++ [{ r with issued := true }] } ∧
          t.out = .cxlMem f (match op with | .rd _ => 0 | .wr _ => if op.len = 64 then 1 else 2) (o / 64) :: s.out ∧
          t = { s with far := t.far, out := t.out })) ∧
        ((∃ e ∈ x.queue, e.off / 64 = o / 64) → answers (exec (.farWindowAccess far m off acc) s) (fun t =>
          t.farPort f = { x with queue := x.queue ++ [r] } ∧ t = { s with far := t.far }))) ∧
      (st ≠ 0 → answers (exec (.farWindowAccess far m off acc) s) (fun t => t.out = .answer st [] :: s.out ∧
        t.get F.glbAddrErrCount_count = sat 32 (s.get F.glbAddrErrCount_count + 1) ∧
        t = { s with out := t.out, regs := t.regs }))) ∧
    (∀ (r : FarReq) (q : List FarReq), x.queue = r :: q → r.issued = true → r.off + 256 ≤ 2 ^ 42 →
      ∀ (line : BitVec 36) (poison : Bool), line.toNat = r.off / 64 →
      ((∀ e ∈ q, e.issued = true) →
        (∀ bs, r.wr = some bs → bs.length ≤ 64 → settles (exec (.farResponse far line poison) s) (fun t => t.farPort f = { x with queue := q } ∧
          (∀ i < bs.length, t.peek (farBase f + r.off + i) = bs.getD i 0#8) ∧
          (∀ l, l < farBase f + r.off ∨ farBase f + r.off + bs.length ≤ l → t.peek l = s.peek l) ∧ t.regs = s.regs)) ∧
        (r.wr = none → s.farPoisoned f r.off r.len = false → poison = false → settles (exec (.farResponse far line poison) s) (fun t =>
          t.farPort f = { x with queue := q } ∧ t.out = .answer 0 (s.peeks (farBase f + r.off) r.len) :: s.out ∧
          t = { s with far := t.far, out := t.out })) ∧
        (r.wr = none → 0 < r.len → poison = true → settles (exec (.farResponse far line poison) s) (fun t =>
          t.farPort f = { x with queue := q } ∧ t.out = .answer 0x28 [] :: s.out ∧ t.mem = s.mem ∧ t.farMem = s.farMem ∧
          t.get F.fpPoisonCount_count [f] = sat 32 (s.get F.fpPoisonCount_count [f] + 1)))) ∧
      (∀ w : FarReq, q = [w] → w.issued = false → settles (exec (.farResponse far line poison) s) (fun t =>
        t.farPort f = { x with queue := [{ w with issued := true }] }))) ∧
    (∀ o : FarOutcome, statusOf (s.ownAt (offPort (8 + f))) ∉ [stFused, stFailed, stRetired] → let cap := min (2 ^ 42) o.size / 2 ^ 28 * 2 ^ 28
      (o.partner = true → 0 < o.width → o.width ≤ 8 → o.rate < 4 → o.type3 = true → o.decodes = true → (x.kept = none ∨ x.kept = some cap) →
        settles (exec (.farPortBringup far o) s) (fun u => u.get F.fpStatus_phase [f] = 5 ∧ u.get F.fpStatus_width [f] = o.width ∧
          u.get F.fpCapacity_bytes [f] = cap ∧
          u.ownAt (offPort (8 + f)) = (if o.width = 8 ∧ o.rate = 3 then entry stGood 0 else entry stDegraded 6))) ∧
      (o.partner = false → settles (exec (.farPortBringup far o) s) (fun u => u.get F.fpStatus_phase [f] = 2 ∧
        u.get F.fpCapacity_bytes [f] = 0 ∧ u.ownAt (offPort (8 + f)) = entry stUnconn 0))) ∧
    (∀ timeout, s.get F.fpStatus_phase [f] = 5 → settles (exec (.farDeviceLost far timeout) s) (fun u => bad u ∧
      u.get F.fpStatus_phase [f] = 6 ∧ u.get F.fpCapacity_bytes [f] = 0 ∧ u.ownAt (offPort (8 + f)) = entry stFailed 6)) ∧
    (s.regServed mHostIo (regAddr .fpControl [f]) = true →
      settles (exec (.fpPerst far) s) (fun u => bad u ∧ u.get F.fpStatus_phase [f] = 0 ∧ u.get F.fpCapacity_bytes [f] = 0 ∧
        u.mem = s.mem ∧ ∀ l, farBase f ≤ l → l < farBase f + 2 ^ 42 → tget none u.farMem l = none) ∧
      settles (exec (.fpRetrain far) s) (fun u => bad u ∧ u.out = x.queue.map (fun _ => Out.answer 0x21 []) ++ s.out ∧
        u.get F.fpRetrainCount_count [f] = sat 32 (s.get F.fpRetrainCount_count [f] + 1) ∧ u.mem = s.mem ∧ u.farMem = s.farMem))

/-- R311 to R317: at an UP port, while THERMTRIP has not stopped the links: a data flit with a good CRC and the SEQ expected is
accepted: one for this chip is delivered and frees its entry, too old ones counted in GF_DROP_COUNT, any other waits in its buffer;
one out of order, or with a bad CRC, which GF_CRC_ERR counts, begins the discard. A good control flit takes what it acknowledges out
of the retry buffer and returns the entries freed since as biscuits; the eighth NAK of one SEQ in a row retrains the port.
BISCUIT_SYNC rebuilds AVAIL from the total, the entries used and the flits not acknowledged, which are replayed. The oldest flit of a
buffer is forwarded with HOPS one lower, its AGE advanced and a biscuit spent, or dropped and counted without hops or route; one that
has waited too long is dropped. -/
def Obligations.FlitsOnPorts : Prop :=
  ∀ (port : PortId) (s : State), let p := port.val; let x := s.gfPort p
    s.power.tripped = false → s.gfState p = gfUp →
    (∀ bytes f, Flit.decode bytes = some f →
      (f.seq = x.rxSeq → f.dst ≠ s.get F.glbChipId_id → answers (exec (.dataFlit port bytes) s) (fun t =>
        t.gfPort p = { x with
          rxSeq := (x.rxSeq + 1) % s.seqMod p, discarding := false
          rx := x.rx ++ [if s.get F.gfStatus_version [p] = 1 then { f with tc := 0 } else f] } ∧
        t = { s with regs := t.regs, gf := t.gf })) ∧
      (f.seq = x.rxSeq → f.dst = s.get F.glbChipId_id → answers (exec (.dataFlit port bytes) s) (fun t =>
        (t.gfPort p).rxSeq = (x.rxSeq + 1) % s.seqMod p ∧ (t.gfPort p).rx = x.rx ∧
        tget 0 (t.gfPort p).freed (pool f.vc f.dclass) = (tget 0 x.freed (pool f.vc f.dclass) + 1) % 2 ^ 16 ∧
        t.get F.gfDropCount_count = sat 32 (s.get F.gfDropCount_count + if s.maxAge < f.age then 1 else 0) ∧
        t = { s with regs := t.regs, gf := t.gf })) ∧
      (f.seq ≠ x.rxSeq → answers (exec (.dataFlit port bytes) s) (fun t => t = { s with gf := t.gf } ∧
        t.gfPort p = { x with discarding := true }))) ∧
    (∀ bytes, leOf (bytes.drop 248) ≠ crc64 (bytes.take 248) → answers (exec (.dataFlit port bytes) s) (fun t =>
      t.gfPort p = { x with discarding := true } ∧ t.get F.gfCrcErr_count [p] = sat 64 (s.get F.gfCrcErr_count [p] + 1) ∧
      t = { s with regs := t.regs, gf := t.gf })) ∧
    (∀ ack nak freed cad, answers (exec (.controlFlit port false ack nak freed cad) s) (fun t =>
      regsOnly s t [regAddr .gfCrcErr [p]] ∧ t.get F.gfCrcErr_count [p] = sat 64 (s.get F.gfCrcErr_count [p] + 1))) ∧
    (∀ (ack : BitVec 12) (freed : List (BitVec 16)) (cad : CadWord), freed.length = 8 → x.queue = [] →
      answers (exec (.controlFlit port true ack none freed cad) s) (fun t =>
        (t.gfPort p).retry = ackRetry (s.seqMod p) ack.toNat x.retry ∧ (t.gfPort p).naks = 0 ∧ t.out = s.out ∧
        ∀ k < 8, t.avail p k = (s.avail p k + ((freed.getD k 0#16).toNat + 2 ^ 16 - tget 0 x.returns k) % 2 ^ 16) % 2 ^ 16)) ∧
    (∀ (ack nak : BitVec 12) (freed : List (BitVec 16)) (cad : CadWord), x.naks = 7 → x.nakSeq = nak.toNat →
      answers (exec (.controlFlit port true ack (some nak) freed cad) s) (fun t => t.gfState p = gfRetraining ∧
        (t.gfPort p).retry = ackRetry (s.seqMod p) ack.toNat x.retry ∧
        t.get F.gfRetrains_count [p] = sat 64 (s.get F.gfRetrains_count [p] + 1))) ∧
    (∀ (total used freed : List (BitVec 16)) (ack : BitVec 12), x.queue = [] →
      answers (exec (.biscuitSync port total used freed ack) s) (fun t =>
        let l := ackRetry (s.seqMod p) ack.toNat x.retry
        (t.gfPort p).retry = l ∧ t.out = (l.map (fun f => Out.dataFlit p f.encode)).reverse ++ s.out ∧
        (∀ k < 8, t.avail p k = (total.getD k 0#16).toNat - (used.getD k 0#16).toNat - (l.filter (fun f => pool f.vc f.dclass == k)).length) ∧
        t.get F.gfReplays_count [p] = sat 64 (s.get F.gfReplays_count [p] + l.length))) ∧
    (∀ (vc : Fin 4) (dc : Fin 2) (us : BitVec 16) (f : Flit), s.oldestRx p (pool vc.val dc.val) = some f →
      let gone (t : State) : Prop := (t.gfPort p).rx = dropFirst (fun y => y == f) x.rx
      ((f.hops = 0 ∨ s.route f.dst = none) → answers (exec (.flitForward port vc dc us) s) (fun t => gone t ∧ t.out = s.out ∧
        t.get F.gfDropCount_count = sat 32 (s.get F.gfDropCount_count + 1))) ∧
      (∀ q dl, f.hops ≠ 0 → s.route f.dst = some (q, dl) → s.dieReach (p / 2) (q / 2) = 0 → s.dieHolds (p / 2) (q / 2) = false → let g := f.leaving dl us.toNat true
        g.age ≤ s.maxAge → s.canSend q g = true → answers (exec (.flitForward port vc dc us) s) (fun t => gone t ∧
          g.hops = f.hops - 1 ∧ g.age = min 0xFFFF (f.age + us.toNat + 1) ∧
          t.out = .dataFlit q ({ g with
            seq := (s.gfPort q).txSeq, tc := if s.get F.gfStatus_version [q] = 1 then 0 else f.tc } : Flit).encode :: s.out ∧
          t.avail q (pool g.vc g.dclass) = s.avail q (pool g.vc g.dclass) - 1)) ∧
      answers (exec (.outputWaitDrop port vc dc) s) (fun t => gone t ∧ t.out = s.out ∧
        t.get F.gfDropCount_count = sat 32 (s.get F.gfDropCount_count + 1)))

/-- R310, R315, R318, R319: a READ or WRITE of a peer that is served does what the access does and is answered with its bytes; an ADD
joins the queue of its channel's adder. The response of its kind to an outstanding request answers its master and ends the
transaction; one of the other kind, or of no request, is discarded; a late one ends the request with ADDR_NO_ROUTE. Management
traffic of an UP port reaches the management controller. A change of a route entry changes no other entry's selection, and settles
its own where that changed; at the end of SETTLE the entry holds no flit back. -/
def Obligations.PeerMessagesAndRoutes : Prop :=
  ∀ (s s1 : State) (src : BitVec 20) (txn : BitVec 16) (tc : Fin 8) (a : Word) (bs : List Byte),
    (∀ len : Fin 257, s.access mPeer tc.val a.toNat (.rd len.val) = (s1, .ok bs) →
      settles (exec (.read src txn tc a len) s) (fun u => u = s1.sendResponse src.toNat txn.toNat tc.val true 0 bs)) ∧
    (∀ w, s.access mPeer tc.val a.toNat (.wr w) = (s1, .ok bs) →
      settles (exec (.write src txn tc a w) s) (fun u => u = s1.sendResponse src.toNat txn.toNat tc.val false 0 bs)) ∧
    (∀ (op : Byte) (v : BitVec 128) (d ch o : Nat), sliceOf a.toNat = some (d, ch, o) →
      s.targetStatus mPeer (.slice d ch o) (addSize op.toNat) = 0 → addInvalid op.toNat a.toNat v.toNat 0 0 = false →
      answers (exec (.addMessage src txn tc a op v 0#8 0#64) s) (fun t => t = { s with chans := t.chans } ∧
        t.chan d ch = { s.chan d ch with adder := (s.chan d ch).adder ++
          [{ op := op.toNat, off := o, operand := v.toNat, master := mPeer, tc := tc.val
             who := .peer src.toNat txn.toNat tc.val false }] })) ∧
    (∀ x : Txn, s.txns.find? (fun y => y.tag == txn.toNat) = some x → x.who = .answer → let q := s.txns.filter (fun y => y.tag != txn.toNat)
      (x.write = false → settles (exec (.readResp txn 0#8 bs) s) (fun u => u.txns = q ∧ u.out = .answer 0 bs :: s.out ∧ u.mem = s.mem) ∧
        exec (.writeAck txn 0#8) s = .next s.kickAll) ∧
      (x.write = true → settles (exec (.writeAck txn 0#8) s) (fun u => u.txns = q ∧ u.out = .answer 0 [] :: s.out ∧ u.mem = s.mem) ∧
        exec (.readResp txn 0#8 bs) s = .next s.kickAll) ∧
      settles (exec (.e2eTimeout txn) s) (fun u => u.txns = q ∧ u.out = .answer 0x22 [] :: s.out ∧ u.mem = s.mem ∧
        u.get F.glbAddrErrCount_count = sat 32 (s.get F.glbAddrErrCount_count + 1))) ∧
    (∀ port : PortId, s.gfState port.val = gfUp → exec (.mgmt port bs) s = .next { s with mgmtIn := s.mgmtIn ++ [(port.val, bs)] }) ∧
    (∀ (isLocal : Bool) (index : Fin 1024) (v : BitVec 32), let r := routeReg isLocal index.val; let e := regAddr r.1 r.2
      (s.regServed mHostIo e = true → answers (exec (.routeChange isLocal index v) s) (fun t =>
        (∀ e', e' ≠ e → t.selects e' = s.selects e') ∧ bits (t.reg r.1 r.2) 0 10 = v.toNat % 2 ^ 10 ∧
        e ∈ t.settling ∧ (∀ e', e' ≠ e → (e' ∈ t.settling ↔ e' ∈ s.settling)) ∧ t = { s with regs := t.regs, settling := t.settling })) ∧
      answers (exec (.settleExpiry isLocal index) s) (fun t => e ∉ t.settling ∧
        t.gfHeld = s.gfHeld.filter (fun f => s.routeEntry f.dst != e) ∧ t.mem = s.mem))

/-- R308, R321 to R327, R330: ENABLE takes a DISABLED port to SEEKING (R440: not in a halted chip) and, cleared, any other to DISABLED with its queues empty; RETRAIN,
no good control flit, or too many uncorrectable codewords take an UP port to RETRAINING, which keeps its retry buffer; a partner with a
common version takes SEEKING to TRAINING; a training at full width leads to QUALIFYING, the third failure to FAILED; a clean window
leads to UP and the map's GOOD, errors to EXCLUDED; a retrain not done in time counts as a first failed attempt; loss of signal leads
from any trained or training state to SEEKING and drops what was queued. GF_RTT takes what is measured. -/
def Obligations.GolfortPortStates : Prop :=
  ∀ (port : PortId) (s : State), let p := port.val; let x := s.gfPort p; let st := s.gfState p
    let retrains (t : State) : Prop := t.gfState p = gfRetraining ∧ (t.gfPort p).retry = x.retry ∧ (t.gfPort p).queue = x.queue ∧
      t.get F.gfRetrains_count [p] = sat 64 (s.get F.gfRetrains_count [p] + 1) ∧ t.mem = s.mem
    (s.regServed mHostIo (regAddr .gfControl [p]) = true →
      (st = gfDisabled → answers (exec (.gfEnable port true) s) (fun t => t.flag F.gfControl_enable [p] = true ∧
        (s.phase ≠ phHalted → t.gfState p = gfSeeking ∧ t.ownAt (offPort p) = entry stUnconn 0) ∧
        (s.phase = phHalted → t.gfState p = gfDisabled ∧ t.own = s.own))) ∧
      (st ≠ gfDisabled → answers (exec (.gfEnable port false) s) (fun t => t.gfState p = gfDisabled ∧
        t.flag F.gfControl_enable [p] = false ∧ (t.gfPort p).queue = [] ∧ (t.gfPort p).retry = [] ∧
        t.get F.gfDropCount_count = sat 32 (s.get F.gfDropCount_count + x.queue.length))) ∧
      (st = gfUp → answers (exec (.gfRetrain port) s) retrains)) ∧
    (st = gfUp → answers (exec (.controlFlitTimeout port) s) retrains ∧ answers (exec (.uncorrectableBurst port) s) retrains) ∧
    (∀ q : GfPartner, st = gfSeeking → s.commonVersion p q.mask ≠ 0 → answers (exec (.partnerFound port q) s) (fun t =>
      t.gfState p = gfTraining ∧ t.get F.gfStatus_version [p] = s.commonVersion p q.mask ∧
      t.get F.gfPartner_chipId [p] = q.chip.toNat ∧ t.get F.gfPartner_port [p] = q.port.val)) ∧
    (∀ rtt : BitVec 32, st = gfTraining →
      answers (exec (.gfTrainingDone port .full rtt) s) (fun t => t.gfState p = gfQualifying ∧ t.get F.gfStatus_width [p] = 8 ∧
        t.get F.gfRtt_ns [p] = rtt.toNat) ∧
      (x.attempts = 2 → answers (exec (.gfTrainingDone port .fail rtt) s) (fun t => t.gfState p = gfFailed ∧
        t.ownAt (offPort p) = entry stFailed 6)) ∧
      (x.attempts < 2 → answers (exec (.gfTrainingDone port .fail rtt) s) (fun t => t = { s with gf := t.gf } ∧
        t.gfPort p = { x with attempts := x.attempts + 1 }))) ∧
    (∀ lanes : BitVec 8, st = gfQualifying → s.get F.gfStatus_width [p] = 8 → x.queue = [] →
      answers (exec (.qualificationWindowEnd port 0#8 false false) s) (fun t => t.gfState p = gfUp ∧
        t.ownAt (offPort p) = entry stGood 0 ∧ (x.retraining = false → ∀ k < 8, t.avail p k = s.biscTotal p k) ∧ t.mem = s.mem) ∧
      (lanes ≠ 0#8 → answers (exec (.qualificationWindowEnd port lanes false false) s) (fun t => t.gfState p = gfExcluded ∧
        t.ownAt (offPort p) = entry stExcluded 6 ∧ t.mem = s.mem))) ∧
    (st = gfRetraining → answers (exec (.retrainTimeout port) s) (fun t => t.gfState p = gfTraining ∧
      t.gfPort p = { x with attempts := 1 } ∧ t.own = s.own)) ∧
    (gfTraining ≤ st → st ≤ gfRetraining → answers (exec (.lossOfSignal port) s) (fun t => t.gfState p = gfSeeking ∧
      (t.gfPort p).queue = [] ∧ (t.gfPort p).retry = [] ∧ (t.gfPort p).rx = x.rx ∧ t.flag F.gfStatus_los [p] = true ∧
      t.ownAt (offPort p) = entry stUnconn 6)) ∧
    (∀ ns : BitVec 32, s.gfTrained p = true → answers (exec (.gfRttMeasurement port ns) s) (fun t =>
      regsOnly s t [regAddr .gfRtt [p]] ∧ t.get F.gfRtt_ns [p] = ns.toNat))

/-- R357: at an UP endpoint, while THERMTRIP has not stopped the links, a good flit with the number expected is handed on, any other
begins the discard, and BX_CRC_ERR counts a bad one. R359: RETRAIN, or no good control flit, takes both ends to RETRAINING. R362: in
UP or RETRAINING a width disagreement takes both ends to DOWN, counts, and makes the usable modules OFFLINE with cause 0x9. R368:
RESTART takes this end alone to LOCKING. R354, R360, R361: training without a bad lane, with a capability word that the running word
admits, trains the modules that are good on both sides: UP at that width, or FAILED below MIN_MODULES; a word not admitted leaves
the partner's die FAILED. R364: with BX_LIVE_SPARE on both dies a spare takes a failed lane's place, and the link stays UP. R367: when
SETTLE ends, the link holds no traffic. R414: a mesh link counts a flit asked for again. -/
def Obligations.BennexLinks : Prop :=
  ∀ (ep : BxId) (s : State), let x := ep.1.val; let e := ep.2.val; let b := s.bxEnd x e; let st := s.bxState x e
    let counts (t : State) (f : Fld) (e n : Nat) : Prop := t.get f [x, e] = sat 32 (s.get f [x, e] + n)
    let retrains (t : State) : Prop := (∀ e < 2, t.bxState x e = bxRetraining ∧ counts t F.bxRetrains_count e 1 ∧
      t.bxEnd x e = s.bxEnd x e ∧ t.get F.bxModules_trained [x, e] = s.get F.bxModules_trained [x, e]) ∧
      t.linkUp x = false ∧ t = { s with regs := t.regs }
    (s.power.tripped = false → st = bxUp → ∀ (seq : BitVec 10) (vc : Fin 4),
      (seq.toNat = b.rxSeq → answers (exec (.bennexFlit ep seq vc true) s) (fun t => t = { s with bx := t.bx } ∧
        t.bxEnd x e = { b with rxSeq := (b.rxSeq + 1) % 1024, discarding := false })) ∧
      (seq.toNat ≠ b.rxSeq → answers (exec (.bennexFlit ep seq vc true) s) (fun t => t = { s with bx := t.bx } ∧
        t.bxEnd x e = { b with discarding := true })) ∧
      answers (exec (.bennexFlit ep seq vc false) s) (fun t => t = { s with regs := t.regs, bx := t.bx } ∧
        t.bxEnd x e = { b with discarding := true } ∧ counts t F.bxCrcErr_count e 1)) ∧
    (st = bxUp → answers (exec (.bxRetrain ep) s) retrains ∧ answers (exec (.bxControlFlitTimeout ep) s) retrains) ∧
    (∀ n : BitVec 16, st = bxUp ∨ st = bxRetraining → settles (exec (.widthDisagree ep n) s) (fun u => u.linkUp x = false ∧
      (∀ e < 2, u.bxState x e = bxDown ∧ counts u F.bxRestarts_count e 1 ∧ counts u F.bxDiscarded_count e n.toNat) ∧
      (∀ m < 16, u.ownAt (offMod x m) =
        if usableSt (statusOf (s.ownAt (offMod x m))) then entry stOffline 9 else s.ownAt (offMod x m)) ∧ u.mem = s.mem)) ∧
    (∀ n : BitVec 16, s.regServed mHostIo (regAddr .bxControl [x, e]) = true →
      settles (exec (.bxRestart ep n) s) (fun u => u.bxState x e = bxLocking ∧ u.bxState x (1 - e) = s.bxState x (1 - e) ∧
        u.linkUp x = false ∧ counts u F.bxRestarts_count e 1 ∧ counts u F.bxDiscarded_count e n.toNat ∧
        u = { s with regs := u.regs, bx := u.bx })) ∧
    (∀ (partner : BitVec 16) (cap0 cap1 : Word), st ≠ bxUp → st ≠ bxFailed → b.reported = none →
      let r0 := s.get F.bxCapRunning_word [0]; let r1 := s.get F.bxCapRunning_word [1]
      let admits := r0 = 0 ∨ capAdmits cap0.toNat cap1.toNat r0 r1 = true
      let good := maskOf ((List.range 16).filter (fun m => decide (64 ≤ (s.usableLanes x m).length)))
      let w := popcount (Nat.land good partner.toNat) 16
      let least := max 1 (min 16 (s.get F.bxControl_minModules [x, e]))
      (admits → least ≤ w → settles (exec (.bxTraining ep [] partner cap0 cap1) s) (fun u => u.bxState x e = bxUp ∧
        u.get F.bxStatus_width [x, e] = w ∧ u.get F.bxModules_good [x, e] = good ∧
        u.get F.bxModules_trained [x, e] = Nat.land good partner.toNat ∧ u.own = s.own ∧
        (st ≠ bxRetraining → ∀ v < 4, u.get F.bxBisc_avail [x, e, v] = s.get F.bxBisc_total [x, e, v]) ∧
        u = { s with regs := u.regs, bxHeld := u.bxHeld })) ∧
      (admits → w < least → settles (exec (.bxTraining ep [] partner cap0 cap1) s) (fun u => u.bxState x e = bxFailed ∧
        ∀ m < 16, u.ownAt (offMod x m) = entry stFailed 6)) ∧
      (¬ admits → settles (exec (.bxTraining ep [] partner cap0 cap1) s) (fun u => u.bxState x e = bxAgreeing ∧
        u.flag F.bxStatus_capRefused [x, e] = true ∧ u.ownAt (offDie (bxDie x (1 - e))) = entry stFailed 6))) ∧
    (∀ (m : Fin 16) (l : Fin 68), st = bxUp → usableSt (statusOf (s.ownAt (offLane x m.val l.val))) = true →
      (bit (Config.fusedCap (bxDie x 0) 1) 8 = true → bit (Config.fusedCap (bxDie x 1) 1) 8 = true →
        64 < (s.usableLanes x m.val).length → answers (exec (.bxLiveSpare ep m l) s) (fun t =>
          t.bxState x e = bxUp ∧ t.ownAt (offLane x m.val l.val) = entry stFailed 6 ∧
          t.usableLanes x m.val = (s.usableLanes x m.val).filter (fun k => k != l.val) ∧
          ∀ e < 2, t.get F.bxSpare_lane0 [x, e, m.val] = (t.usableLanes x m.val).getD 60 0 ∧
            t.get F.bxSpare_lane1 [x, e, m.val] = (t.usableLanes x m.val).getD 61 0 ∧
            t.get F.bxSpare_lane2 [x, e, m.val] = (t.usableLanes x m.val).getD 62 0 ∧
            t.get F.bxSpare_lane3 [x, e, m.val] = (t.usableLanes x m.val).getD 63 0)) ∧
      ((s.usableLanes x m.val).length ≤ 64 → answers (exec (.bxLiveSpare ep m l) s) retrains)) ∧
    (∀ link : Fin 4, settles (exec (.bxRouteSettleExpiry link) s) (fun t => t = { s with bxHeld := t.bxHeld } ∧
      ∀ y, y ∈ t.bxHeld ↔ y ∈ s.bxHeld ∧ y ≠ link.val)) ∧
    (∀ (die : DieId) (router : Fin 16) (dir : Fin 4), s.dieUsable die.val = true → let k := meshKey die.val router.val dir.val
      answers (exec (.meshRetransmit die router dir) s) (fun t => t = { s with mesh := t.mesh } ∧
        tget 0 t.mesh k = tget 0 s.mesh k + 1 ∧ ∀ j, j ≠ k → tget 0 t.mesh j = tget 0 s.mesh j))

/-- R331 to R333, R335, R336, R340, while D0 is not in reset: 64 ticks in a row within 2 ns take FREE to ACQUIRING, 1,000 within 10 ns
ACQUIRING to LOCKED, three missing ticks in a row LOCKED to HOLDOVER, 16 within 250 ns HOLDOVER to LOCKED; a tick further off, or
HOLD_LIMIT, takes HOLDOVER to FREE, where the groups are NONE. Every edge of the counter advances the count by one, or applies the
count adopted; the first edge of the root in LOCKED takes CAD_SET. A chip that is not agreed adopts the count that an agreed word
implies; an agreed chip keeps its own and notes a mismatch. REAGREE clears AGREED. That the edge is the tick in ACQUIRING and LOCKED
and the die's own in FREE and HOLDOVER is the model's choice (log entry 131). -/
def Obligations.CadenceCounter : Prop :=
  ∀ s : State, s.dieInReset 0 = false → let st := s.cadState; let n := s.cad.inRow
    let root := s.flag F.cadCtl_root; let agreed := s.flag F.cadStatus_agreed
    -- the count after an edge, in LOCKED or not
    let edge (locked : Prop) (t : State) : Prop := t.cad.adopted = none ∧ t.get F.cadPhase_ns = 0 ∧
      (∀ v, s.cad.adopted = some v → t.get F.cadCount_count = (v + 1) % 2 ^ 64 ∧ t.flag F.cadStatus_agreed = true) ∧
      (s.cad.adopted = none → locked → root = true → agreed = false →
        t.get F.cadCount_count = s.get F.cadSet_count ∧ t.flag F.cadStatus_agreed = true) ∧
      (s.cad.adopted = none → (¬ locked ∨ root = false ∨ agreed = true) →
        t.get F.cadCount_count = (s.get F.cadCount_count + 1) % 2 ^ 64 ∧ t.flag F.cadStatus_agreed = agreed)
    let only (t : State) : Prop := t = { s with regs := t.regs, cad := t.cad }
    let goes (o : Result) (v row : Nat) (P : State → Prop) : Prop :=
      settles o (fun u => only u ∧ u.cadState = v ∧ u.cad.inRow = row ∧ P u)
    let keeps (t : State) : Prop := t.get F.cadCount_count = s.get F.cadCount_count
    let free (u : State) : Prop := u.cadState = cadFree ∧ u.flag F.cadStatus_agreed = false ∧ u.cad = {} ∧ u.mem = s.mem ∧
      ∀ k, tget none u.groups k = none
    let noneRuns : Prop := ∀ e ∈ s.groups, e.1 < 256 ∧ (∀ x, e.2 = some x → x.run = none) ∧ s.groupState (e.1 / 64) (e.1 % 64) ≠ grForming
    (∀ err : Int, let o := exec (.cadenceTick err) s
      (st = cadFree → (err.natAbs ≤ 2 → n + 1 < 64 → goes o cadFree (n + 1) keeps) ∧
        (err.natAbs ≤ 2 → 64 ≤ n + 1 → goes o cadAcquiring 0 keeps) ∧ (2 < err.natAbs → goes o cadFree 0 keeps)) ∧
      (st = cadAcquiring → (err.natAbs ≤ 10 → n + 1 < 1000 → goes o cadAcquiring (n + 1) (edge False)) ∧
        (err.natAbs ≤ 10 → 1000 ≤ n + 1 → goes o cadLocked 0 (edge True)) ∧
        (10 < err.natAbs → goes o cadAcquiring 0 (edge False))) ∧
      (st = cadLocked → goes o cadLocked 0 (fun u => edge True u ∧ u.cad.missed = 0)) ∧
      (st = cadHoldover → (err.natAbs ≤ 250 → n + 1 < 16 → goes o cadHoldover (n + 1) keeps) ∧
        (err.natAbs ≤ 250 → 16 ≤ n + 1 → goes o cadLocked 0 keeps) ∧ (250 < err.natAbs → noneRuns → settles o free))) ∧
    (st = cadLocked → answers (exec .tickMissing s) (fun t => only t ∧ edge True t ∧
      (s.cad.missed < 2 → t.cadState = cadLocked ∧ t.cad.missed = s.cad.missed + 1) ∧
      (2 ≤ s.cad.missed → t.cadState = cadHoldover ∧ t.flag F.cadStatus_tickLoss = true))) ∧
    (st = cadHoldover → noneRuns → settles (exec .holdLimitExpiry s) (fun u => free u ∧ u.flag F.cadStatus_holdExpired = true)) ∧
    (st = cadHoldover ∨ st = cadFree → answers (exec .localEdge s) (fun t => only t ∧ t.cadState = st ∧ edge False t)) ∧
    (s.regServed mHostIo (regAddr .cadCtl []) = true → answers (exec .reagree s) (fun t => only t ∧
      t.flag F.cadStatus_agreed = false ∧ t.cad = { s.cad with adopted := none } ∧ t.cadState = st ∧ keeps t)) ∧
    (∀ (p v : Nat) (w : CadWord), p < 8 → w.agreed = true → s.gfState p = gfUp → wordCount w (s.get F.gfRtt_ns [p]) = some v →
      (agreed = false → st = cadLocked ∨ st = cadHoldover → root = false → s.cad.adopted = none →
        s.hearCadence p w = { s with cad := { s.cad with adopted := some v } }) ∧
      (agreed = true → v ≠ s.get F.cadCount_count → only (s.hearCadence p w) ∧ keeps (s.hearCadence p w) ∧
        (s.hearCadence p w).flag F.cadStatus_mismatch = true ∧
        bit ((s.hearCadence p w).get F.cadMismatchPorts_ports) p = true))

/-- R328, R339, R340, R345, R349: FORM of a member that agrees reaches the leader, is echoed and noted; the last one completes the
formation with H, and the entry is FORMED; a different anchor ends it with ANCHOR_MISMATCH at every member. A member answers a GRANT
with its FORM, takes its latency from the echo, and enters FORMED with FORMED; REFUSE, and FORM_TICK, end its formation: the entry
is NONE and STATUS takes the code. Members that are FORMED or RUNNING send HEARTBEAT; one of the predecessor ends a row of missed
ones; the MISS_LIMIT-th in a row, or a LOST word, takes the entry to REFORMING, and FORMED, or the end of re-formation's time, out of
it. A group word seen is taken once, until it is forgotten. -/
def Obligations.GroupFormation : Prop :=
  ∀ (s : State) (group : BitVec 16) (d i : Nat) (x : Group), d < 4 → s.findGroup group.toNat = some (d, i, x) →
    tget none s.groups (64 * d + i) = some x →
    let st := s.groupState d i; let n := s.groupN d i; let me := s.groupIndex d i; let lead := s.isLeader d i
    let holds (t : State) (y : Group) (v : Nat) : Prop := tget none t.groups (64 * d + i) = some y ∧ t.groupState d i = v
    let ends (o : Result) (code : Nat) : Prop := settles o (fun u => u = (s.clearGroup d i).formStatus d x.addr x.sigAddr code)
    let formed (h : Nat) : Group := { x with h := h, forms := [], beats := [], missed := 0, lost := none }
    (tget none (s.clearGroup d i).groups (64 * d + i) = none ∧ (s.clearGroup d i).groupState d i = grNone) ∧
    (∀ code, x.sigAddr = 0 → (s.clearGroup d i).formStatus d x.addr x.sigAddr code =
      (s.clearGroup d i).postWrite (mColl d) 0 (x.addr + 0x30) (leBytes 4 (0x100 + code))) ∧
    (∀ (index : BitVec 19) (n' spares crc ns : BitVec 32) (anchor : BitVec 16),
      lead = true → st = grForming → index.toNat ∉ x.forms → index.toNat < x.members.length →
      let o := exec (.form group index n' spares anchor crc ns) s
      let y := { x with forms := nsIns x.forms index.toNat, latency := max x.latency ns.toNat }
      (anchor.toNat ≠ x.anchor → settles o (fun u => ∃ t : State, t = { s with out := t.out } ∧
        (∀ k < x.members.length, k ≠ me → Out.coll (x.members.getD k 0) ckRefuse group.toNat 0 me ccAnchor 0 [] ∈ t.out) ∧
        u = (t.clearGroup d i).formStatus d x.addr x.sigAddr ccAnchor)) ∧
      (anchor.toNat = x.anchor → n'.toNat = n → spares.toNat = x.spares → crc.toNat = tableCrc x.members → x.lost = none →
        ((∃ k < n, k ∉ y.forms) → settles o (fun u => holds u y grForming ∧ u.mem = s.mem ∧
          Out.coll (x.members.getD index.toNat 0) ckEcho group.toNat 0 me 0 0 [] ∈ u.out)) ∧
        ((∀ k < n, k ∈ y.forms) → settles o (fun u =>
          holds u { formed (2 + (2 * y.latency + 999) / 1000) with latency := y.latency } grFormed)))) ∧
    (∀ flits : BitVec 16, lead = false → st = grForming → settles (exec (.grant group flits (BitVec.ofNat 64 me)) s) (fun u =>
      u = { s with free := u.free, out := u.out } ∧ u.out = .coll (x.members.getD 0 0) ckForm group.toNat 0 me 0 0
        [(n, x.spares), (x.anchor, tableCrc x.members), (Config.cycles s.free, 0)] :: s.out)) ∧
    (∀ ns : BitVec 32, lead = false → settles (exec (.formEcho group ns) s) (fun u => u = { s with groups := u.groups } ∧
      holds u { x with latency := ns.toNat } st)) ∧
    (∀ h : BitVec 32, (lead = false → st = grForming → settles (exec (.formed group h []) s) (fun u => holds u (formed h.toNat) grFormed)) ∧
      (st = grReforming → settles (exec (.formed group h []) s) (fun u => holds u (formed h.toNat) grFormed))) ∧
    (st = grForming → (x.formTick ≤ s.get F.cadCount_count → ends (exec (.formTimeout group) s) ccFormTimeout) ∧
      ∀ code : Byte, ends (exec (.refuse group code) s) code.toNat) ∧
    (∀ die : DieId, die.val = d → st = grFormed ∨ st = grRunning → answers (exec (.heartbeatSend die) s) (fun t => t = { s with out := t.out } ∧
      Out.coll (x.members.getD (if me < n then ringNext n me else 0) 0) ckBeat (s.get F.collEntry_group [d, i]) 0 me 0 0 [] ∈ t.out)) ∧
    (∀ index : BitVec 19, st = grFormed ∨ st = grRunning →
      (n ≤ index.toNat → answers (exec (.heartbeat group index) s) (fun t => t = { s with groups := t.groups } ∧
        holds t { x with beats := nsIns x.beats index.toNat } st)) ∧
      (index.toNat < n → index.toNat = ringPrev n me → answers (exec (.heartbeat group index) s) (fun t =>
        t = { s with groups := t.groups } ∧ holds t { x with missed := 0 } st))) ∧
    (st = grFormed ∨ st = grRunning → me < n → let limit := max 1 (s.get F.collCtl_missLimit [d])
      (x.missed + 1 < limit → settles (exec (.heartbeatMiss group) s) (fun u => u = { s with groups := u.groups } ∧
        holds u { x with missed := x.missed + 1 } st)) ∧
      (limit ≤ x.missed + 1 → x.run = none → 3 ≤ n → settles (exec (.heartbeatMiss group) s) (fun u => u.groupState d i = grReforming ∧
        (∃ y, tget none u.groups (64 * d + i) = some y ∧ y.lost = some (ringPrev n me)) ∧
        (∀ p < 8, s.gfState p = gfUp → Out.groupWord p 3 group.toNat (ringPrev n me) x.hops ∈ u.out) ∧ u.mem = s.mem))) ∧
    (∀ (port : PortId) (index : BitVec 19) (ttl : Byte), s.words.contains (3, group.toNat, index.toNat) = false →
      st = grFormed ∨ st = grRunning → x.run = none → 3 ≤ n → index.toNat < n → me < n →
      settles (exec (.lost port group index ttl) s) (fun u => u.groupState d i = grReforming ∧ u.mem = s.mem ∧
        (∃ y, tget none u.groups (64 * d + i) = some y ∧ y.lost = some index.toNat) ∧
        (ttl ≠ 0#8 → ∀ p < 8, p ≠ port.val → s.gfState p = gfUp →
          Out.groupWord p 3 group.toNat index.toNat (ttl.toNat - 1) ∈ u.out))) ∧
    (st = grReforming → settles (exec (.reformTimeout group) s) (fun u => u = s.clearGroup d i)) ∧
    (∀ (kind : Fin 4) (value : Word), answers (exec (.groupWordExpiry kind group value) s) (fun t => t = { s with words := t.words } ∧
      ∀ w, w ∈ t.words ↔ w ∈ s.words ∧ w ≠ (kind.val, group.toNat, value.toNat)))

/-- R342 to R348: a phase starts at its tick, when this member's part of the last one is performed and the Clamp does not hold it, and
sends what the algorithm takes: its own chunk as terms, or the chunk it holds, to the successor, and in a barrier to ROOT. DATA of a
chunk that is reduced adds this member's own value; a barrier's message, and its release, are noted. Two ticks before a phase that
cannot start, a LATE word leaves, and this member's phases and those of every member that hears it move by SLIP_STEP, counted towards
MAX_SLIP. Once the final phase is performed the collective ends: the group FORMED, the command's flags joined, STATUS written, the
signal sent, the event set, in that order, and COLL_RUNS counted; a FAIL word ends it COLL_MEMBER_FAILED. -/
def Obligations.CollectivePhases : Prop :=
  ∀ (s : State) (group : BitVec 16) (d i : Nat) (x : Group) (r : CollRun), d < 4 → s.findGroup group.toNat = some (d, i, x) →
    tget none s.groups (64 * d + i) = some x → x.run = some r →
    let n := s.groupN d i; let me := s.groupIndex d i; let p := r.phase; let total := phasesOf r.op n
    let has (t : State) (y : CollRun) : Prop := tget none t.groups (64 * d + i) = some { x with run := some y }
    (s.groupState d i = grRunning → p < total → let y := { r with phase := p + 1, ticks := r.nextTick :: r.ticks }
      let t := (s.putRun d i x y).put F.collEntryTick_next [d, i] (if p + 1 < total then y.nextTick else 0)
      let reached := x.members.getD (ringNext n me) 0 = s.get F.glbChipId_id ∨ s.route (x.members.getD (ringNext n me) 0) ≠ none
      let leaves (o : Result) (t : State) (l : List (Nat × Nat)) : Prop := settles o (fun u =>
        u = { t with out := .coll (x.members.getD (ringNext n me) 0) ckData group.toNat p me 0 0 l :: t.out } ∧ has u y)
      (s.get F.cadCount_count < r.nextTick ∨ s.clampHolds = true ∨ (p ≠ 0 ∧ partDone r n me (p - 1) = false) →
        exec (.phaseStart group) s = .next s.kickAll) ∧
      (r.nextTick ≤ s.get F.cadCount_count → s.clampHolds = false → (p = 0 ∨ partDone r n me (p - 1) = true) →
        (r.op = opBarrier → p = 0 → me ≠ r.root → settles (exec (.phaseStart group) s) (fun u =>
          u = { t with out := .coll (x.members.getD r.root 0) ckData group.toNat 0 me 0 0 [] :: t.out } ∧ has u y)) ∧
        (∀ c partial', r.op ≤ opAllgather → reached → p ≠ 0 → sendsChunk r.op n me p = some (c, partial') →
          leaves (exec (.phaseStart group) s) t (msgElems (y.held (chunkSpan r.elems n c).1 (chunkSpan r.elems n c).2))) ∧
        (∀ c q q' s1 l, r.op ≤ opReduceScatter → reached → p = 0 → sendsChunk r.op n me 0 = some (c, true) → r.src = some q → r.dst = some q' →
          t.collReads (mColl d) r.tc q (chunkSpan r.elems n c).1 (chunkSpan r.elems n c).2 = (s1, .done, l) →
          let terms := l.map (fun v => (v.1, ownTerm r.wsf q (toSigned 10 x.anchor) v.2))
          settles (exec (.phaseStart group) s) (fun u => u = { s1 with groups := u.groups, out := u.out } ∧
            u.out = .coll (x.members.getD (ringNext n me) 0) ckData group.toNat 0 me 0 0 (msgElems terms) :: s1.out ∧
            ∃ f, has u { y with aflags := f })))) ∧
    (∀ (phase index : BitVec 19) (first : BitVec 32) (v : BitVec 128) (tag : Byte) (q q' : Desc) (s1 : State) (own : Wsf),
      r.op ≤ opReduceScatter → let k := phase.toNat; let e := (expects r.op n me r.root k r.elems).1 + first.toNat
      index.toNat = ringPrev n me → k = p ∨ k + 1 = p → k < n - 1 → k ≠ n - 2 → r.src = some q → r.dst = some q' →
      e < (expects r.op n me r.root k r.elems).2 → gotKey k e ∉ r.got → s.collRead (mColl d) r.tc q e = (s1, .done, own) →
      settles (exec (.collData group phase index first [(v, tag)]) s) (fun u => u = { s1 with groups := u.groups } ∧
        ∃ y, has u y ∧ y.phase = p ∧ tget Wsf.zero y.work e = collAdd r.wsf ⟨v, tag⟩ (ownTerm r.wsf q (toSigned 10 x.anchor) own) ∧
          (∀ j, j ≠ e → tget Wsf.zero y.work j = tget Wsf.zero r.work j) ∧ ∀ g, g ∈ y.got ↔ g = gotKey k e ∨ g ∈ r.got)) ∧
    (∀ (index : BitVec 19) (first : BitVec 32) (l : List (BitVec 128 × Byte)), r.op = opBarrier → me = r.root → index.toNat < n →
      settles (exec (.collData group 0#19 index first l) s) (fun u => u = { s with groups := u.groups } ∧
        has u { r with arrived := nsIns r.arrived index.toNat })) ∧
    (r.op = opBarrier → settles (exec (.release group) s) (fun u => u = { s with groups := u.groups } ∧
      has u { r with arrived := nsIns r.arrived r.root })) ∧
    (let slipped : CollRun := { r with shift := r.shift + r.slipStep, slips := r.slips + r.slipStep }
      let v := r.nextTick + r.slipStep
      p < total → (∀ k ∈ r.ticks, k < r.nextTick) → r.slips + r.slipStep ≤ r.maxSlip →
      (∀ busy : Bool, r.nextTick ≤ s.get F.cadCount_count + 2 → (p ≠ 0 ∧ partDone r n me (p - 1) = false) ∨ s.clampHolds = true ∨ busy = true →
        settles (exec (.lateCheck group busy) s) (fun u => has u slipped ∧ u.mem = s.mem ∧
          (∀ k < 8, s.gfState k = gfUp → Out.groupWord k 1 group.toNat v x.hops ∈ u.out) ∧
          u.get F.cadLateSent_count = sat 32 (s.get F.cadLateSent_count + 1) ∧
          u.get F.cadSlipTicks_count = sat 32 (s.get F.cadSlipTicks_count + r.slipStep))) ∧
      (∀ (port : PortId) (value : Word) (ttl : Byte), value.toNat = v → s.words.contains (1, group.toNat, v) = false →
        settles (exec (.late port group value ttl) s) (fun u => has u slipped ∧ u.mem = s.mem ∧
          u.get F.cadLateRecv_count = sat 32 (s.get F.cadLateRecv_count + 1) ∧
          u.get F.cadSlipTicks_count = sat 32 (s.get F.cadSlipTicks_count + r.slipStep)))) ∧
    (let t1 := ((s.setGroup d i (some { x with run := none })).puts
        [(F.collEntry_state, [d, i], grFormed), (F.collEntryTick_next, [d, i], 0)]).modSlot r.core r.slot
          (fun sl => { sl with aflags := sl.aflags ||| r.aflags })
      let t2 := t1.postWrite (mColl d) r.tc (r.addr + 0x38) (leBytes 4 0x100)
      let t3 := if r.sigAddr = 0 then t2 else t2.unitSignal (mColl d) r.tc r.sigAddr
      let t4 := match r.event with | some e => t3.setEvent r.core e | none => t3
      total ≤ p → partDone r n me (total - 1) = true → settles (exec (.collectiveEnd group) s) (fun u => u = t4.bump F.collRuns_count [d])) ∧
    (∀ (port : PortId) (code ttl : Byte), s.words.contains (2, group.toNat, code.toNat) = false →
      settles (exec (.collFail port group code ttl) s) (fun u => u.get F.collLastFail_code [d] = ccMemberFailed ∧
        u.get F.collLastFail_group [d] = s.get F.collEntry_group [d, i]))

/-- R394, R395: a sample gives each hot spot its fused value and SRC by the first row that matches: both readings implausible, one, both
plausible and more than 4 K apart, or the mean rounded up; disagreements and substituted values are counted, and 10,000 of these in a
row set SENSOR_LOST. R397, R398: a model update takes the predictions, and forms each layer estimate as the fused value of the core's
spot plus the offset clamped to [−30 K, +10 K], reported to the layer's channels. R399: a Clamp update moves each core's throttle
towards GAIN × excess, capped at 63/64, by at most 8/64 up and 1/64 down, and likewise each channel's. R401: a die that has overheated
for 1 ms while a collective runs enters stage 2, which counts, and cuts the collective classes' budgets. R402: at 105 °C THERMTRIP
sets TRIP and halts issue. -/
def Obligations.ThermalControl : Prop :=
  ∀ (die : DieId) (s : State), let d := die.val
    (∀ rs : List (BitVec 11 × BitVec 11), answers (exec (.thermalSample die rs) s) (fun t =>
      t = { s with regs := t.regs, power := t.power } ∧
      t.get F.thDisagreeCount_count [d] = sat 32 (s.get F.thDisagreeCount_count [d] +
        ((rs.take 20).filter (fun r => decide (32 < gap r.1.toNat r.2.toNat))).length) ∧
      (∀ i < 20, rs.length ≤ i → t.get F.thHotspot_fused [d, i] = s.get F.thHotspot_fused [d, i]) ∧
      ∀ (i : Nat) (a b : BitVec 11), i < 20 → rs[i]? = some (a, b) →
        let est := tget 0 s.power.estimate (20 * d + i)
        let nb := (s.neighbours d i).map (fun j => s.get F.thHotspot_fused [d, j])
        let bad (r : BitVec 11) : Prop := 64 < gap r.toNat est ∧ (r.toNat + 32 < nb.foldl min (nb.headD 0) ∨ nb.foldl max 0 + 96 < r.toNat)
        let gives (v src : Nat) : Prop := t.get F.thHotspot_fused [d, i] = v ∧ t.get F.thHotspot_src [d, i] = src
        let run := tget 0 t.power.substituted (20 * d + i)
        (bad a → bad b → gives (sat 11 (est + 40)) 3 ∧ run = tget 0 s.power.substituted (20 * d + i) + 1) ∧
        (bad a → ¬ bad b → gives b.toNat 2 ∧ run = 0) ∧ (¬ bad a → bad b → gives a.toNat 2 ∧ run = 0) ∧
        (¬ bad a → ¬ bad b → 32 < gap a.toNat b.toNat → gives (max a.toNat b.toNat) 1 ∧ run = 0) ∧
        (¬ bad a → ¬ bad b → gap a.toNat b.toNat ≤ 32 → gives ((a.toNat + b.toNat + 1) / 2) 0 ∧ run = 0))) ∧
    (∀ spot : Fin 20, 10000 ≤ tget 0 s.power.substituted (20 * d + spot.val) → answers (exec (.sensorLost die spot) s) (fun t =>
      regsOnly s t [regAddr .thStatus [d]] ∧ t.flag F.thStatus_sensorLost [d] = true ∧
      t.get F.thStatus_stage [d] = s.get F.thStatus_stage [d])) ∧
    (∀ (spots : List (BitVec 11 × BitVec 11)) (offsets : List Int) (pred : List (BitVec 11)),
      answers (exec (.thermalModelUpdate die spots offsets pred) s) (fun t => t.mem = s.mem ∧ t.chans = s.chans ∧
        (∀ (i : Nat) (e p : BitVec 11), i < 20 → spots[i]? = some (e, p) → t.get F.thHotspot_pred [d, i] = p.toNat ∧
          tget 0 t.power.estimate (20 * d + i) = e.toNat) ∧
        (∀ i p, i < 64 → pred[i]? = some p → tget 0 t.power.layerPred (64 * d + i) = p.toNat) ∧
        ∀ k < 16, ∀ j < 4,
          let e := ((s.get F.thHotspot_fused [d, k] : Int) + max (-240) (min 80 (offsets.getD (4 * k + j) 0))).toNat
          bits (t.get F.thLayer_est [d, k]) (11 * j) 11 = sat 11 e ∧
          ∀ n < 8, t.get F.slcLayerTemp_temp [16 * d + k, 8 * j + n] = sat 11 e)) ∧
    answers (exec (.clampUpdate die) s) (fun t => t.mem = s.mem ∧ ∀ k < 16, let gain := max 1 (s.get F.thTargets_gain [d])
      let moves (excess old now : Nat) : Prop := let new := min 63 (gain * excess / 8)
        (old < new → now = min new (old + 8)) ∧ (new ≤ old → now = max new (old - 1))
      moves (max (max (s.logicExcess d k) (s.edgeExcess d)) (s.stackExcess d k)) (s.get F.thClamp_theta [d, k])
        (t.get F.thClamp_theta [d, k]) ∧
      ∀ n < 32, moves (s.layerExcess d k (n / 8)) (tget 0 s.power.thetaN (512 * d + 32 * k + n)) (tget 0 t.power.thetaN (512 * d + 32 * k + n))) ∧
    (s.runs ≠ [] → s.overheats d = true → 10 ≤ tget 0 s.power.hot d → s.get F.thStatus_stage [d] < 2 →
      answers (exec (.stage2Entry die) s) (fun t => t.get F.thStatus_stage [d] = 2 ∧ t.clampHolds = true ∧ t.mem = s.mem ∧
        t.get F.thStage2Count_count [d] = sat 32 (s.get F.thStage2Count_count [d] + 1) ∧
        ∀ r ∈ s.runs, r.tc < 8 → t.get F.netTcClamp_budget [d, r.tc] = (max 1 (s.get F.thNetBase_base [d]) + 63) / 64)) ∧
    ((∃ i < 20, 840 ≤ s.get F.thHotspot_fused [d, i]) → answers (exec (.thermtrip die) s) (fun t => t.issueHalted = true ∧
      (∀ k < 4, t.flag F.thStatus_trip [k] = true) ∧ t.get F.thStatus_stage [d] = 3 ∧ t.get F.pwrStatus_state = 4 ∧
      t = { s with regs := t.regs, power := { s.power with tripped := true } }))

/-- R403, R404, R476: from BOOT on a valid coolant report is taken; low or halved flow, or a fault, begins a coolant stop, which halts
issue and sheds to the floor; one that is not valid is discarded, and 30 ms without one set TELEM_LOST. R405, R406: a measurement moves
the limiter's duty and notes an excursion; at a tick P_a rises by RAMP_UP, from its stagger tick on and up to the cap and the demand,
or falls by RAMP_DOWN to the floor or the demand. R409, R475: in service a sag sets P_a to the floor and ride-through halts issue, and its release lets it
go on. R471: VDD_CORE takes 0.650 to 0.850 V in steps of 5 mV; without an acknowledgement P_a is at most 1,200 W. R476: a read of the
I3C target gives the phase, the state, TRIP and the hottest fused value. -/
def Obligations.PowerAndCoolant : Prop :=
  ∀ s : State, let q := s.power; let floor := 10 * s.get F.pwrFloor_w; let pa := q.allowed
    let only (t : State) : Prop := t = { s with regs := t.regs, power := t.power }
    (∀ bytes : List Byte, s.i3cAnswers = true → let v := leOf bytes; let flow := bits v 48 16
      let valid := bytes.length = 12 ∧ crc8 (bytes.take 11) = bits v 88 8 ∧ q.seq ≠ some (bits v 0 16) ∧ bits v 65 7 = 0 ∧ bits v 72 16 = 0
      let ends := (23 * flow : Int) < 46000 + 10 * ((BitVec.ofNat 16 (bits v 16 16)).toInt - 1700) ∨ (∃ f ∈ q.flows, 2 * flow < f) ∨ bit v 64 = true
      (¬ valid → exec (.coolantReport bytes) s = .next s.kickAll) ∧
      (valid → settles (exec (.coolantReport bytes) s) (fun u => only u ∧ u.get F.pwrCoolant_flow = flow ∧
        u.get F.pwrCoolant_inlet = bits v 16 16 ∧ u.get F.pwrCoolant_outlet = bits v 32 16 ∧ u.power.seq = some (bits v 0 16) ∧
        (q.stopped = false → ends → u.power.stopped = true ∧ u.power.allowed = floor ∧ u.issueHalted = true ∧
          u.get F.pwrStopCount_count = sat 32 (s.get F.pwrStopCount_count + 1)) ∧
        (q.stopped = false → ¬ ends → u.power.stopped = false ∧ u.power.allowed = pa)))) ∧
    answers (exec .telemLost s) (fun t => regsOnly s t [regAddr .pwrStatus []] ∧ t.flag F.pwrStatus_telemLost = true) ∧
    (∀ w glue : BitVec 16, let p := w.toNat; let dp := s.get F.pwrMeasured_dP
      answers (exec (.powerMeasure w glue) s) (fun t => only t ∧ t.power.allowed = pa ∧ t.get F.pwrMeasured_pW = p ∧
        t.get F.pwrMeasured_glueW = glue.toNat ∧
        (pa < 10 * p → t.get F.pwrMeasured_dP = dp * pa / (10 * p)) ∧ (10 * p ≤ pa → t.get F.pwrMeasured_dP = min 64 (dp + 1)) ∧
        (∀ d k : Nat, d < 4 → k < 16 → t.get F.thClamp_duty [d, k] = max 1 (min (64 - s.get F.thClamp_theta [d, k]) (t.get F.pwrMeasured_dP))) ∧
        (2200 < p → t.flag F.pwrStatus_excursion = true) ∧
        t.get F.pwrExcursions_count = sat 32 (s.get F.pwrExcursions_count + if 2200 < p ∧ q.above = false then 1 else 0))) ∧
    (s.issueHalted = false → q.sag = false → s.avsHold = false → let dp := s.get F.pwrMeasured_dP; let p := s.get F.pwrMeasured_pW
      ∀ demand, ((0 < dp → dp < 64 → demand = 640 * p / dp) ∧ (64 ≤ dp → demand = 10 * (p - s.get F.pwrMeasured_glueW))) → 0 < dp →
      let may := s.flag F.pwrStatus_rising = true ∨
        s.get F.cadCount_count % max 1 (s.get F.pwrStagger_period) = s.get F.pwrStagger_offset
      answers (exec .allowedPowerUpdate s) (fun t => only t ∧
        (pa < demand → may → t.power.allowed = min demand (min (pa + max 1 (s.get F.pwrRamp_up)) (10 * s.get F.pwrCap_w)) ∧
          t.flag F.pwrStatus_rising = true) ∧
        (pa < demand → ¬ may → t.power.allowed = pa) ∧
        (demand ≤ pa → t.power.allowed = max demand (max (pa - s.get F.pwrRamp_down) floor) ∧ t.flag F.pwrStatus_rising = false))) ∧
    (q.inService = false → exec .supalert0 s = .next s ∧ exec .supalert1 s = .next s) ∧
    (q.sag = false → q.inService = true → answers (exec .supalert0 s) (fun t => only t ∧ t.power.sag = true ∧
      t.get F.pwrSagCount_count = sat 32 (s.get F.pwrSagCount_count + 1) ∧
      (q.ride = false → t.power.allowed = floor ∧ t.flag F.pwrStatus_rising = false) ∧ (q.ride = true → t.power.allowed = pa))) ∧
    (q.ride = false → q.inService = true → answers (exec .supalert1 s) (fun t => only t ∧ t.issueHalted = true ∧ t.power.ride = true ∧ t.power.allowed = pa ∧
      t.get F.pwrRtCount_count = sat 32 (s.get F.pwrRtCount_count + 1))) ∧
    answers (exec (.supalertRelease 0) s) (fun t => only t ∧ t.power.sag = false ∧ t.power.allowed = pa) ∧
    settles (exec (.supalertRelease 1) s) (fun u => only u ∧ u.issueHalted = (q.tripped || q.stopped) ∧
      (q.sag = false → u.power.allowed = pa) ∧ (q.sag = true → q.ride = true → u.power.allowed = floor)) ∧
    (∀ mv : BitVec 16, s.phase ≠ phPower →
      (650 ≤ mv.toNat → mv.toNat ≤ 850 → mv.toNat % 5 = 0 →
        exec (.voltageSet mv) s = .next { s with vddCore := mv.toNat, avsHold := false, out := .avs mv.toNat :: s.out }) ∧
      answers (exec .avsTimeout s) (fun t => t.vddCore = s.vddCore ∧ t.avsHold = true ∧ t.power.allowed = min 12000 pa ∧
        t = { s with regs := t.regs, power := t.power, avsHold := t.avsHold })) ∧
    (s.i3cAnswers = true →
      (∀ a : BitVec 7, exec (.dynamicAddressAssignment a) s = .next { s with i3cAddr := some a.toNat }) ∧
      ∀ hot, (∀ d < 4, ∀ i < 20, s.get F.thHotspot_fused [d, i] ≤ hot) → (∃ d < 4, ∃ i < 20, s.get F.thHotspot_fused [d, i] = hot) →
        ∀ trip, (trip = 128 ∧ (∃ d < 4, s.flag F.thStatus_trip [d] = true)) ∨ (trip = 0 ∧ ∀ d < 4, s.flag F.thStatus_trip [d] = false) →
        exec .i3cRead s = .next { s with
          out := .i3c (leBytes 1 (s.phase + 16 * s.get F.pwrStatus_state + trip) ++ leBytes 2 hot ++ [0#8]) :: s.out })

/-- R435, R474, R475: the fall of PWRGOOD, PKG_RESET_N low and the removal of VDD_AUX reset the package: all registers but the fuse
fields and the incarnation read their reset values, and nothing of the slices stays. With PWRGOOD, VDD_AUX and PKG_RESET_N high, and
THERMTRIP_N released, a start begins. R436 to R440, R454: CLOCKS takes the fuse image, BOOT an image that passes the checks (with none
that does, the start halts with reason 2), SELF_TEST the cores that fail, BENNEX forms the running word and starts the links, DRAM
takes dead lanes into the erasure mask, RETENTION notes what fails each step, LINKS and MAP follow; READY waits for the ports and needs D0, the firmware, a
link to every usable die and enough cores, and otherwise halts with its reason, as does a cold start of 300 s with 0xF. -/
def Obligations.StartPhases : Prop :=
  ∀ s : State, let b := s.bring
    let cold (t : State) : Prop := t.pending = s.pending ∧ t.hostMem = s.hostMem ∧ t.mem = State.reset.mem ∧ t.own = State.reset.own ∧
      t.cores = State.reset.cores ∧ t.phase = phPower ∧
      t.get F.consCtl_incarnation = (s.get F.consCtl_incarnation + 1) % 2 ^ 16 ∧
      (∀ f ∈ [F.secStatus_svnFused, F.secStatus_keyRevoked], t.get f = s.get f) ∧
      ∀ k i, regAddr k i ≠ regAddr .secStatus [] → regAddr k i ≠ regAddr .consCtl [] → t.reg k i = State.reset.reg k i
    let halts (t : State) (r : Nat) : Prop := t.phase = phHalted ∧ t.get F.bruStatus_haltReason = r
    answers (exec .pwrgoodFall s) (fun t => cold t ∧ t.bring.pwrgood = false) ∧
    answers (exec (.pkgReset false) s) (fun t => cold t ∧ t.bring.pkgHigh = false ∧ t.farMem = s.farMem) ∧
    answers (exec .vddAuxRemoval s) (fun t => cold t ∧ t.bring.aux = false ∧ t.power = {}) ∧
    (s.phase = phPower → s.power.tripped = false →
      (b.pwrgood = false → b.pkgHigh = true → answers (exec .pwrgoodRise s) (fun t => t.phase = phClocks ∧
        t = { s with regs := t.regs, bring := { b with pwrgood := true, aux := true } })) ∧
      (b.pwrgood = true → b.aux = true → answers (exec (.pkgReset true) s) (fun t => t.phase = phClocks ∧
        t = { s with regs := t.regs, bring := { b with pkgHigh := true } }))) ∧
    (∀ (n : BitVec 32) (bad : List (Fin 36864)), s.phase = phClocks → answers (exec (.clocksPhase n bad []) s) (fun t =>
      t.bring = { b with fuses := true } ∧ t.phase = phClocks ∧
      t.get F.voteCorr_count [1] = sat 32 (s.get F.voteCorr_count [1] + n.toNat) ∧
      (∀ o ∈ bad, 0x40 ≤ o.val → t.ownAt o.val = entry stFused 1) ∧
      ∀ o, (∀ x ∈ bad, x.val ≠ o) → t.ownAt o = s.ownAt o)) ∧
    (s.phase = phClocks → b.fuses = true →
      (s.imageCheck s.firstSlot = none → answers (exec (.bootPhase false) s) (fun t => t.phase = phBoot ∧
        t.flag F.secStatus_verified = true ∧ t.get F.secStatus_slot = s.firstSlot ∧ t.flag F.secStatus_fallback = false ∧
        t.flag F.mbStatus_ready = true)) ∧
      (s.imageCheck s.firstSlot ≠ none → s.imageCheck (1 - s.firstSlot) ≠ none → s.flag F.secStatus_verified = false →
        answers (exec (.bootPhase false) s) (fun t => halts t 2))) ∧
    (∀ mem : List CoreId, s.phase = phBoot → answers (exec (.selfTestPhase mem []) s) (fun t => t.phase = phSelfTest ∧
      ∀ c : CoreId, t.ownAt (offCore c.val) =
        if c ∈ mem ∧ s.judged (offCore c.val) = true ∧ s.dieUsable (c.val / 16) = true then entry stDefect 2 else s.ownAt (offCore c.val))) ∧
    (s.phase = phSelfTest → let w := runningWord ((List.range 4).filter s.dieUsable)
      answers (exec .bennexPhase s) (fun t => t.phase = phBennex ∧ t = { s with regs := t.regs } ∧
        t.get F.bxCapRunning_word [0] = w.1 % 2 ^ 64 ∧ t.get F.bxCapRunning_word [1] = w.2 % 2 ^ 64 ∧
        (∀ c < 64, t.get F.splRevision_running [c] = capField w.1 16) ∧
        ∀ x < 4, ∀ e < 2, s.linkUsable x = true → s.bxState x e = bxDown → t.bxState x e = bxLocking)) ∧
    (∀ (core : CoreId) (ch : ChanId) (lanes : List (Fin 144)) (fail : List (Fin 4)), let c := core.val; let n := ch.val
      s.phase = phBennex ∨ s.phase = phDram → b.header = false → s.judged (offChan c n) = true → s.dieUsable (c / 16) = true →
      answers (exec (.dramTraining core ch lanes [] false fail) s) (fun t => t.phase = phDram ∧
        (s.reg .slcDeadLanesLo [c, n] < 2 ^ 64 → s.reg .slcDeadLanesMid [c, n] < 2 ^ 64 →
          ∀ j : Fin 144, bit (t.deadLanes c n) j.val = (bit (s.deadLanes c n) j.val || lanes.contains j)) ∧
        ∀ k ∈ fail, s.judged (offNbr c n k.val) = true → t.ownAt (offNbr c n k.val) = entry stDefect 2)) ∧
    (∀ (hot : Bool) (pattern : Fin 4) (k : Fin 11) (failing : List (CoreId × ChanId × Nat)) (c n : Nat),
      let code := stepCode hot pattern.val k.val
      s.phase = phDram ∨ s.phase = phRetention → s.warmStart = false → (hot = true → k.val ≤ 6) → code ∉ b.steps →
      b.steps.length + 1 < retentionSteps → c < 64 → n < 32 → s.judged (offChan c n) = true →
      answers (exec (.retentionStep hot pattern k failing) s) (fun t => t.phase = phRetention ∧ t = { s with regs := t.regs, bring := t.bring } ∧
        (∀ x, x ∈ t.bring.steps ↔ x = code ∨ x ∈ b.steps) ∧
        let fails : Prop := ∃ x ∈ failing, x.1.val = c ∧ x.2.1.val = n ∧ x.2.2 ≠ 0
        let r := tget {} b.ret (32 * c + n); let r' := tget {} t.bring.ret (32 * c + n)
        (∀ j, j ∈ (if hot then r'.highFail else r'.lowFail) ↔ j ∈ (if hot then r.highFail else r.lowFail) ∨ (j = k.val ∧ fails)) ∧
        (if hot then r'.highSum else r'.lowSum) = (if hot then r.highSum else r.lowSum) + s.get F.slcLayerTemp_temp [c, n])) ∧
    ((s.warmStart = true ∧ s.phase = phDram) ∨ (s.warmStart = false ∧ s.phase = phRetention ∧ retentionSteps ≤ b.steps.length) →
      answers (exec .linksPhase s) (fun t => t.phase = phLinks ∧
        ∀ p < 8, s.gfState p = gfDisabled → s.judged (offPort p) = true → t.ownAt (offPort p) = entry stUnconn 0)) ∧
    (s.phase = phLinks → answers (exec .mapPhase s) (fun t => t.phase = phMap ∧ t.bring = { b with mapDone := true } ∧ t.own = s.own ∧
      (s.warmStart = false → t.saved.entries = s.own.filter (fun e => statusOf e.2 == stFailed || statusOf e.2 == stRetired)) ∧
      (s.warmStart = true → t.saved = s.saved))) ∧
    (∀ ms : BitVec 32, s.phase = phMap → b.mapDone = true → (∀ p < 8, s.gfState p ≠ gfTraining ∧ s.gfState p ≠ gfQualifying) →
      (∀ f < 2, s.judged (offPort (8 + f)) = true → s.dieUsable (farDie f) = true → s.get F.fpStatus_phase [f] ≠ 0) →
      let links := ∀ d ∈ [1, 2, 3], s.dieUsable d = true → s.linkUp d = true ∨ s.linkUp (d - 1) = true
      let cores := max 1 (min 64 (s.get F.bruReadyMin_cores)) ≤ s.usableCores
      (s.dieUsable 0 = true → s.flag F.secStatus_verified = true → links → cores → settles (exec (.ready ms) s) (fun u =>
        u.phase = phReady ∧ u.flag F.bruStatus_readyEvent = true ∧ u.flag F.mqStatus_building = false ∧ u.power.inService = true ∧
        u.get F.mqGeneration_generation % 2 = 0 ∧ u.get F.bruStartMs_ms = ms.toNat ∧ u.mem = s.mem ∧ u.own = s.own)) ∧
      (s.dieUsable 0 = false → settles (exec (.ready ms) s) (fun u => halts u 1)) ∧
      (s.dieUsable 0 = true → s.flag F.secStatus_verified = true → ¬ links → settles (exec (.ready ms) s) (fun u => halts u 3)) ∧
      (s.dieUsable 0 = true → s.flag F.secStatus_verified = true → links → ¬ cores → settles (exec (.ready ms) s) (fun u => halts u 4))) ∧
    (s.warmStart = false → s.phase ≠ phPower → s.phase < phReady → answers (exec .startTimeout s) (fun t => halts t 0xF))

/-- R414, R442, R451: a partial reset by the Jig or a vote, by BRU_DIE_RESET, or by a failed mesh link leaves the die in reset with its
cause and counts it; its cores hold nothing but records still to be written, its channels no run, its sequence stores zero. On its
return with both links trained the links are UP and its cores are restored, or FAILED where the Jig has found them so. R443: without a
return of D0 in time a warm restart begins. R444 to R446: a save completely written lets the Jig scan; one that is not leaves the core
FAILED with cause 0x3. A scan that passes restores the unit, and a core's units leave FAULTED; one that fails leaves it FAILED with
cause 0x3. A region that is not free in time fails the request with BUSY. -/
def Obligations.PartialResetsAndJig : Prop :=
  ∀ s : State,
    (∀ die : DieId, let d := die.val
      let inReset (cause : Nat) (u : State) : Prop := u.dieInReset d = true ∧ u.get F.bruDieReset_lastCause = cause ∧
        (∀ c k sl, c / 16 = d → u.slot c k = some sl → sl.phase = .recording) ∧
        (∀ c n, c / 16 = d → n < 32 → u.run c n = none ∧ u.nextRun c n = none) ∧
        ∀ c n o, c < 64 → c / 16 = d → n < 32 → o < 0x800 → u.peek (seqStore c n + o) = 0#8
      (s.dieInReset d = false → s.dieUsable d = true →
        settles (exec (.partialReset die 2#8) s) (inReset 2) ∧
        (9 ≤ tget 0 s.bring.jigFails d → settles (exec (.partialReset die 4#8) s) (inReset 4)) ∧
        (s.regServed mHostIo (regAddr .bruDieReset []) = true →
          settles (exec (.bruDieResetReq (BitVec.ofNat 4 (2 ^ d))) s) (inReset 3)) ∧
        (∀ (router : Fin 16) (dir : Fin 4), settles (exec (.meshLinkFail die router dir false) s) (inReset 1))) ∧
      (∀ fail : List (Fin 16 × Fin 64), s.dieInReset d = true → fail = [] ∨ (∃ i j, fail = [(i, j)]) →
        settles (exec (.partialResetReturn die fail true true) s) (fun u => u.dieInReset d = false ∧
          u.linkUp d = true ∧ u.linkUp ((d + 3) % 4) = true ∧
          ∀ (i : Fin 16) (e : Byte), tget none s.mapSaved (offCore (16 * d + i.val)) = some e → usableSt (statusOf e) = true →
            u.ownAt (offCore (16 * d + i.val)) = if fail.any (fun f => f.1 == i) then entry stFailed 3 else e))) ∧
    (s.dieInReset 0 = true → answers (exec .d0ResetTimeout s) (fun t => t.phase = phClocks ∧ t.get F.bruStatus_start = 1 ∧
      t.flag F.mqStatus_building = true ∧ t.cores = State.reset.cores ∧
      (∀ l, 0x04000000000 ≤ l → (l < faultLogBase ∨ faultLogBase + 0x8000 ≤ l) → tget 0#8 t.mem l = 0#8))) ∧
    (∀ (core : CoreId) (j : JigRun), let c := core.val; s.jigOf (offCore c) = some j → j.saved = false →
      (s.saveComplete c = true → answers (exec (.jigSave core) s) (fun t => t = { s with bring := t.bring } ∧
        t.jigOf (offCore c) = some { j with saved := true })) ∧
      (s.saveComplete c = false → j.why = .fault → answers (exec (.jigSave core) s) (fun t => t.jigOf (offCore c) = none ∧
        t.ownAt (offCore c) = entry stFailed 3 ∧ t.get F.jigStatus_result = 3 ∧ t.get F.jigStatus_unit = offCore c ∧
        t.cores = s.cores))) ∧
    (∀ (core : CoreId) (j : JigRun) (e : Byte) (f : Fin 4 × Fin 64), let c := core.val; let u16 := BitVec.ofNat 16 (offCore c)
      s.jigOf (offCore c) = some j → j.saved = true → j.why = .fault → tget none s.mapSaved (offCore c) = some e →
      settles (exec (.jigComplete u16 []) s) (fun u => u.ownAt (offCore c) = e ∧ u.get F.mxaStatus_state [c] = 0 ∧
        u.get F.jigStatus_unit = offCore c ∧ u.get F.jigStatus_result = 1 ∧ u.jigOf (offCore c) = none) ∧
      settles (exec (.jigComplete u16 [f]) s) (fun u => u.ownAt (offCore c) = entry stFailed 3 ∧
        u.get F.jigStatus_result = 2 ∧ u.get F.jigStatus_index = f.2.val ∧ u.jigOf (offCore c) = none ∧
        tget 0 u.bring.jigFails (c / 16) = tget 0 s.bring.jigFails (c / 16) + 1)) ∧
    (∀ w : MbWait, s.bring.mbWait = some w → w.op = opJig ∨ w.op = opRetire → s.jigOf w.unit = none →
      settles (exec .regionFreeTimeout s) (fun u => mbAnswered u w.op w.seq mbFailed (leBytes 4 rsBusy) ∧ u.own = s.own))

/-- R385 to R388: while READY is 0 or BUSY is 1 a doorbell is ignored and counted. A request is answered ABI_MISMATCH for another major,
and INVALID for a payload that breaks its opcode's rules; one that keeps them is performed and answered OK: GET_INFO with its
information; SET_IDLE_FLOOR and SET_STAGGER set their registers, and SAVE_SETTINGS saves the settings; WARM_RESTART restarts; ATTEST
answers with its report, counted (R457); BEGIN, DATA, FINISH, COMMIT_SVN and REVOKE work on the slot that does not run and on the
fuses (R459); RETIRE_UNIT and RUN_JIG take a free region (R446, R448); READMIT_UNIT restores the unit, or fails it with TEST_FAILED
(R449); AUDIT starts an audit (R428). -/
def Obligations.MailboxRequests : Prop :=
  ∀ (s : State) (h : MbHead), s.regServed mHostIo (regAddr .mbDoorbell []) = true →
    let ready := s.flag F.mbStatus_ready = true ∧ s.flag F.mbStatus_busy = false
    -- the request `i` answers a status and a payload, in a state of which P holds
    let does (i : Instr) (op status : Nat) (bs : List Byte) (P : State → Prop) : Prop :=
      settles (exec i s) (fun u => mbAnswered u op h.seq.toNat status bs ∧ P u)
    let only (u : State) : Prop := u.own = s.own ∧ u.cores = s.cores
    let whole (n : Nat) : Prop := h.major.toNat = s.get F.mbAbi_major ∧ h.length.toNat = n ∧ h.reserved = 0#32
    let slot := 1 - s.get F.secStatus_slot
    let unlocked := s.flag F.secStatus_locked = false
    let free (u : Nat) : Prop := s.ancestorsOk u = true ∧ s.regionFree u = true ∧ statusOf (s.shownAt u) ≤ 1 ∧
      statusOf (s.ownAt u) ≤ 1 ∧ ∀ j ∈ s.bring.jig, j.unit ≠ u
    (∀ p, ¬ ready → settles (exec (.getInfo h p) s) (fun u => regsOnly s u [regAddr .mbIgnored []] ∧
      u.get F.mbIgnored_count = sat 32 (s.get F.mbIgnored_count + 1))) ∧
    (ready → h.major.toNat ≠ s.get F.mbAbi_major → does (.getInfo h []) opGetInfo 2 [] only) ∧
    (ready → whole 1 → ∀ b, does (.getInfo h [b]) opGetInfo 4 [] only) ∧
    (ready → whole 0 →
      does (.getInfo h []) opGetInfo 0 (leBytes 8 (s.reg .mbAbi []) ++ leBytes 8 (s.reg .mbFwVersion []) ++
        leBytes 8 (s.reg .bxCapRunning [0]) ++ leBytes 8 (s.reg .bxCapRunning [1]) ++ leBytes 8 (s.get F.glbChipId_id)) only ∧
      does (.saveSettings h []) opSave 0 [] (fun u => only u ∧ u.sec.gen = s.sec.gen + 1 ∧
        u.saved.entries = s.own.filter (fun e => statusOf e.2 == stFailed || statusOf e.2 == stRetired)) ∧
      settles (exec (.warmRestart h []) s) (fun u => u.phase = phClocks ∧ u.get F.bruStatus_start = 1 ∧ u.cores = State.reset.cores) ∧
      (2 ≤ s.get F.mbAbi_minor → settles (exec (.audit h []) s) (fun u => u.flag F.audStatus_running = true ∧
        u.bring.mbWait = some { op := opAudit, seq := h.seq.toNat } ∧ u.flag F.mbStatus_busy = true ∧ only u))) ∧
    (∀ v : BitVec 32, ready → whole 4 → 300 ≤ v.toNat → v.toNat ≤ 900 → v.toNat ≤ s.get F.pwrCap_w →
      does (.setIdleFloor h (leBytes 4 v.toNat)) opFloor 0 [] (fun u => only u ∧ u.get F.pwrFloor_w = v.toNat)) ∧
    (∀ k o : Nat, ready → whole 8 → 1 ≤ s.get F.mbAbi_minor → k ≤ 20 → o < 2 ^ k →
      does (.setStagger h (leBytes 4 (2 ^ k) ++ leBytes 4 o)) opStagger 0 [] (fun u => only u ∧
        u.get F.pwrStagger_period = 2 ^ k ∧ u.get F.pwrStagger_offset = o)) ∧
    (∀ nonce : List Byte, nonce.length = 32 → ready → whole 40 → unlocked →
      settles (exec (.attest h (nonce ++ leBytes 8 0)) s) (fun u => only u ∧ u.flag F.mbStatus_done = true ∧
        u.get F.secAttestCount_count = sat 32 (s.get F.secAttestCount_count + 1) ∧
        (∀ i < 4, u.peek (mbRespAddr + 16 + i) = (leBytes 4 0x4D4C4154).getD i 0#8) ∧
        (∀ i < 32, u.peek (mbRespAddr + 24 + i) = nonce.getD i 0#8))) ∧
    (ready → unlocked →
      (∀ n : Nat, whole 12 → n ≤ trailerOff → does (.fwBegin h (leBytes 4 0 ++ leBytes 4 n)) opFw 4 [] only) ∧
      (∀ n : Nat, whole 8 → n ≤ trailerOff → does (.fwBegin h (leBytes 4 n)) opFw 0 [] (fun u => only u ∧ u.sec.total = some n ∧
        u.trailerOk slot = false ∧ ∀ o, u.flash slot o = 0xFF#8)) ∧
      (∀ (o t : Nat) (bs : List Byte), s.sec.total = some t → o + bs.length ≤ t → t ≤ trailerOff → bs.length ≤ 1024 → whole (8 + bs.length) →
        does (.fwData h (leBytes 4 o ++ bs)) opFw 0 [] (fun u => only u ∧
          ∀ i, u.flash slot i = if o ≤ i ∧ i < o + bs.length then bs.getD (i - o) 0#8 else s.flash slot i)) ∧
      (whole 4 → s.imageCheck slot = none → does (.finish h []) opFw 0 [] (fun u => only u ∧
        u.slotSeq slot = (s.sec.runSeq + 1) % 2 ^ 32 ∧ u.trailerOk slot = true)) ∧
      (∀ k, whole 4 → s.imageCheck slot = some k → does (.finish h []) opFw 5 (leBytes 4 k) (fun u => only u ∧
        u.trailerOk slot = false ∧ ∀ i < 8, u.flash slot (trailerOff + i) = 0xFF#8)) ∧
      (whole 4 → does (.commitSvn h []) opFw 0 [] (fun u => only u ∧
        u.get F.secStatus_svnFused = max (s.get F.secStatus_svnFused) (s.get F.secStatus_svnRunning))) ∧
      (∀ k : Fin 2, whole 8 →
        (k.val ≠ s.get F.secStatus_keyIndex → does (.revoke h (leBytes 4 k.val)) opFw 0 [] (fun u => only u ∧
          bit (u.get F.secStatus_keyRevoked) k.val = true)) ∧
        (k.val = s.get F.secStatus_keyIndex → does (.revoke h (leBytes 4 k.val)) opFw 5 (leBytes 4 5) only))) ∧
    (∀ c : CoreId, ready → whole 8 → let u0 := offCore c.val; let p := leBytes 2 u0 ++ leBytes 6 0
      (free u0 → does (.retireUnit h p) opRetire 0 [] (fun u => u.ownAt u0 = entry stRetired 7 ∧
        ∀ q, q / 64 = c.val → s.qState q ≠ qDisabled → u.qState q = qHeld)) ∧
      (free u0 → settles (exec (.runJig h p) s) (fun u => u.ownAt u0 = entry stOffline 9 ∧ u.flag F.mbStatus_busy = true ∧
        u.jigOf u0 = some { unit := u0, why := .run } ∧ u.bring.mbWait = some { op := opJig, seq := h.seq.toNat, unit := u0 })) ∧
      (∀ fails, statusOf (s.shownAt u0) = stRetired → s.ancestorsOk u0 = true →
        does (.readmitUnit h p fails) opReadmit 0 [] (fun u => u.ownAt u0 = entry stGood 7)) ∧
      (statusOf (s.shownAt u0) = stFailed → s.ancestorsOk u0 = true →
        does (.readmitUnit h p false) opReadmit 0 [] (fun u => u.ownAt u0 = entry stGood 3) ∧
        does (.readmitUnit h p true) opReadmit 5 (leBytes 4 rsTestFailed) (fun u => u.ownAt u0 = entry stFailed 3)))

/-- R424: a buffered message whose destination serves it again is performed and acknowledged; one whose destination is given up is
dropped and counted. R422: a background vote counts the minority copies it rewrites by class; a word of which all copies differ sets
VOTE_FAIL, and retrains the port or the link, or locks the security block. R425, R426, R428: RUN starts an audit; at its end PASS has a
bit for each class of which no instance that was checked breaks its invariant, and the request that waits is answered with it. R427:
a resynchronisation restores the pools of the die's UP links and starts an audit. R460: internal scan needs TEST_OPEN. -/
def Obligations.ConservationAndAudit : Prop :=
  ∀ s : State,
    (∀ (die : DieId) (m : ConsMsg) (o c i : Nat), let d := die.val; let x := s.consOf d
      x.buffer = [m] → m.chip = s.get F.glbChipId_id → s.target m.addr = .reg o → semAt o = some (c, i) →
      (s.dieTakes d (c / 16) = true → settles (exec (.consResend die) s) (fun u =>
        u = (s.setCons d { x with buffer := [], acked := x.acked + 1 }).signal c i m.n)) ∧
      (s.dieTakes d (c / 16) = false → exec (.consResend die) s = .next s.kickAll)) ∧
    (∀ (die : DieId) (dst : BitVec 20), let d := die.val; let x := s.consOf d; let l := s.unreached d dst.toNat
      l ≠ [] → (∀ y ∈ x.buffer, y.chip = dst.toNat ∧ dst.toNat ≠ s.get F.glbChipId_id) →
      answers (exec (.consGiveup die dst) s) (fun t => t.consOf d = { x with buffer := [], dropped := x.dropped + x.buffer.length } ∧
        (s.dieInReset 0 = true → t.get F.consDropped_count = sat 32 (s.get F.consDropped_count + x.buffer.length)))) ∧
    (∀ n : BitVec 32, s.dieInReset 0 = true →
      settles (exec (.backgroundVote [n, 0, 0, 0, 0] none) s) (fun u => regsOnly s u [regAddr .voteCorr [0], regAddr .mqVoteCorrections []] ∧
        u.get F.voteCorr_count [0] = sat 32 (s.get F.voteCorr_count [0] + n.toNat) ∧
        u.get F.mqVoteCorrections_count = sat 32 (s.get F.mqVoteCorrections_count + n.toNat)) ∧
      settles (exec (.backgroundVote [] (some .security)) s) (fun u => u.flag F.fltStatus_voteFail = true ∧
        u.flag F.secStatus_locked = true ∧ u.mem = s.mem ∧ u.cores = s.cores) ∧
      (∀ p : PortId, s.gfState p.val = gfUp → settles (exec (.backgroundVote [] (some (.golfort p))) s) (fun u =>
        u.flag F.fltStatus_voteFail = true ∧ u.gfState p.val = gfRetraining)) ∧
      (∀ ep : BxId, s.bxState ep.1.val ep.2.val = bxUp → settles (exec (.backgroundVote [] (some (.bennex ep))) s) (fun u =>
        u.flag F.fltStatus_voteFail = true ∧ ∀ e < 2, u.bxState ep.1.val e = bxRetraining))) ∧
    (s.regServed mHostIo (regAddr .audControl []) = true → answers (exec .audRun s) (fun t =>
      t.flag F.audStatus_running = true ∧ regsOnly s t [regAddr .audStatus []])) ∧
    (∀ flight : List (Fin 3 × Nat × Nat), s.flag F.audStatus_running = true →
      let insts (k : Nat) := s.audInstances k ((flight.filter (fun f => f.1.val == k)).map (fun f => (f.2.1, f.2.2)))
      let okay (k : Nat) : Prop := ∀ i ∈ insts k, i.off = true ∨ i.total = i.terms
      let ends (t : State) : Prop := t.flag F.audStatus_running = false ∧ t.flag F.audStatus_done = true ∧ t.cores = s.cores ∧
        ∀ k < 9, (bit (t.get F.audStatus_pass) k = true ↔ okay k) ∧ (bit (t.get F.audStatus_inconclusive) k = true ↔ ∃ i ∈ insts k, i.off = true)
      ((∀ k < 9, okay k) → s.bring.mbWait = none → answers (exec (.auditDone flight) s) (fun t => ends t ∧ regsOnly s t
        (regAddr .audStatus [] :: (List.range 9).flatMap (fun k => [regAddr .audExpected [k], regAddr .audFound [k]])))) ∧
      ((∃ k < 9, ¬ okay k) → answers (exec (.auditDone flight) s) (fun t => ends t ∧ t.flag F.fltStatus_auditFail = true)) ∧
      (∀ w, s.bring.mbWait = some w → w.op = opAudit → answers (exec (.auditDone flight) s) (fun t => ends t ∧
        t.flag F.mbStatus_done = true ∧ t.flag F.mbStatus_busy = false ∧ t.bring.mbWait = none))) ∧
    (∀ die : DieId, let d := die.val; s.dieInReset d = false → s.loans = [] → s.gotFrames = [] → (∀ a < 4, (s.consOf a).buffer = []) →
      settles (exec (.resync die) s) (fun u => u.flag F.audStatus_running = true ∧ u.mem = s.mem ∧
        (∀ x ∈ [d, (d + 3) % 4], ∀ e < 2, s.bxState x e = bxUp → ∀ v < 4,
          u.get F.bxBisc_avail [x, e, v] = s.get F.bxBisc_total [x, e, v] - s.get F.bxBisc_used [x, e, v]))) ∧
    (exec (.testPortAccess false) s = .next s ∧
      (s.flag F.secStatus_testOpen = true → answers (exec (.testPortAccess true) s) (fun t => t.sec.scan = true ∧ t = { s with sec := t.sec })) ∧
      (s.flag F.secStatus_testOpen = false → exec (.testPortAccess true) s = .next s))

/-- For every command and state, the step of a state whose queue begins with the command is the command's effect on the state with
the queue's rest; with nothing waiting the part idles (the model's choice: log entry 2). -/
def Obligations.StepRunsFrontCommand : Prop :=
  (∀ (c : Instr) (rest : List Instr) (s : State), step { s with pending := c :: rest } = exec c { s with pending := rest }) ∧
  ∀ s : State, s.pending = [] → step s = .next s

/-- R4, R22, R27, R89, R253, R323, R332, R368, R435: right after reset no command waits, every register reads its reset value, every
queue is DISABLED, every DMA engine IDLE, every Golfort port DISABLED, the counter FREE and not agreed, every Bennex endpoint DOWN,
the map is being built at generation 1, the chip has no ID, the start is in phase POWER, no slot is held, and all storage lists
nothing. That a byte of which the spec states no content reads 0 is the model's choice (log entry 8). -/
def Obligations.ResetState : Prop :=
  let s := State.reset
  s.canonical = true ∧ s.pending = [] ∧ (∀ k i, s.reg k i = regReset k i) ∧
  (∀ q, q < 4096 → s.qState q = qDisabled) ∧ (∀ c e, c < 64 → e < 4 → s.dmaState c e = dmaIdle) ∧
  (∀ p, p < 8 → s.gfState p = gfDisabled) ∧ s.cadState = cadFree ∧ s.flag F.cadStatus_agreed = false ∧
  (∀ x e, x < 4 → e < 2 → s.bxState x e = bxDown) ∧ s.flag F.mqStatus_building = true ∧ s.get F.mqGeneration_generation = 1 ∧
  s.get F.glbChipId_id = 0xFFFFF ∧ s.phase = phPower ∧ (∀ c k, s.slot c k = none) ∧ ∀ l, localFar l = false → s.peek l = 0#8

/-- For every state whose byte storage is canonical (addresses strictly rising, no entry equal to what an unlisted address reads as),
a step leaves it canonical, so that equal memories are equal data; and whatever the command, the queue is what it was without its
front. That ResetState meets the premise is said there. -/
def Obligations.StepKeepsStorageCanonical : Prop :=
  ∀ s t : State, s.canonical = true → step s = .next t → t.canonical = true ∧ t.pending = s.pending.tail

/-- R210 to R213: outside the scalar compare, vector and sync classes, whose layouts leave the bits of an operand form that is not
chosen without a mark, a legal word and its extension word are determined by the instruction they decode to: two words of 64 bits
that decode to one instruction are equal, and where X is set so are their extension words. -/
def Obligations.DecodingDropsNoBit : Prop :=
  ∀ (core : CoreId) (i : Instr) (w w' x x' : Nat), w < 2 ^ 64 → w' < 2 ^ 64 → x < 2 ^ 64 → x' < 2 ^ 64 →
    bits w 0 6 ∉ [0x03, 0x1C, 0x30] → decodeWord core w x = some i → decodeWord core w' x' = some i →
    w = w' ∧ (bit w 6 = true → x = x')
end

