-- ==== Sys2Proof/Laws/Table.lean ====
section
/-! SUPPORT. Laws of sparse storage: a read after a write of the same key gives what was written, a write leaves every other key
alone, and a write keeps the canonical form. They hold of every table, canonical or not. -/

namespace Sys2Proof.Machine

variable {α : Type}

theorem tget_tdel_same (d : α) (t : Table α) (k : Nat) : tget d (tdel t k) k = d := by
  induction t with
  | nil => rfl
  | cons e t ih =>
    by_cases h : e.1 = k
    · simpa [tdel, h] using ih
    · have : tdel (e :: t) k = e :: tdel t k := by simp [tdel, h]
      rw [this]; obtain ⟨j, w⟩ := e
      simp only [tget]; rw [if_neg (fun q => h q.symm)]; exact ih

theorem tget_tdel_ne (d : α) (t : Table α) {k k' : Nat} (hk : k' ≠ k) : tget d (tdel t k) k' = tget d t k' := by
  induction t with
  | nil => rfl
  | cons e t ih =>
    obtain ⟨j, w⟩ := e
    by_cases h : j = k
    · subst h
      have : tdel ((j, w) :: t) j = tdel t j := by simp [tdel]
      rw [this, ih]; simp [tget, hk]
    · have : tdel ((j, w) :: t) k = (j, w) :: tdel t k := by simp [tdel, h]
      rw [this]; simp only [tget, ih]

theorem tget_tput_same (d : α) (t : Table α) (k : Nat) (v : α) : tget d (tput t k v) k = v := by
  induction t with
  | nil => simp [tput, tget]
  | cons e t ih =>
    obtain ⟨j, w⟩ := e
    simp only [tput]
    split
    · simp [tget]
    · split
      · simp [tget]
      · next h => simp [tget, h, ih]

theorem tget_tput_ne (d : α) (t : Table α) {k k' : Nat} (v : α) (hk : k' ≠ k) : tget d (tput t k v) k' = tget d t k' := by
  induction t with
  | nil => simp [tput, tget, hk]
  | cons e t ih =>
    obtain ⟨j, w⟩ := e
    simp only [tput]
    split
    · simp [tget, hk]
    · split
      · next h => subst h; simp [tget, hk]
      · simp [tget, ih]

variable [DecidableEq α]

/-- Read after write: the key that was written. -/
@[simp] theorem tget_tset_same (d : α) (t : Table α) (k : Nat) (v : α) : tget d (tset d t k v) k = v := by
  unfold tset; split
  · next h => rw [tget_tdel_same, h]
  · exact tget_tput_same d t k v

/-- Read after write: every other key. -/
theorem tget_tset_ne (d : α) (t : Table α) {k k' : Nat} (v : α) (hk : k' ≠ k) : tget d (tset d t k v) k' = tget d t k' := by
  unfold tset; split
  · exact tget_tdel_ne d t hk
  · exact tget_tput_ne d t v hk

/-- The same with another default: a key that is not written reads the same. -/
theorem tget_tset_ne' (d d' : α) (t : Table α) {k k' : Nat} (v : α) (hk : k' ≠ k) :
    tget d' (tset d t k v) k' = tget d' t k' := by
  unfold tset; split
  · exact tget_tdel_ne d' t hk
  · exact tget_tput_ne d' t v hk

theorem tget_tset (d : α) (t : Table α) (k k' : Nat) (v : α) :
    tget d (tset d t k v) k' = if k' = k then v else tget d t k' := by
  split
  · next h => rw [h, tget_tset_same]
  · next h => exact tget_tset_ne d t v h

/-! ### The canonical form -/

theorem twfFrom_mono (d : α) {lo lo' : Option Nat} {t : Table α} (h : twfFrom d lo t = true)
    (hl : ∀ l', lo' = some l' → ∃ l, lo = some l ∧ l' ≤ l) : twfFrom d lo' t = true := by
  cases t with
  | nil => rfl
  | cons e t =>
    obtain ⟨j, v⟩ := e
    simp only [twfFrom, Bool.and_eq_true] at h ⊢
    refine ⟨⟨?_, h.1.2⟩, h.2⟩
    cases lo' with
    | none => rfl
    | some l' =>
      obtain ⟨l, hl1, hl2⟩ := hl l' rfl
      subst hl1
      have := h.1.1
      simp only [decide_eq_true_eq] at this ⊢
      omega

theorem twfFrom_tdel (d : α) (t : Table α) (k : Nat) : ∀ lo, twfFrom d lo t = true → twfFrom d lo (tdel t k) = true := by
  induction t with
  | nil => intro lo _; rfl
  | cons e t ih =>
    obtain ⟨j, w⟩ := e
    intro lo h
    have h' := h
    simp only [twfFrom, Bool.and_eq_true] at h'
    by_cases q : j = k
    · have e1 : tdel ((j, w) :: t) k = tdel t k := by simp [tdel, q]
      rw [e1]
      refine twfFrom_mono d (ih (some j) h'.2) ?_
      intro l' hl'
      refine ⟨j, rfl, ?_⟩
      subst hl'
      have := h'.1.1
      simp only [decide_eq_true_eq] at this
      omega
    · have e1 : tdel ((j, w) :: t) k = (j, w) :: tdel t k := by simp [tdel, q]
      rw [e1]; simp only [twfFrom, Bool.and_eq_true]
      exact ⟨h'.1, ih (some j) h'.2⟩

theorem twfFrom_tput (d : α) (t : Table α) (k : Nat) {v : α} (hv : v ≠ d) :
    ∀ lo, (∀ l, lo = some l → l < k) → twfFrom d lo t = true → twfFrom d lo (tput t k v) = true := by
  induction t with
  | nil =>
    intro lo hl _
    cases lo with
    | none => simp [tput, twfFrom, hv]
    | some l => simpa [tput, twfFrom, hv] using hl l rfl
  | cons e t ih =>
    obtain ⟨j, w⟩ := e
    intro lo hl h
    simp only [twfFrom, Bool.and_eq_true] at h
    simp only [tput]
    split
    · next q =>
      simp only [twfFrom, Bool.and_eq_true]
      refine ⟨⟨?_, by simpa using hv⟩, ⟨by simpa using q, h.1.2⟩, h.2⟩
      cases lo with
      | none => rfl
      | some l => simpa using hl l rfl
    · split
      · next q => subst q; simp only [twfFrom, Bool.and_eq_true]; exact ⟨⟨h.1.1, by simpa using hv⟩, h.2⟩
      · next q1 q2 =>
        simp only [twfFrom, Bool.and_eq_true]
        refine ⟨h.1, ih (some j) ?_ h.2⟩
        intro l hl'; cases hl'; omega

/-- A write keeps the canonical form. -/
theorem twf_tset (d : α) (t : Table α) (k : Nat) (v : α) (h : twf d t = true) : twf d (tset d t k v) = true := by
  unfold tset twf at *; split
  · exact twfFrom_tdel d t k none h
  · next hv => exact twfFrom_tput d t k hv none (by intro l hl; cases hl) h

omit [DecidableEq α]

/-! ### Keys of a table whose default differs from key to key: strictly rising -/

theorem keys_tdel {t : Table α} (k : Nat) (h : (t.map Prod.fst).Pairwise (· < ·)) :
    ((tdel t k).map Prod.fst).Pairwise (· < ·) := by
  unfold tdel
  exact List.Pairwise.sublist (List.Sublist.map _ List.filter_sublist) h

theorem mem_keys_tput {t : Table α} {k x : Nat} {v : α} (h : x ∈ (tput t k v).map Prod.fst) : x = k ∨ x ∈ t.map Prod.fst := by
  induction t with
  | nil => simpa [tput] using h
  | cons e t ih =>
    obtain ⟨j, w⟩ := e
    simp only [tput] at h
    split at h
    · simpa using h
    · split at h
      · next q => subst q; simpa using h
      · simp only [List.map_cons, List.mem_cons] at h ⊢
        rcases h with h | h
        · exact .inr (.inl h)
        · rcases ih h with h | h
          · exact .inl h
          · exact .inr (.inr h)

theorem keys_tput {t : Table α} (k : Nat) (v : α) (h : (t.map Prod.fst).Pairwise (· < ·)) :
    ((tput t k v).map Prod.fst).Pairwise (· < ·) := by
  induction t with
  | nil => simp [tput]
  | cons e t ih =>
    obtain ⟨j, w⟩ := e
    simp only [List.map_cons, List.pairwise_cons] at h
    simp only [tput]
    split
    · next q =>
      simp only [List.map_cons, List.pairwise_cons, List.mem_cons]
      refine ⟨?_, h.1, h.2⟩
      rintro x (rfl | hx)
      · exact q
      · exact Nat.lt_trans q (h.1 x hx)
    · split
      · next q => subst q; simpa using h
      · next q1 q2 =>
        simp only [List.map_cons, List.pairwise_cons]
        refine ⟨?_, ih h.2⟩
        intro x hx
        rcases mem_keys_tput hx with rfl | hx
        · omega
        · exact h.1 x hx

variable [DecidableEq α]

theorem keys_tset (d : α) {t : Table α} (k : Nat) (v : α) (h : (t.map Prod.fst).Pairwise (· < ·)) :
    ((tset d t k v).map Prod.fst).Pairwise (· < ·) := by
  unfold tset; split
  · exact keys_tdel k h
  · exact keys_tput k v h

/-! ### Bytes -/

omit [DecidableEq α] in
theorem tput_tput (t : Table α) (k : Nat) (v w : α) : tput (tput t k v) k w = tput t k w := by
  induction t with
  | nil => simp [tput]
  | cons e t ih =>
    obtain ⟨j, u⟩ := e
    simp only [tput]
    by_cases h1 : k < j
    · simp [h1, tput]
    · by_cases h2 : k = j
      · subst h2
        simp [tput]
      · simp [h1, h2, tput, ih]

omit [DecidableEq α] in
theorem tdel_tput (t : Table α) (k : Nat) (v : α) : tdel (tput t k v) k = tdel t k := by
  induction t with
  | nil => simp [tput, tdel]
  | cons e t ih =>
    obtain ⟨j, u⟩ := e
    simp only [tput]
    by_cases h1 : k < j
    · simp [h1, tdel]
    · by_cases h2 : k = j
      · subst h2
        simp [tdel]
      · have h3 : (j != k) = true := by simpa using fun h : j = k => h2 h.symm
        simp only [h1, h2, if_false, tdel, List.filter_cons, h3, if_true]
        congr 1

omit [DecidableEq α] in
theorem tput_ne_nil (t : Table α) (k : Nat) (v : α) : tput t k v ≠ [] := by
  cases t with
  | nil => simp [tput]
  | cons e t =>
    obtain ⟨j, u⟩ := e
    simp only [tput]
    split
    · simp
    · split <;> simp

/-- Of two writes of one key the second stands, where the first wrote another value than the default. -/
theorem tset_tset (d : α) (t : Table α) (k : Nat) (v w : α) (h : v ≠ d) : tset d (tset d t k v) k w = tset d t k w := by
  have e : tset d t k v = tput t k v := by simp [tset, h]
  rw [e]
  unfold tset
  split
  · exact tdel_tput t k v
  · exact tput_tput t k v w

theorem twf_writeBytes (m : Table Byte) (a : Nat) (l : List Byte) (h : twf 0#8 m = true) : twf 0#8 (writeBytes m a l) = true := by
  induction l generalizing m a with
  | nil => exact h
  | cons b t ih => exact ih _ _ (twf_tset _ _ _ _ h)

theorem twf_writeLE (m : Table Byte) (a n v : Nat) (h : twf 0#8 m = true) : twf 0#8 (writeLE m a n v) = true := by
  induction n generalizing m a v with
  | zero => exact h
  | succ n ih => exact ih _ _ _ (twf_tset _ _ _ _ h)

end Sys2Proof.Machine
end

