-- ==== Sys2Proof/Laws/State.lean ====
section
/-! SUPPORT. What the named operations on the state leave alone: for each update and each other field one equation, so that
no later proof unfolds a record update. -/

namespace Sys2Proof.Machine

/-- A part of the state that no register write changes is the same after any list of them. -/
theorem puts_keeps {α : Type} (p : State → α) (h : ∀ s f i v, p (State.put s f i v) = p s) (l : List (Fld × List Nat × Nat))
    (s : State) : p (s.puts l) = p s := by
  induction l generalizing s with
  | nil => rfl
  | cons x t ih =>
    show p (State.puts (s.put x.1 x.2.1 x.2.2) t) = p s
    rw [ih, h]

/-! A register written. -/

@[simp] theorem setReg_pending (s : State) (k : RegKind) (i : List Nat) (v : Nat) : (s.setReg k i v).pending = s.pending := rfl
@[simp] theorem setReg_free (s : State) (k : RegKind) (i : List Nat) (v : Nat) : (s.setReg k i v).free = s.free := rfl
@[simp] theorem setReg_out (s : State) (k : RegKind) (i : List Nat) (v : Nat) : (s.setReg k i v).out = s.out := rfl
@[simp] theorem setReg_mem (s : State) (k : RegKind) (i : List Nat) (v : Nat) : (s.setReg k i v).mem = s.mem := rfl
@[simp] theorem setReg_hostMem (s : State) (k : RegKind) (i : List Nat) (v : Nat) : (s.setReg k i v).hostMem = s.hostMem := rfl
@[simp] theorem setReg_accTags (s : State) (k : RegKind) (i : List Nat) (v : Nat) : (s.setReg k i v).accTags = s.accTags := rfl
@[simp] theorem setReg_badParity (s : State) (k : RegKind) (i : List Nat) (v : Nat) : (s.setReg k i v).badParity = s.badParity := rfl
@[simp] theorem setReg_poison (s : State) (k : RegKind) (i : List Nat) (v : Nat) : (s.setReg k i v).poison = s.poison := rfl
@[simp] theorem setReg_symErrs (s : State) (k : RegKind) (i : List Nat) (v : Nat) : (s.setReg k i v).symErrs = s.symErrs := rfl
@[simp] theorem setReg_own (s : State) (k : RegKind) (i : List Nat) (v : Nat) : (s.setReg k i v).own = s.own := rfl
@[simp] theorem setReg_mapSaved (s : State) (k : RegKind) (i : List Nat) (v : Nat) : (s.setReg k i v).mapSaved = s.mapSaved := rfl
@[simp] theorem setReg_mapCadence (s : State) (k : RegKind) (i : List Nat) (v : Nat) : (s.setReg k i v).mapCadence = s.mapCadence := rfl
@[simp] theorem setReg_fltHeld (s : State) (k : RegKind) (i : List Nat) (v : Nat) : (s.setReg k i v).fltHeld = s.fltHeld := rfl
@[simp] theorem setReg_fltLostBy (s : State) (k : RegKind) (i : List Nat) (v : Nat) : (s.setReg k i v).fltLostBy = s.fltLostBy := rfl
@[simp] theorem setReg_cores (s : State) (k : RegKind) (i : List Nat) (v : Nat) : (s.setReg k i v).cores = s.cores := rfl
@[simp] theorem setReg_dma (s : State) (k : RegKind) (i : List Nat) (v : Nat) : (s.setReg k i v).dma = s.dma := rfl
@[simp] theorem setReg_nbRun (s : State) (k : RegKind) (i : List Nat) (v : Nat) : (s.setReg k i v).nbRun = s.nbRun := rfl
@[simp] theorem setReg_nbNext (s : State) (k : RegKind) (i : List Nat) (v : Nat) : (s.setReg k i v).nbNext = s.nbNext := rfl
@[simp] theorem setReg_nbBuf (s : State) (k : RegKind) (i : List Nat) (v : Nat) : (s.setReg k i v).nbBuf = s.nbBuf := rfl
@[simp] theorem setReg_chans (s : State) (k : RegKind) (i : List Nat) (v : Nat) : (s.setReg k i v).chans = s.chans := rfl
@[simp] theorem setReg_farMem (s : State) (k : RegKind) (i : List Nat) (v : Nat) : (s.setReg k i v).farMem = s.farMem := rfl
@[simp] theorem setReg_farPoison (s : State) (k : RegKind) (i : List Nat) (v : Nat) : (s.setReg k i v).farPoison = s.farPoison := rfl
@[simp] theorem setReg_far (s : State) (k : RegKind) (i : List Nat) (v : Nat) : (s.setReg k i v).far = s.far := rfl
@[simp] theorem setReg_farEmpty (s : State) (k : RegKind) (i : List Nat) (v : Nat) : (s.setReg k i v).farEmpty = s.farEmpty := rfl
@[simp] theorem setReg_gf (s : State) (k : RegKind) (i : List Nat) (v : Nat) : (s.setReg k i v).gf = s.gf := rfl
@[simp] theorem setReg_txns (s : State) (k : RegKind) (i : List Nat) (v : Nat) : (s.setReg k i v).txns = s.txns := rfl
@[simp] theorem setReg_nextTag (s : State) (k : RegKind) (i : List Nat) (v : Nat) : (s.setReg k i v).nextTag = s.nextTag := rfl
@[simp] theorem setReg_gfHeld (s : State) (k : RegKind) (i : List Nat) (v : Nat) : (s.setReg k i v).gfHeld = s.gfHeld := rfl
@[simp] theorem setReg_settling (s : State) (k : RegKind) (i : List Nat) (v : Nat) : (s.setReg k i v).settling = s.settling := rfl
@[simp] theorem setReg_mgmtIn (s : State) (k : RegKind) (i : List Nat) (v : Nat) : (s.setReg k i v).mgmtIn = s.mgmtIn := rfl
@[simp] theorem setReg_cad (s : State) (k : RegKind) (i : List Nat) (v : Nat) : (s.setReg k i v).cad = s.cad := rfl
@[simp] theorem setReg_groups (s : State) (k : RegKind) (i : List Nat) (v : Nat) : (s.setReg k i v).groups = s.groups := rfl
@[simp] theorem setReg_words (s : State) (k : RegKind) (i : List Nat) (v : Nat) : (s.setReg k i v).words = s.words := rfl
@[simp] theorem setReg_bx (s : State) (k : RegKind) (i : List Nat) (v : Nat) : (s.setReg k i v).bx = s.bx := rfl
@[simp] theorem setReg_bxHeld (s : State) (k : RegKind) (i : List Nat) (v : Nat) : (s.setReg k i v).bxHeld = s.bxHeld := rfl
@[simp] theorem setReg_mesh (s : State) (k : RegKind) (i : List Nat) (v : Nat) : (s.setReg k i v).mesh = s.mesh := rfl
@[simp] theorem setReg_power (s : State) (k : RegKind) (i : List Nat) (v : Nat) : (s.setReg k i v).power = s.power := rfl
@[simp] theorem setReg_hostWait (s : State) (k : RegKind) (i : List Nat) (v : Nat) : (s.setReg k i v).hostWait = s.hostWait := rfl
@[simp] theorem setReg_holdoff (s : State) (k : RegKind) (i : List Nat) (v : Nat) : (s.setReg k i v).holdoff = s.holdoff := rfl
@[simp] theorem setReg_posted (s : State) (k : RegKind) (i : List Nat) (v : Nat) : (s.setReg k i v).posted = s.posted := rfl
@[simp] theorem setReg_finals (s : State) (k : RegKind) (i : List Nat) (v : Nat) : (s.setReg k i v).finals = s.finals := rfl
@[simp] theorem setReg_hdm (s : State) (k : RegKind) (i : List Nat) (v : Nat) : (s.setReg k i v).hdm = s.hdm := rfl
@[simp] theorem setReg_heldAcc (s : State) (k : RegKind) (i : List Nat) (v : Nat) : (s.setReg k i v).heldAcc = s.heldAcc := rfl
@[simp] theorem setReg_loans (s : State) (k : RegKind) (i : List Nat) (v : Nat) : (s.setReg k i v).loans = s.loans := rfl
@[simp] theorem setReg_gotFrames (s : State) (k : RegKind) (i : List Nat) (v : Nat) : (s.setReg k i v).gotFrames = s.gotFrames := rfl
@[simp] theorem setReg_bring (s : State) (k : RegKind) (i : List Nat) (v : Nat) : (s.setReg k i v).bring = s.bring := rfl
@[simp] theorem setReg_sec (s : State) (k : RegKind) (i : List Nat) (v : Nat) : (s.setReg k i v).sec = s.sec := rfl
@[simp] theorem setReg_cons (s : State) (k : RegKind) (i : List Nat) (v : Nat) : (s.setReg k i v).cons = s.cons := rfl
@[simp] theorem setReg_vddCore (s : State) (k : RegKind) (i : List Nat) (v : Nat) : (s.setReg k i v).vddCore = s.vddCore := rfl
@[simp] theorem setReg_avsHold (s : State) (k : RegKind) (i : List Nat) (v : Nat) : (s.setReg k i v).avsHold = s.avsHold := rfl
@[simp] theorem setReg_i3cAddr (s : State) (k : RegKind) (i : List Nat) (v : Nat) : (s.setReg k i v).i3cAddr = s.i3cAddr := rfl

/-! A field written. -/

@[simp] theorem put_pending (s : State) (f : Fld) (i : List Nat) (v : Nat) : (s.put f i v).pending = s.pending := rfl
@[simp] theorem put_free (s : State) (f : Fld) (i : List Nat) (v : Nat) : (s.put f i v).free = s.free := rfl
@[simp] theorem put_out (s : State) (f : Fld) (i : List Nat) (v : Nat) : (s.put f i v).out = s.out := rfl
@[simp] theorem put_mem (s : State) (f : Fld) (i : List Nat) (v : Nat) : (s.put f i v).mem = s.mem := rfl
@[simp] theorem put_hostMem (s : State) (f : Fld) (i : List Nat) (v : Nat) : (s.put f i v).hostMem = s.hostMem := rfl
@[simp] theorem put_accTags (s : State) (f : Fld) (i : List Nat) (v : Nat) : (s.put f i v).accTags = s.accTags := rfl
@[simp] theorem put_badParity (s : State) (f : Fld) (i : List Nat) (v : Nat) : (s.put f i v).badParity = s.badParity := rfl
@[simp] theorem put_poison (s : State) (f : Fld) (i : List Nat) (v : Nat) : (s.put f i v).poison = s.poison := rfl
@[simp] theorem put_symErrs (s : State) (f : Fld) (i : List Nat) (v : Nat) : (s.put f i v).symErrs = s.symErrs := rfl
@[simp] theorem put_own (s : State) (f : Fld) (i : List Nat) (v : Nat) : (s.put f i v).own = s.own := rfl
@[simp] theorem put_mapSaved (s : State) (f : Fld) (i : List Nat) (v : Nat) : (s.put f i v).mapSaved = s.mapSaved := rfl
@[simp] theorem put_mapCadence (s : State) (f : Fld) (i : List Nat) (v : Nat) : (s.put f i v).mapCadence = s.mapCadence := rfl
@[simp] theorem put_fltHeld (s : State) (f : Fld) (i : List Nat) (v : Nat) : (s.put f i v).fltHeld = s.fltHeld := rfl
@[simp] theorem put_fltLostBy (s : State) (f : Fld) (i : List Nat) (v : Nat) : (s.put f i v).fltLostBy = s.fltLostBy := rfl
@[simp] theorem put_cores (s : State) (f : Fld) (i : List Nat) (v : Nat) : (s.put f i v).cores = s.cores := rfl
@[simp] theorem put_dma (s : State) (f : Fld) (i : List Nat) (v : Nat) : (s.put f i v).dma = s.dma := rfl
@[simp] theorem put_nbRun (s : State) (f : Fld) (i : List Nat) (v : Nat) : (s.put f i v).nbRun = s.nbRun := rfl
@[simp] theorem put_nbNext (s : State) (f : Fld) (i : List Nat) (v : Nat) : (s.put f i v).nbNext = s.nbNext := rfl
@[simp] theorem put_nbBuf (s : State) (f : Fld) (i : List Nat) (v : Nat) : (s.put f i v).nbBuf = s.nbBuf := rfl
@[simp] theorem put_chans (s : State) (f : Fld) (i : List Nat) (v : Nat) : (s.put f i v).chans = s.chans := rfl
@[simp] theorem put_farMem (s : State) (f : Fld) (i : List Nat) (v : Nat) : (s.put f i v).farMem = s.farMem := rfl
@[simp] theorem put_farPoison (s : State) (f : Fld) (i : List Nat) (v : Nat) : (s.put f i v).farPoison = s.farPoison := rfl
@[simp] theorem put_far (s : State) (f : Fld) (i : List Nat) (v : Nat) : (s.put f i v).far = s.far := rfl
@[simp] theorem put_farEmpty (s : State) (f : Fld) (i : List Nat) (v : Nat) : (s.put f i v).farEmpty = s.farEmpty := rfl
@[simp] theorem put_gf (s : State) (f : Fld) (i : List Nat) (v : Nat) : (s.put f i v).gf = s.gf := rfl
@[simp] theorem put_txns (s : State) (f : Fld) (i : List Nat) (v : Nat) : (s.put f i v).txns = s.txns := rfl
@[simp] theorem put_nextTag (s : State) (f : Fld) (i : List Nat) (v : Nat) : (s.put f i v).nextTag = s.nextTag := rfl
@[simp] theorem put_gfHeld (s : State) (f : Fld) (i : List Nat) (v : Nat) : (s.put f i v).gfHeld = s.gfHeld := rfl
@[simp] theorem put_settling (s : State) (f : Fld) (i : List Nat) (v : Nat) : (s.put f i v).settling = s.settling := rfl
@[simp] theorem put_mgmtIn (s : State) (f : Fld) (i : List Nat) (v : Nat) : (s.put f i v).mgmtIn = s.mgmtIn := rfl
@[simp] theorem put_cad (s : State) (f : Fld) (i : List Nat) (v : Nat) : (s.put f i v).cad = s.cad := rfl
@[simp] theorem put_groups (s : State) (f : Fld) (i : List Nat) (v : Nat) : (s.put f i v).groups = s.groups := rfl
@[simp] theorem put_words (s : State) (f : Fld) (i : List Nat) (v : Nat) : (s.put f i v).words = s.words := rfl
@[simp] theorem put_bx (s : State) (f : Fld) (i : List Nat) (v : Nat) : (s.put f i v).bx = s.bx := rfl
@[simp] theorem put_bxHeld (s : State) (f : Fld) (i : List Nat) (v : Nat) : (s.put f i v).bxHeld = s.bxHeld := rfl
@[simp] theorem put_mesh (s : State) (f : Fld) (i : List Nat) (v : Nat) : (s.put f i v).mesh = s.mesh := rfl
@[simp] theorem put_power (s : State) (f : Fld) (i : List Nat) (v : Nat) : (s.put f i v).power = s.power := rfl
@[simp] theorem put_hostWait (s : State) (f : Fld) (i : List Nat) (v : Nat) : (s.put f i v).hostWait = s.hostWait := rfl
@[simp] theorem put_holdoff (s : State) (f : Fld) (i : List Nat) (v : Nat) : (s.put f i v).holdoff = s.holdoff := rfl
@[simp] theorem put_posted (s : State) (f : Fld) (i : List Nat) (v : Nat) : (s.put f i v).posted = s.posted := rfl
@[simp] theorem put_finals (s : State) (f : Fld) (i : List Nat) (v : Nat) : (s.put f i v).finals = s.finals := rfl
@[simp] theorem put_hdm (s : State) (f : Fld) (i : List Nat) (v : Nat) : (s.put f i v).hdm = s.hdm := rfl
@[simp] theorem put_heldAcc (s : State) (f : Fld) (i : List Nat) (v : Nat) : (s.put f i v).heldAcc = s.heldAcc := rfl
@[simp] theorem put_loans (s : State) (f : Fld) (i : List Nat) (v : Nat) : (s.put f i v).loans = s.loans := rfl
@[simp] theorem put_gotFrames (s : State) (f : Fld) (i : List Nat) (v : Nat) : (s.put f i v).gotFrames = s.gotFrames := rfl
@[simp] theorem put_bring (s : State) (f : Fld) (i : List Nat) (v : Nat) : (s.put f i v).bring = s.bring := rfl
@[simp] theorem put_sec (s : State) (f : Fld) (i : List Nat) (v : Nat) : (s.put f i v).sec = s.sec := rfl
@[simp] theorem put_cons (s : State) (f : Fld) (i : List Nat) (v : Nat) : (s.put f i v).cons = s.cons := rfl
@[simp] theorem put_vddCore (s : State) (f : Fld) (i : List Nat) (v : Nat) : (s.put f i v).vddCore = s.vddCore := rfl
@[simp] theorem put_avsHold (s : State) (f : Fld) (i : List Nat) (v : Nat) : (s.put f i v).avsHold = s.avsHold := rfl
@[simp] theorem put_i3cAddr (s : State) (f : Fld) (i : List Nat) (v : Nat) : (s.put f i v).i3cAddr = s.i3cAddr := rfl

/-! A counter advanced. -/

@[simp] theorem bump_pending (s : State) (f : Fld) (i : List Nat) (n : Nat) : (s.bump f i n).pending = s.pending := rfl
@[simp] theorem bump_free (s : State) (f : Fld) (i : List Nat) (n : Nat) : (s.bump f i n).free = s.free := rfl
@[simp] theorem bump_out (s : State) (f : Fld) (i : List Nat) (n : Nat) : (s.bump f i n).out = s.out := rfl
@[simp] theorem bump_mem (s : State) (f : Fld) (i : List Nat) (n : Nat) : (s.bump f i n).mem = s.mem := rfl
@[simp] theorem bump_hostMem (s : State) (f : Fld) (i : List Nat) (n : Nat) : (s.bump f i n).hostMem = s.hostMem := rfl
@[simp] theorem bump_accTags (s : State) (f : Fld) (i : List Nat) (n : Nat) : (s.bump f i n).accTags = s.accTags := rfl
@[simp] theorem bump_badParity (s : State) (f : Fld) (i : List Nat) (n : Nat) : (s.bump f i n).badParity = s.badParity := rfl
@[simp] theorem bump_poison (s : State) (f : Fld) (i : List Nat) (n : Nat) : (s.bump f i n).poison = s.poison := rfl
@[simp] theorem bump_symErrs (s : State) (f : Fld) (i : List Nat) (n : Nat) : (s.bump f i n).symErrs = s.symErrs := rfl
@[simp] theorem bump_own (s : State) (f : Fld) (i : List Nat) (n : Nat) : (s.bump f i n).own = s.own := rfl
@[simp] theorem bump_mapSaved (s : State) (f : Fld) (i : List Nat) (n : Nat) : (s.bump f i n).mapSaved = s.mapSaved := rfl
@[simp] theorem bump_mapCadence (s : State) (f : Fld) (i : List Nat) (n : Nat) : (s.bump f i n).mapCadence = s.mapCadence := rfl
@[simp] theorem bump_fltHeld (s : State) (f : Fld) (i : List Nat) (n : Nat) : (s.bump f i n).fltHeld = s.fltHeld := rfl
@[simp] theorem bump_fltLostBy (s : State) (f : Fld) (i : List Nat) (n : Nat) : (s.bump f i n).fltLostBy = s.fltLostBy := rfl
@[simp] theorem bump_cores (s : State) (f : Fld) (i : List Nat) (n : Nat) : (s.bump f i n).cores = s.cores := rfl
@[simp] theorem bump_dma (s : State) (f : Fld) (i : List Nat) (n : Nat) : (s.bump f i n).dma = s.dma := rfl
@[simp] theorem bump_nbRun (s : State) (f : Fld) (i : List Nat) (n : Nat) : (s.bump f i n).nbRun = s.nbRun := rfl
@[simp] theorem bump_nbNext (s : State) (f : Fld) (i : List Nat) (n : Nat) : (s.bump f i n).nbNext = s.nbNext := rfl
@[simp] theorem bump_nbBuf (s : State) (f : Fld) (i : List Nat) (n : Nat) : (s.bump f i n).nbBuf = s.nbBuf := rfl
@[simp] theorem bump_chans (s : State) (f : Fld) (i : List Nat) (n : Nat) : (s.bump f i n).chans = s.chans := rfl
@[simp] theorem bump_farMem (s : State) (f : Fld) (i : List Nat) (n : Nat) : (s.bump f i n).farMem = s.farMem := rfl
@[simp] theorem bump_farPoison (s : State) (f : Fld) (i : List Nat) (n : Nat) : (s.bump f i n).farPoison = s.farPoison := rfl
@[simp] theorem bump_far (s : State) (f : Fld) (i : List Nat) (n : Nat) : (s.bump f i n).far = s.far := rfl
@[simp] theorem bump_farEmpty (s : State) (f : Fld) (i : List Nat) (n : Nat) : (s.bump f i n).farEmpty = s.farEmpty := rfl
@[simp] theorem bump_gf (s : State) (f : Fld) (i : List Nat) (n : Nat) : (s.bump f i n).gf = s.gf := rfl
@[simp] theorem bump_txns (s : State) (f : Fld) (i : List Nat) (n : Nat) : (s.bump f i n).txns = s.txns := rfl
@[simp] theorem bump_nextTag (s : State) (f : Fld) (i : List Nat) (n : Nat) : (s.bump f i n).nextTag = s.nextTag := rfl
@[simp] theorem bump_gfHeld (s : State) (f : Fld) (i : List Nat) (n : Nat) : (s.bump f i n).gfHeld = s.gfHeld := rfl
@[simp] theorem bump_settling (s : State) (f : Fld) (i : List Nat) (n : Nat) : (s.bump f i n).settling = s.settling := rfl
@[simp] theorem bump_mgmtIn (s : State) (f : Fld) (i : List Nat) (n : Nat) : (s.bump f i n).mgmtIn = s.mgmtIn := rfl
@[simp] theorem bump_cad (s : State) (f : Fld) (i : List Nat) (n : Nat) : (s.bump f i n).cad = s.cad := rfl
@[simp] theorem bump_groups (s : State) (f : Fld) (i : List Nat) (n : Nat) : (s.bump f i n).groups = s.groups := rfl
@[simp] theorem bump_words (s : State) (f : Fld) (i : List Nat) (n : Nat) : (s.bump f i n).words = s.words := rfl
@[simp] theorem bump_bx (s : State) (f : Fld) (i : List Nat) (n : Nat) : (s.bump f i n).bx = s.bx := rfl
@[simp] theorem bump_bxHeld (s : State) (f : Fld) (i : List Nat) (n : Nat) : (s.bump f i n).bxHeld = s.bxHeld := rfl
@[simp] theorem bump_mesh (s : State) (f : Fld) (i : List Nat) (n : Nat) : (s.bump f i n).mesh = s.mesh := rfl
@[simp] theorem bump_power (s : State) (f : Fld) (i : List Nat) (n : Nat) : (s.bump f i n).power = s.power := rfl
@[simp] theorem bump_hostWait (s : State) (f : Fld) (i : List Nat) (n : Nat) : (s.bump f i n).hostWait = s.hostWait := rfl
@[simp] theorem bump_holdoff (s : State) (f : Fld) (i : List Nat) (n : Nat) : (s.bump f i n).holdoff = s.holdoff := rfl
@[simp] theorem bump_posted (s : State) (f : Fld) (i : List Nat) (n : Nat) : (s.bump f i n).posted = s.posted := rfl
@[simp] theorem bump_finals (s : State) (f : Fld) (i : List Nat) (n : Nat) : (s.bump f i n).finals = s.finals := rfl
@[simp] theorem bump_hdm (s : State) (f : Fld) (i : List Nat) (n : Nat) : (s.bump f i n).hdm = s.hdm := rfl
@[simp] theorem bump_heldAcc (s : State) (f : Fld) (i : List Nat) (n : Nat) : (s.bump f i n).heldAcc = s.heldAcc := rfl
@[simp] theorem bump_loans (s : State) (f : Fld) (i : List Nat) (n : Nat) : (s.bump f i n).loans = s.loans := rfl
@[simp] theorem bump_gotFrames (s : State) (f : Fld) (i : List Nat) (n : Nat) : (s.bump f i n).gotFrames = s.gotFrames := rfl
@[simp] theorem bump_bring (s : State) (f : Fld) (i : List Nat) (n : Nat) : (s.bump f i n).bring = s.bring := rfl
@[simp] theorem bump_sec (s : State) (f : Fld) (i : List Nat) (n : Nat) : (s.bump f i n).sec = s.sec := rfl
@[simp] theorem bump_cons (s : State) (f : Fld) (i : List Nat) (n : Nat) : (s.bump f i n).cons = s.cons := rfl
@[simp] theorem bump_vddCore (s : State) (f : Fld) (i : List Nat) (n : Nat) : (s.bump f i n).vddCore = s.vddCore := rfl
@[simp] theorem bump_avsHold (s : State) (f : Fld) (i : List Nat) (n : Nat) : (s.bump f i n).avsHold = s.avsHold := rfl
@[simp] theorem bump_i3cAddr (s : State) (f : Fld) (i : List Nat) (n : Nat) : (s.bump f i n).i3cAddr = s.i3cAddr := rfl

/-! Several fields written. -/

@[simp] theorem puts_pending (s : State) (l : List (Fld × List Nat × Nat)) : (s.puts l).pending = s.pending := puts_keeps State.pending (fun _ _ _ _ => rfl) l s
@[simp] theorem puts_free (s : State) (l : List (Fld × List Nat × Nat)) : (s.puts l).free = s.free := puts_keeps State.free (fun _ _ _ _ => rfl) l s
@[simp] theorem puts_out (s : State) (l : List (Fld × List Nat × Nat)) : (s.puts l).out = s.out := puts_keeps State.out (fun _ _ _ _ => rfl) l s
@[simp] theorem puts_mem (s : State) (l : List (Fld × List Nat × Nat)) : (s.puts l).mem = s.mem := puts_keeps State.mem (fun _ _ _ _ => rfl) l s
@[simp] theorem puts_hostMem (s : State) (l : List (Fld × List Nat × Nat)) : (s.puts l).hostMem = s.hostMem := puts_keeps State.hostMem (fun _ _ _ _ => rfl) l s
@[simp] theorem puts_accTags (s : State) (l : List (Fld × List Nat × Nat)) : (s.puts l).accTags = s.accTags := puts_keeps State.accTags (fun _ _ _ _ => rfl) l s
@[simp] theorem puts_badParity (s : State) (l : List (Fld × List Nat × Nat)) : (s.puts l).badParity = s.badParity := puts_keeps State.badParity (fun _ _ _ _ => rfl) l s
@[simp] theorem puts_poison (s : State) (l : List (Fld × List Nat × Nat)) : (s.puts l).poison = s.poison := puts_keeps State.poison (fun _ _ _ _ => rfl) l s
@[simp] theorem puts_symErrs (s : State) (l : List (Fld × List Nat × Nat)) : (s.puts l).symErrs = s.symErrs := puts_keeps State.symErrs (fun _ _ _ _ => rfl) l s
@[simp] theorem puts_own (s : State) (l : List (Fld × List Nat × Nat)) : (s.puts l).own = s.own := puts_keeps State.own (fun _ _ _ _ => rfl) l s
@[simp] theorem puts_mapSaved (s : State) (l : List (Fld × List Nat × Nat)) : (s.puts l).mapSaved = s.mapSaved := puts_keeps State.mapSaved (fun _ _ _ _ => rfl) l s
@[simp] theorem puts_mapCadence (s : State) (l : List (Fld × List Nat × Nat)) : (s.puts l).mapCadence = s.mapCadence := puts_keeps State.mapCadence (fun _ _ _ _ => rfl) l s
@[simp] theorem puts_fltHeld (s : State) (l : List (Fld × List Nat × Nat)) : (s.puts l).fltHeld = s.fltHeld := puts_keeps State.fltHeld (fun _ _ _ _ => rfl) l s
@[simp] theorem puts_fltLostBy (s : State) (l : List (Fld × List Nat × Nat)) : (s.puts l).fltLostBy = s.fltLostBy := puts_keeps State.fltLostBy (fun _ _ _ _ => rfl) l s
@[simp] theorem puts_cores (s : State) (l : List (Fld × List Nat × Nat)) : (s.puts l).cores = s.cores := puts_keeps State.cores (fun _ _ _ _ => rfl) l s
@[simp] theorem puts_dma (s : State) (l : List (Fld × List Nat × Nat)) : (s.puts l).dma = s.dma := puts_keeps State.dma (fun _ _ _ _ => rfl) l s
@[simp] theorem puts_nbRun (s : State) (l : List (Fld × List Nat × Nat)) : (s.puts l).nbRun = s.nbRun := puts_keeps State.nbRun (fun _ _ _ _ => rfl) l s
@[simp] theorem puts_nbNext (s : State) (l : List (Fld × List Nat × Nat)) : (s.puts l).nbNext = s.nbNext := puts_keeps State.nbNext (fun _ _ _ _ => rfl) l s
@[simp] theorem puts_nbBuf (s : State) (l : List (Fld × List Nat × Nat)) : (s.puts l).nbBuf = s.nbBuf := puts_keeps State.nbBuf (fun _ _ _ _ => rfl) l s
@[simp] theorem puts_chans (s : State) (l : List (Fld × List Nat × Nat)) : (s.puts l).chans = s.chans := puts_keeps State.chans (fun _ _ _ _ => rfl) l s
@[simp] theorem puts_farMem (s : State) (l : List (Fld × List Nat × Nat)) : (s.puts l).farMem = s.farMem := puts_keeps State.farMem (fun _ _ _ _ => rfl) l s
@[simp] theorem puts_farPoison (s : State) (l : List (Fld × List Nat × Nat)) : (s.puts l).farPoison = s.farPoison := puts_keeps State.farPoison (fun _ _ _ _ => rfl) l s
@[simp] theorem puts_far (s : State) (l : List (Fld × List Nat × Nat)) : (s.puts l).far = s.far := puts_keeps State.far (fun _ _ _ _ => rfl) l s
@[simp] theorem puts_farEmpty (s : State) (l : List (Fld × List Nat × Nat)) : (s.puts l).farEmpty = s.farEmpty := puts_keeps State.farEmpty (fun _ _ _ _ => rfl) l s
@[simp] theorem puts_gf (s : State) (l : List (Fld × List Nat × Nat)) : (s.puts l).gf = s.gf := puts_keeps State.gf (fun _ _ _ _ => rfl) l s
@[simp] theorem puts_txns (s : State) (l : List (Fld × List Nat × Nat)) : (s.puts l).txns = s.txns := puts_keeps State.txns (fun _ _ _ _ => rfl) l s
@[simp] theorem puts_nextTag (s : State) (l : List (Fld × List Nat × Nat)) : (s.puts l).nextTag = s.nextTag := puts_keeps State.nextTag (fun _ _ _ _ => rfl) l s
@[simp] theorem puts_gfHeld (s : State) (l : List (Fld × List Nat × Nat)) : (s.puts l).gfHeld = s.gfHeld := puts_keeps State.gfHeld (fun _ _ _ _ => rfl) l s
@[simp] theorem puts_settling (s : State) (l : List (Fld × List Nat × Nat)) : (s.puts l).settling = s.settling := puts_keeps State.settling (fun _ _ _ _ => rfl) l s
@[simp] theorem puts_mgmtIn (s : State) (l : List (Fld × List Nat × Nat)) : (s.puts l).mgmtIn = s.mgmtIn := puts_keeps State.mgmtIn (fun _ _ _ _ => rfl) l s
@[simp] theorem puts_cad (s : State) (l : List (Fld × List Nat × Nat)) : (s.puts l).cad = s.cad := puts_keeps State.cad (fun _ _ _ _ => rfl) l s
@[simp] theorem puts_groups (s : State) (l : List (Fld × List Nat × Nat)) : (s.puts l).groups = s.groups := puts_keeps State.groups (fun _ _ _ _ => rfl) l s
@[simp] theorem puts_words (s : State) (l : List (Fld × List Nat × Nat)) : (s.puts l).words = s.words := puts_keeps State.words (fun _ _ _ _ => rfl) l s
@[simp] theorem puts_bx (s : State) (l : List (Fld × List Nat × Nat)) : (s.puts l).bx = s.bx := puts_keeps State.bx (fun _ _ _ _ => rfl) l s
@[simp] theorem puts_bxHeld (s : State) (l : List (Fld × List Nat × Nat)) : (s.puts l).bxHeld = s.bxHeld := puts_keeps State.bxHeld (fun _ _ _ _ => rfl) l s
@[simp] theorem puts_mesh (s : State) (l : List (Fld × List Nat × Nat)) : (s.puts l).mesh = s.mesh := puts_keeps State.mesh (fun _ _ _ _ => rfl) l s
@[simp] theorem puts_power (s : State) (l : List (Fld × List Nat × Nat)) : (s.puts l).power = s.power := puts_keeps State.power (fun _ _ _ _ => rfl) l s
@[simp] theorem puts_hostWait (s : State) (l : List (Fld × List Nat × Nat)) : (s.puts l).hostWait = s.hostWait := puts_keeps State.hostWait (fun _ _ _ _ => rfl) l s
@[simp] theorem puts_holdoff (s : State) (l : List (Fld × List Nat × Nat)) : (s.puts l).holdoff = s.holdoff := puts_keeps State.holdoff (fun _ _ _ _ => rfl) l s
@[simp] theorem puts_posted (s : State) (l : List (Fld × List Nat × Nat)) : (s.puts l).posted = s.posted := puts_keeps State.posted (fun _ _ _ _ => rfl) l s
@[simp] theorem puts_finals (s : State) (l : List (Fld × List Nat × Nat)) : (s.puts l).finals = s.finals := puts_keeps State.finals (fun _ _ _ _ => rfl) l s
@[simp] theorem puts_hdm (s : State) (l : List (Fld × List Nat × Nat)) : (s.puts l).hdm = s.hdm := puts_keeps State.hdm (fun _ _ _ _ => rfl) l s
@[simp] theorem puts_heldAcc (s : State) (l : List (Fld × List Nat × Nat)) : (s.puts l).heldAcc = s.heldAcc := puts_keeps State.heldAcc (fun _ _ _ _ => rfl) l s
@[simp] theorem puts_loans (s : State) (l : List (Fld × List Nat × Nat)) : (s.puts l).loans = s.loans := puts_keeps State.loans (fun _ _ _ _ => rfl) l s
@[simp] theorem puts_gotFrames (s : State) (l : List (Fld × List Nat × Nat)) : (s.puts l).gotFrames = s.gotFrames := puts_keeps State.gotFrames (fun _ _ _ _ => rfl) l s
@[simp] theorem puts_bring (s : State) (l : List (Fld × List Nat × Nat)) : (s.puts l).bring = s.bring := puts_keeps State.bring (fun _ _ _ _ => rfl) l s
@[simp] theorem puts_sec (s : State) (l : List (Fld × List Nat × Nat)) : (s.puts l).sec = s.sec := puts_keeps State.sec (fun _ _ _ _ => rfl) l s
@[simp] theorem puts_cons (s : State) (l : List (Fld × List Nat × Nat)) : (s.puts l).cons = s.cons := puts_keeps State.cons (fun _ _ _ _ => rfl) l s
@[simp] theorem puts_vddCore (s : State) (l : List (Fld × List Nat × Nat)) : (s.puts l).vddCore = s.vddCore := puts_keeps State.vddCore (fun _ _ _ _ => rfl) l s
@[simp] theorem puts_avsHold (s : State) (l : List (Fld × List Nat × Nat)) : (s.puts l).avsHold = s.avsHold := puts_keeps State.avsHold (fun _ _ _ _ => rfl) l s
@[simp] theorem puts_i3cAddr (s : State) (l : List (Fld × List Nat × Nat)) : (s.puts l).i3cAddr = s.i3cAddr := puts_keeps State.i3cAddr (fun _ _ _ _ => rfl) l s

/-! A core written. -/

@[simp] theorem setCore_pending (s : State) (c : Nat) (x : CoreSt) : (s.setCore c x).pending = s.pending := rfl
@[simp] theorem setCore_free (s : State) (c : Nat) (x : CoreSt) : (s.setCore c x).free = s.free := rfl
@[simp] theorem setCore_out (s : State) (c : Nat) (x : CoreSt) : (s.setCore c x).out = s.out := rfl
@[simp] theorem setCore_regs (s : State) (c : Nat) (x : CoreSt) : (s.setCore c x).regs = s.regs := rfl
@[simp] theorem setCore_mem (s : State) (c : Nat) (x : CoreSt) : (s.setCore c x).mem = s.mem := rfl
@[simp] theorem setCore_hostMem (s : State) (c : Nat) (x : CoreSt) : (s.setCore c x).hostMem = s.hostMem := rfl
@[simp] theorem setCore_accTags (s : State) (c : Nat) (x : CoreSt) : (s.setCore c x).accTags = s.accTags := rfl
@[simp] theorem setCore_badParity (s : State) (c : Nat) (x : CoreSt) : (s.setCore c x).badParity = s.badParity := rfl
@[simp] theorem setCore_poison (s : State) (c : Nat) (x : CoreSt) : (s.setCore c x).poison = s.poison := rfl
@[simp] theorem setCore_symErrs (s : State) (c : Nat) (x : CoreSt) : (s.setCore c x).symErrs = s.symErrs := rfl
@[simp] theorem setCore_own (s : State) (c : Nat) (x : CoreSt) : (s.setCore c x).own = s.own := rfl
@[simp] theorem setCore_mapSaved (s : State) (c : Nat) (x : CoreSt) : (s.setCore c x).mapSaved = s.mapSaved := rfl
@[simp] theorem setCore_mapCadence (s : State) (c : Nat) (x : CoreSt) : (s.setCore c x).mapCadence = s.mapCadence := rfl
@[simp] theorem setCore_fltHeld (s : State) (c : Nat) (x : CoreSt) : (s.setCore c x).fltHeld = s.fltHeld := rfl
@[simp] theorem setCore_fltLostBy (s : State) (c : Nat) (x : CoreSt) : (s.setCore c x).fltLostBy = s.fltLostBy := rfl
@[simp] theorem setCore_dma (s : State) (c : Nat) (x : CoreSt) : (s.setCore c x).dma = s.dma := rfl
@[simp] theorem setCore_nbRun (s : State) (c : Nat) (x : CoreSt) : (s.setCore c x).nbRun = s.nbRun := rfl
@[simp] theorem setCore_nbNext (s : State) (c : Nat) (x : CoreSt) : (s.setCore c x).nbNext = s.nbNext := rfl
@[simp] theorem setCore_nbBuf (s : State) (c : Nat) (x : CoreSt) : (s.setCore c x).nbBuf = s.nbBuf := rfl
@[simp] theorem setCore_chans (s : State) (c : Nat) (x : CoreSt) : (s.setCore c x).chans = s.chans := rfl
@[simp] theorem setCore_farMem (s : State) (c : Nat) (x : CoreSt) : (s.setCore c x).farMem = s.farMem := rfl
@[simp] theorem setCore_farPoison (s : State) (c : Nat) (x : CoreSt) : (s.setCore c x).farPoison = s.farPoison := rfl
@[simp] theorem setCore_far (s : State) (c : Nat) (x : CoreSt) : (s.setCore c x).far = s.far := rfl
@[simp] theorem setCore_farEmpty (s : State) (c : Nat) (x : CoreSt) : (s.setCore c x).farEmpty = s.farEmpty := rfl
@[simp] theorem setCore_gf (s : State) (c : Nat) (x : CoreSt) : (s.setCore c x).gf = s.gf := rfl
@[simp] theorem setCore_txns (s : State) (c : Nat) (x : CoreSt) : (s.setCore c x).txns = s.txns := rfl
@[simp] theorem setCore_nextTag (s : State) (c : Nat) (x : CoreSt) : (s.setCore c x).nextTag = s.nextTag := rfl
@[simp] theorem setCore_gfHeld (s : State) (c : Nat) (x : CoreSt) : (s.setCore c x).gfHeld = s.gfHeld := rfl
@[simp] theorem setCore_settling (s : State) (c : Nat) (x : CoreSt) : (s.setCore c x).settling = s.settling := rfl
@[simp] theorem setCore_mgmtIn (s : State) (c : Nat) (x : CoreSt) : (s.setCore c x).mgmtIn = s.mgmtIn := rfl
@[simp] theorem setCore_cad (s : State) (c : Nat) (x : CoreSt) : (s.setCore c x).cad = s.cad := rfl
@[simp] theorem setCore_groups (s : State) (c : Nat) (x : CoreSt) : (s.setCore c x).groups = s.groups := rfl
@[simp] theorem setCore_words (s : State) (c : Nat) (x : CoreSt) : (s.setCore c x).words = s.words := rfl
@[simp] theorem setCore_bx (s : State) (c : Nat) (x : CoreSt) : (s.setCore c x).bx = s.bx := rfl
@[simp] theorem setCore_bxHeld (s : State) (c : Nat) (x : CoreSt) : (s.setCore c x).bxHeld = s.bxHeld := rfl
@[simp] theorem setCore_mesh (s : State) (c : Nat) (x : CoreSt) : (s.setCore c x).mesh = s.mesh := rfl
@[simp] theorem setCore_power (s : State) (c : Nat) (x : CoreSt) : (s.setCore c x).power = s.power := rfl
@[simp] theorem setCore_hostWait (s : State) (c : Nat) (x : CoreSt) : (s.setCore c x).hostWait = s.hostWait := rfl
@[simp] theorem setCore_holdoff (s : State) (c : Nat) (x : CoreSt) : (s.setCore c x).holdoff = s.holdoff := rfl
@[simp] theorem setCore_posted (s : State) (c : Nat) (x : CoreSt) : (s.setCore c x).posted = s.posted := rfl
@[simp] theorem setCore_finals (s : State) (c : Nat) (x : CoreSt) : (s.setCore c x).finals = s.finals := rfl
@[simp] theorem setCore_hdm (s : State) (c : Nat) (x : CoreSt) : (s.setCore c x).hdm = s.hdm := rfl
@[simp] theorem setCore_heldAcc (s : State) (c : Nat) (x : CoreSt) : (s.setCore c x).heldAcc = s.heldAcc := rfl
@[simp] theorem setCore_loans (s : State) (c : Nat) (x : CoreSt) : (s.setCore c x).loans = s.loans := rfl
@[simp] theorem setCore_gotFrames (s : State) (c : Nat) (x : CoreSt) : (s.setCore c x).gotFrames = s.gotFrames := rfl
@[simp] theorem setCore_bring (s : State) (c : Nat) (x : CoreSt) : (s.setCore c x).bring = s.bring := rfl
@[simp] theorem setCore_sec (s : State) (c : Nat) (x : CoreSt) : (s.setCore c x).sec = s.sec := rfl
@[simp] theorem setCore_cons (s : State) (c : Nat) (x : CoreSt) : (s.setCore c x).cons = s.cons := rfl
@[simp] theorem setCore_vddCore (s : State) (c : Nat) (x : CoreSt) : (s.setCore c x).vddCore = s.vddCore := rfl
@[simp] theorem setCore_avsHold (s : State) (c : Nat) (x : CoreSt) : (s.setCore c x).avsHold = s.avsHold := rfl
@[simp] theorem setCore_i3cAddr (s : State) (c : Nat) (x : CoreSt) : (s.setCore c x).i3cAddr = s.i3cAddr := rfl

/-! A core changed. -/

@[simp] theorem modCore_pending (s : State) (c : Nat) (f : CoreSt → CoreSt) : (s.modCore c f).pending = s.pending := rfl
@[simp] theorem modCore_free (s : State) (c : Nat) (f : CoreSt → CoreSt) : (s.modCore c f).free = s.free := rfl
@[simp] theorem modCore_out (s : State) (c : Nat) (f : CoreSt → CoreSt) : (s.modCore c f).out = s.out := rfl
@[simp] theorem modCore_regs (s : State) (c : Nat) (f : CoreSt → CoreSt) : (s.modCore c f).regs = s.regs := rfl
@[simp] theorem modCore_mem (s : State) (c : Nat) (f : CoreSt → CoreSt) : (s.modCore c f).mem = s.mem := rfl
@[simp] theorem modCore_hostMem (s : State) (c : Nat) (f : CoreSt → CoreSt) : (s.modCore c f).hostMem = s.hostMem := rfl
@[simp] theorem modCore_accTags (s : State) (c : Nat) (f : CoreSt → CoreSt) : (s.modCore c f).accTags = s.accTags := rfl
@[simp] theorem modCore_badParity (s : State) (c : Nat) (f : CoreSt → CoreSt) : (s.modCore c f).badParity = s.badParity := rfl
@[simp] theorem modCore_poison (s : State) (c : Nat) (f : CoreSt → CoreSt) : (s.modCore c f).poison = s.poison := rfl
@[simp] theorem modCore_symErrs (s : State) (c : Nat) (f : CoreSt → CoreSt) : (s.modCore c f).symErrs = s.symErrs := rfl
@[simp] theorem modCore_own (s : State) (c : Nat) (f : CoreSt → CoreSt) : (s.modCore c f).own = s.own := rfl
@[simp] theorem modCore_mapSaved (s : State) (c : Nat) (f : CoreSt → CoreSt) : (s.modCore c f).mapSaved = s.mapSaved := rfl
@[simp] theorem modCore_mapCadence (s : State) (c : Nat) (f : CoreSt → CoreSt) : (s.modCore c f).mapCadence = s.mapCadence := rfl
@[simp] theorem modCore_fltHeld (s : State) (c : Nat) (f : CoreSt → CoreSt) : (s.modCore c f).fltHeld = s.fltHeld := rfl
@[simp] theorem modCore_fltLostBy (s : State) (c : Nat) (f : CoreSt → CoreSt) : (s.modCore c f).fltLostBy = s.fltLostBy := rfl
@[simp] theorem modCore_dma (s : State) (c : Nat) (f : CoreSt → CoreSt) : (s.modCore c f).dma = s.dma := rfl
@[simp] theorem modCore_nbRun (s : State) (c : Nat) (f : CoreSt → CoreSt) : (s.modCore c f).nbRun = s.nbRun := rfl
@[simp] theorem modCore_nbNext (s : State) (c : Nat) (f : CoreSt → CoreSt) : (s.modCore c f).nbNext = s.nbNext := rfl
@[simp] theorem modCore_nbBuf (s : State) (c : Nat) (f : CoreSt → CoreSt) : (s.modCore c f).nbBuf = s.nbBuf := rfl
@[simp] theorem modCore_chans (s : State) (c : Nat) (f : CoreSt → CoreSt) : (s.modCore c f).chans = s.chans := rfl
@[simp] theorem modCore_farMem (s : State) (c : Nat) (f : CoreSt → CoreSt) : (s.modCore c f).farMem = s.farMem := rfl
@[simp] theorem modCore_farPoison (s : State) (c : Nat) (f : CoreSt → CoreSt) : (s.modCore c f).farPoison = s.farPoison := rfl
@[simp] theorem modCore_far (s : State) (c : Nat) (f : CoreSt → CoreSt) : (s.modCore c f).far = s.far := rfl
@[simp] theorem modCore_farEmpty (s : State) (c : Nat) (f : CoreSt → CoreSt) : (s.modCore c f).farEmpty = s.farEmpty := rfl
@[simp] theorem modCore_gf (s : State) (c : Nat) (f : CoreSt → CoreSt) : (s.modCore c f).gf = s.gf := rfl
@[simp] theorem modCore_txns (s : State) (c : Nat) (f : CoreSt → CoreSt) : (s.modCore c f).txns = s.txns := rfl
@[simp] theorem modCore_nextTag (s : State) (c : Nat) (f : CoreSt → CoreSt) : (s.modCore c f).nextTag = s.nextTag := rfl
@[simp] theorem modCore_gfHeld (s : State) (c : Nat) (f : CoreSt → CoreSt) : (s.modCore c f).gfHeld = s.gfHeld := rfl
@[simp] theorem modCore_settling (s : State) (c : Nat) (f : CoreSt → CoreSt) : (s.modCore c f).settling = s.settling := rfl
@[simp] theorem modCore_mgmtIn (s : State) (c : Nat) (f : CoreSt → CoreSt) : (s.modCore c f).mgmtIn = s.mgmtIn := rfl
@[simp] theorem modCore_cad (s : State) (c : Nat) (f : CoreSt → CoreSt) : (s.modCore c f).cad = s.cad := rfl
@[simp] theorem modCore_groups (s : State) (c : Nat) (f : CoreSt → CoreSt) : (s.modCore c f).groups = s.groups := rfl
@[simp] theorem modCore_words (s : State) (c : Nat) (f : CoreSt → CoreSt) : (s.modCore c f).words = s.words := rfl
@[simp] theorem modCore_bx (s : State) (c : Nat) (f : CoreSt → CoreSt) : (s.modCore c f).bx = s.bx := rfl
@[simp] theorem modCore_bxHeld (s : State) (c : Nat) (f : CoreSt → CoreSt) : (s.modCore c f).bxHeld = s.bxHeld := rfl
@[simp] theorem modCore_mesh (s : State) (c : Nat) (f : CoreSt → CoreSt) : (s.modCore c f).mesh = s.mesh := rfl
@[simp] theorem modCore_power (s : State) (c : Nat) (f : CoreSt → CoreSt) : (s.modCore c f).power = s.power := rfl
@[simp] theorem modCore_hostWait (s : State) (c : Nat) (f : CoreSt → CoreSt) : (s.modCore c f).hostWait = s.hostWait := rfl
@[simp] theorem modCore_holdoff (s : State) (c : Nat) (f : CoreSt → CoreSt) : (s.modCore c f).holdoff = s.holdoff := rfl
@[simp] theorem modCore_posted (s : State) (c : Nat) (f : CoreSt → CoreSt) : (s.modCore c f).posted = s.posted := rfl
@[simp] theorem modCore_finals (s : State) (c : Nat) (f : CoreSt → CoreSt) : (s.modCore c f).finals = s.finals := rfl
@[simp] theorem modCore_hdm (s : State) (c : Nat) (f : CoreSt → CoreSt) : (s.modCore c f).hdm = s.hdm := rfl
@[simp] theorem modCore_heldAcc (s : State) (c : Nat) (f : CoreSt → CoreSt) : (s.modCore c f).heldAcc = s.heldAcc := rfl
@[simp] theorem modCore_loans (s : State) (c : Nat) (f : CoreSt → CoreSt) : (s.modCore c f).loans = s.loans := rfl
@[simp] theorem modCore_gotFrames (s : State) (c : Nat) (f : CoreSt → CoreSt) : (s.modCore c f).gotFrames = s.gotFrames := rfl
@[simp] theorem modCore_bring (s : State) (c : Nat) (f : CoreSt → CoreSt) : (s.modCore c f).bring = s.bring := rfl
@[simp] theorem modCore_sec (s : State) (c : Nat) (f : CoreSt → CoreSt) : (s.modCore c f).sec = s.sec := rfl
@[simp] theorem modCore_cons (s : State) (c : Nat) (f : CoreSt → CoreSt) : (s.modCore c f).cons = s.cons := rfl
@[simp] theorem modCore_vddCore (s : State) (c : Nat) (f : CoreSt → CoreSt) : (s.modCore c f).vddCore = s.vddCore := rfl
@[simp] theorem modCore_avsHold (s : State) (c : Nat) (f : CoreSt → CoreSt) : (s.modCore c f).avsHold = s.avsHold := rfl
@[simp] theorem modCore_i3cAddr (s : State) (c : Nat) (f : CoreSt → CoreSt) : (s.modCore c f).i3cAddr = s.i3cAddr := rfl

/-! A slot written. -/

@[simp] theorem setSlot_pending (s : State) (c k : Nat) (v : Option Slot) : (s.setSlot c k v).pending = s.pending := rfl
@[simp] theorem setSlot_free (s : State) (c k : Nat) (v : Option Slot) : (s.setSlot c k v).free = s.free := rfl
@[simp] theorem setSlot_out (s : State) (c k : Nat) (v : Option Slot) : (s.setSlot c k v).out = s.out := rfl
@[simp] theorem setSlot_regs (s : State) (c k : Nat) (v : Option Slot) : (s.setSlot c k v).regs = s.regs := rfl
@[simp] theorem setSlot_mem (s : State) (c k : Nat) (v : Option Slot) : (s.setSlot c k v).mem = s.mem := rfl
@[simp] theorem setSlot_hostMem (s : State) (c k : Nat) (v : Option Slot) : (s.setSlot c k v).hostMem = s.hostMem := rfl
@[simp] theorem setSlot_accTags (s : State) (c k : Nat) (v : Option Slot) : (s.setSlot c k v).accTags = s.accTags := rfl
@[simp] theorem setSlot_badParity (s : State) (c k : Nat) (v : Option Slot) : (s.setSlot c k v).badParity = s.badParity := rfl
@[simp] theorem setSlot_poison (s : State) (c k : Nat) (v : Option Slot) : (s.setSlot c k v).poison = s.poison := rfl
@[simp] theorem setSlot_symErrs (s : State) (c k : Nat) (v : Option Slot) : (s.setSlot c k v).symErrs = s.symErrs := rfl
@[simp] theorem setSlot_own (s : State) (c k : Nat) (v : Option Slot) : (s.setSlot c k v).own = s.own := rfl
@[simp] theorem setSlot_mapSaved (s : State) (c k : Nat) (v : Option Slot) : (s.setSlot c k v).mapSaved = s.mapSaved := rfl
@[simp] theorem setSlot_mapCadence (s : State) (c k : Nat) (v : Option Slot) : (s.setSlot c k v).mapCadence = s.mapCadence := rfl
@[simp] theorem setSlot_fltHeld (s : State) (c k : Nat) (v : Option Slot) : (s.setSlot c k v).fltHeld = s.fltHeld := rfl
@[simp] theorem setSlot_fltLostBy (s : State) (c k : Nat) (v : Option Slot) : (s.setSlot c k v).fltLostBy = s.fltLostBy := rfl
@[simp] theorem setSlot_dma (s : State) (c k : Nat) (v : Option Slot) : (s.setSlot c k v).dma = s.dma := rfl
@[simp] theorem setSlot_nbRun (s : State) (c k : Nat) (v : Option Slot) : (s.setSlot c k v).nbRun = s.nbRun := rfl
@[simp] theorem setSlot_nbNext (s : State) (c k : Nat) (v : Option Slot) : (s.setSlot c k v).nbNext = s.nbNext := rfl
@[simp] theorem setSlot_nbBuf (s : State) (c k : Nat) (v : Option Slot) : (s.setSlot c k v).nbBuf = s.nbBuf := rfl
@[simp] theorem setSlot_chans (s : State) (c k : Nat) (v : Option Slot) : (s.setSlot c k v).chans = s.chans := rfl
@[simp] theorem setSlot_farMem (s : State) (c k : Nat) (v : Option Slot) : (s.setSlot c k v).farMem = s.farMem := rfl
@[simp] theorem setSlot_farPoison (s : State) (c k : Nat) (v : Option Slot) : (s.setSlot c k v).farPoison = s.farPoison := rfl
@[simp] theorem setSlot_far (s : State) (c k : Nat) (v : Option Slot) : (s.setSlot c k v).far = s.far := rfl
@[simp] theorem setSlot_farEmpty (s : State) (c k : Nat) (v : Option Slot) : (s.setSlot c k v).farEmpty = s.farEmpty := rfl
@[simp] theorem setSlot_gf (s : State) (c k : Nat) (v : Option Slot) : (s.setSlot c k v).gf = s.gf := rfl
@[simp] theorem setSlot_txns (s : State) (c k : Nat) (v : Option Slot) : (s.setSlot c k v).txns = s.txns := rfl
@[simp] theorem setSlot_nextTag (s : State) (c k : Nat) (v : Option Slot) : (s.setSlot c k v).nextTag = s.nextTag := rfl
@[simp] theorem setSlot_gfHeld (s : State) (c k : Nat) (v : Option Slot) : (s.setSlot c k v).gfHeld = s.gfHeld := rfl
@[simp] theorem setSlot_settling (s : State) (c k : Nat) (v : Option Slot) : (s.setSlot c k v).settling = s.settling := rfl
@[simp] theorem setSlot_mgmtIn (s : State) (c k : Nat) (v : Option Slot) : (s.setSlot c k v).mgmtIn = s.mgmtIn := rfl
@[simp] theorem setSlot_cad (s : State) (c k : Nat) (v : Option Slot) : (s.setSlot c k v).cad = s.cad := rfl
@[simp] theorem setSlot_groups (s : State) (c k : Nat) (v : Option Slot) : (s.setSlot c k v).groups = s.groups := rfl
@[simp] theorem setSlot_words (s : State) (c k : Nat) (v : Option Slot) : (s.setSlot c k v).words = s.words := rfl
@[simp] theorem setSlot_bx (s : State) (c k : Nat) (v : Option Slot) : (s.setSlot c k v).bx = s.bx := rfl
@[simp] theorem setSlot_bxHeld (s : State) (c k : Nat) (v : Option Slot) : (s.setSlot c k v).bxHeld = s.bxHeld := rfl
@[simp] theorem setSlot_mesh (s : State) (c k : Nat) (v : Option Slot) : (s.setSlot c k v).mesh = s.mesh := rfl
@[simp] theorem setSlot_power (s : State) (c k : Nat) (v : Option Slot) : (s.setSlot c k v).power = s.power := rfl
@[simp] theorem setSlot_hostWait (s : State) (c k : Nat) (v : Option Slot) : (s.setSlot c k v).hostWait = s.hostWait := rfl
@[simp] theorem setSlot_holdoff (s : State) (c k : Nat) (v : Option Slot) : (s.setSlot c k v).holdoff = s.holdoff := rfl
@[simp] theorem setSlot_posted (s : State) (c k : Nat) (v : Option Slot) : (s.setSlot c k v).posted = s.posted := rfl
@[simp] theorem setSlot_finals (s : State) (c k : Nat) (v : Option Slot) : (s.setSlot c k v).finals = s.finals := rfl
@[simp] theorem setSlot_hdm (s : State) (c k : Nat) (v : Option Slot) : (s.setSlot c k v).hdm = s.hdm := rfl
@[simp] theorem setSlot_heldAcc (s : State) (c k : Nat) (v : Option Slot) : (s.setSlot c k v).heldAcc = s.heldAcc := rfl
@[simp] theorem setSlot_loans (s : State) (c k : Nat) (v : Option Slot) : (s.setSlot c k v).loans = s.loans := rfl
@[simp] theorem setSlot_gotFrames (s : State) (c k : Nat) (v : Option Slot) : (s.setSlot c k v).gotFrames = s.gotFrames := rfl
@[simp] theorem setSlot_bring (s : State) (c k : Nat) (v : Option Slot) : (s.setSlot c k v).bring = s.bring := rfl
@[simp] theorem setSlot_sec (s : State) (c k : Nat) (v : Option Slot) : (s.setSlot c k v).sec = s.sec := rfl
@[simp] theorem setSlot_cons (s : State) (c k : Nat) (v : Option Slot) : (s.setSlot c k v).cons = s.cons := rfl
@[simp] theorem setSlot_vddCore (s : State) (c k : Nat) (v : Option Slot) : (s.setSlot c k v).vddCore = s.vddCore := rfl
@[simp] theorem setSlot_avsHold (s : State) (c k : Nat) (v : Option Slot) : (s.setSlot c k v).avsHold = s.avsHold := rfl
@[simp] theorem setSlot_i3cAddr (s : State) (c k : Nat) (v : Option Slot) : (s.setSlot c k v).i3cAddr = s.i3cAddr := rfl

/-! A slot changed. -/

@[simp] theorem modSlot_pending (s : State) (c k : Nat) (f : Slot → Slot) : (s.modSlot c k f).pending = s.pending := by unfold State.modSlot; split <;> rfl
@[simp] theorem modSlot_free (s : State) (c k : Nat) (f : Slot → Slot) : (s.modSlot c k f).free = s.free := by unfold State.modSlot; split <;> rfl
@[simp] theorem modSlot_out (s : State) (c k : Nat) (f : Slot → Slot) : (s.modSlot c k f).out = s.out := by unfold State.modSlot; split <;> rfl
@[simp] theorem modSlot_regs (s : State) (c k : Nat) (f : Slot → Slot) : (s.modSlot c k f).regs = s.regs := by unfold State.modSlot; split <;> rfl
@[simp] theorem modSlot_mem (s : State) (c k : Nat) (f : Slot → Slot) : (s.modSlot c k f).mem = s.mem := by unfold State.modSlot; split <;> rfl
@[simp] theorem modSlot_hostMem (s : State) (c k : Nat) (f : Slot → Slot) : (s.modSlot c k f).hostMem = s.hostMem := by unfold State.modSlot; split <;> rfl
@[simp] theorem modSlot_accTags (s : State) (c k : Nat) (f : Slot → Slot) : (s.modSlot c k f).accTags = s.accTags := by unfold State.modSlot; split <;> rfl
@[simp] theorem modSlot_badParity (s : State) (c k : Nat) (f : Slot → Slot) : (s.modSlot c k f).badParity = s.badParity := by unfold State.modSlot; split <;> rfl
@[simp] theorem modSlot_poison (s : State) (c k : Nat) (f : Slot → Slot) : (s.modSlot c k f).poison = s.poison := by unfold State.modSlot; split <;> rfl
@[simp] theorem modSlot_symErrs (s : State) (c k : Nat) (f : Slot → Slot) : (s.modSlot c k f).symErrs = s.symErrs := by unfold State.modSlot; split <;> rfl
@[simp] theorem modSlot_own (s : State) (c k : Nat) (f : Slot → Slot) : (s.modSlot c k f).own = s.own := by unfold State.modSlot; split <;> rfl
@[simp] theorem modSlot_mapSaved (s : State) (c k : Nat) (f : Slot → Slot) : (s.modSlot c k f).mapSaved = s.mapSaved := by unfold State.modSlot; split <;> rfl
@[simp] theorem modSlot_mapCadence (s : State) (c k : Nat) (f : Slot → Slot) : (s.modSlot c k f).mapCadence = s.mapCadence := by unfold State.modSlot; split <;> rfl
@[simp] theorem modSlot_fltHeld (s : State) (c k : Nat) (f : Slot → Slot) : (s.modSlot c k f).fltHeld = s.fltHeld := by unfold State.modSlot; split <;> rfl
@[simp] theorem modSlot_fltLostBy (s : State) (c k : Nat) (f : Slot → Slot) : (s.modSlot c k f).fltLostBy = s.fltLostBy := by unfold State.modSlot; split <;> rfl
@[simp] theorem modSlot_dma (s : State) (c k : Nat) (f : Slot → Slot) : (s.modSlot c k f).dma = s.dma := by unfold State.modSlot; split <;> rfl
@[simp] theorem modSlot_nbRun (s : State) (c k : Nat) (f : Slot → Slot) : (s.modSlot c k f).nbRun = s.nbRun := by unfold State.modSlot; split <;> rfl
@[simp] theorem modSlot_nbNext (s : State) (c k : Nat) (f : Slot → Slot) : (s.modSlot c k f).nbNext = s.nbNext := by unfold State.modSlot; split <;> rfl
@[simp] theorem modSlot_nbBuf (s : State) (c k : Nat) (f : Slot → Slot) : (s.modSlot c k f).nbBuf = s.nbBuf := by unfold State.modSlot; split <;> rfl
@[simp] theorem modSlot_chans (s : State) (c k : Nat) (f : Slot → Slot) : (s.modSlot c k f).chans = s.chans := by unfold State.modSlot; split <;> rfl
@[simp] theorem modSlot_farMem (s : State) (c k : Nat) (f : Slot → Slot) : (s.modSlot c k f).farMem = s.farMem := by unfold State.modSlot; split <;> rfl
@[simp] theorem modSlot_farPoison (s : State) (c k : Nat) (f : Slot → Slot) : (s.modSlot c k f).farPoison = s.farPoison := by unfold State.modSlot; split <;> rfl
@[simp] theorem modSlot_far (s : State) (c k : Nat) (f : Slot → Slot) : (s.modSlot c k f).far = s.far := by unfold State.modSlot; split <;> rfl
@[simp] theorem modSlot_farEmpty (s : State) (c k : Nat) (f : Slot → Slot) : (s.modSlot c k f).farEmpty = s.farEmpty := by unfold State.modSlot; split <;> rfl
@[simp] theorem modSlot_gf (s : State) (c k : Nat) (f : Slot → Slot) : (s.modSlot c k f).gf = s.gf := by unfold State.modSlot; split <;> rfl
@[simp] theorem modSlot_txns (s : State) (c k : Nat) (f : Slot → Slot) : (s.modSlot c k f).txns = s.txns := by unfold State.modSlot; split <;> rfl
@[simp] theorem modSlot_nextTag (s : State) (c k : Nat) (f : Slot → Slot) : (s.modSlot c k f).nextTag = s.nextTag := by unfold State.modSlot; split <;> rfl
@[simp] theorem modSlot_gfHeld (s : State) (c k : Nat) (f : Slot → Slot) : (s.modSlot c k f).gfHeld = s.gfHeld := by unfold State.modSlot; split <;> rfl
@[simp] theorem modSlot_settling (s : State) (c k : Nat) (f : Slot → Slot) : (s.modSlot c k f).settling = s.settling := by unfold State.modSlot; split <;> rfl
@[simp] theorem modSlot_mgmtIn (s : State) (c k : Nat) (f : Slot → Slot) : (s.modSlot c k f).mgmtIn = s.mgmtIn := by unfold State.modSlot; split <;> rfl
@[simp] theorem modSlot_cad (s : State) (c k : Nat) (f : Slot → Slot) : (s.modSlot c k f).cad = s.cad := by unfold State.modSlot; split <;> rfl
@[simp] theorem modSlot_groups (s : State) (c k : Nat) (f : Slot → Slot) : (s.modSlot c k f).groups = s.groups := by unfold State.modSlot; split <;> rfl
@[simp] theorem modSlot_words (s : State) (c k : Nat) (f : Slot → Slot) : (s.modSlot c k f).words = s.words := by unfold State.modSlot; split <;> rfl
@[simp] theorem modSlot_bx (s : State) (c k : Nat) (f : Slot → Slot) : (s.modSlot c k f).bx = s.bx := by unfold State.modSlot; split <;> rfl
@[simp] theorem modSlot_bxHeld (s : State) (c k : Nat) (f : Slot → Slot) : (s.modSlot c k f).bxHeld = s.bxHeld := by unfold State.modSlot; split <;> rfl
@[simp] theorem modSlot_mesh (s : State) (c k : Nat) (f : Slot → Slot) : (s.modSlot c k f).mesh = s.mesh := by unfold State.modSlot; split <;> rfl
@[simp] theorem modSlot_power (s : State) (c k : Nat) (f : Slot → Slot) : (s.modSlot c k f).power = s.power := by unfold State.modSlot; split <;> rfl
@[simp] theorem modSlot_hostWait (s : State) (c k : Nat) (f : Slot → Slot) : (s.modSlot c k f).hostWait = s.hostWait := by unfold State.modSlot; split <;> rfl
@[simp] theorem modSlot_holdoff (s : State) (c k : Nat) (f : Slot → Slot) : (s.modSlot c k f).holdoff = s.holdoff := by unfold State.modSlot; split <;> rfl
@[simp] theorem modSlot_posted (s : State) (c k : Nat) (f : Slot → Slot) : (s.modSlot c k f).posted = s.posted := by unfold State.modSlot; split <;> rfl
@[simp] theorem modSlot_finals (s : State) (c k : Nat) (f : Slot → Slot) : (s.modSlot c k f).finals = s.finals := by unfold State.modSlot; split <;> rfl
@[simp] theorem modSlot_hdm (s : State) (c k : Nat) (f : Slot → Slot) : (s.modSlot c k f).hdm = s.hdm := by unfold State.modSlot; split <;> rfl
@[simp] theorem modSlot_heldAcc (s : State) (c k : Nat) (f : Slot → Slot) : (s.modSlot c k f).heldAcc = s.heldAcc := by unfold State.modSlot; split <;> rfl
@[simp] theorem modSlot_loans (s : State) (c k : Nat) (f : Slot → Slot) : (s.modSlot c k f).loans = s.loans := by unfold State.modSlot; split <;> rfl
@[simp] theorem modSlot_gotFrames (s : State) (c k : Nat) (f : Slot → Slot) : (s.modSlot c k f).gotFrames = s.gotFrames := by unfold State.modSlot; split <;> rfl
@[simp] theorem modSlot_bring (s : State) (c k : Nat) (f : Slot → Slot) : (s.modSlot c k f).bring = s.bring := by unfold State.modSlot; split <;> rfl
@[simp] theorem modSlot_sec (s : State) (c k : Nat) (f : Slot → Slot) : (s.modSlot c k f).sec = s.sec := by unfold State.modSlot; split <;> rfl
@[simp] theorem modSlot_cons (s : State) (c k : Nat) (f : Slot → Slot) : (s.modSlot c k f).cons = s.cons := by unfold State.modSlot; split <;> rfl
@[simp] theorem modSlot_vddCore (s : State) (c k : Nat) (f : Slot → Slot) : (s.modSlot c k f).vddCore = s.vddCore := by unfold State.modSlot; split <;> rfl
@[simp] theorem modSlot_avsHold (s : State) (c k : Nat) (f : Slot → Slot) : (s.modSlot c k f).avsHold = s.avsHold := by unfold State.modSlot; split <;> rfl
@[simp] theorem modSlot_i3cAddr (s : State) (c k : Nat) (f : Slot → Slot) : (s.modSlot c k f).i3cAddr = s.i3cAddr := by unfold State.modSlot; split <;> rfl

/-! A DMA engine written. -/

@[simp] theorem setEng_pending (s : State) (c e : Nat) (x : DmaEng) : (s.setEng c e x).pending = s.pending := rfl
@[simp] theorem setEng_free (s : State) (c e : Nat) (x : DmaEng) : (s.setEng c e x).free = s.free := rfl
@[simp] theorem setEng_out (s : State) (c e : Nat) (x : DmaEng) : (s.setEng c e x).out = s.out := rfl
@[simp] theorem setEng_regs (s : State) (c e : Nat) (x : DmaEng) : (s.setEng c e x).regs = s.regs := rfl
@[simp] theorem setEng_mem (s : State) (c e : Nat) (x : DmaEng) : (s.setEng c e x).mem = s.mem := rfl
@[simp] theorem setEng_hostMem (s : State) (c e : Nat) (x : DmaEng) : (s.setEng c e x).hostMem = s.hostMem := rfl
@[simp] theorem setEng_accTags (s : State) (c e : Nat) (x : DmaEng) : (s.setEng c e x).accTags = s.accTags := rfl
@[simp] theorem setEng_badParity (s : State) (c e : Nat) (x : DmaEng) : (s.setEng c e x).badParity = s.badParity := rfl
@[simp] theorem setEng_poison (s : State) (c e : Nat) (x : DmaEng) : (s.setEng c e x).poison = s.poison := rfl
@[simp] theorem setEng_symErrs (s : State) (c e : Nat) (x : DmaEng) : (s.setEng c e x).symErrs = s.symErrs := rfl
@[simp] theorem setEng_own (s : State) (c e : Nat) (x : DmaEng) : (s.setEng c e x).own = s.own := rfl
@[simp] theorem setEng_mapSaved (s : State) (c e : Nat) (x : DmaEng) : (s.setEng c e x).mapSaved = s.mapSaved := rfl
@[simp] theorem setEng_mapCadence (s : State) (c e : Nat) (x : DmaEng) : (s.setEng c e x).mapCadence = s.mapCadence := rfl
@[simp] theorem setEng_fltHeld (s : State) (c e : Nat) (x : DmaEng) : (s.setEng c e x).fltHeld = s.fltHeld := rfl
@[simp] theorem setEng_fltLostBy (s : State) (c e : Nat) (x : DmaEng) : (s.setEng c e x).fltLostBy = s.fltLostBy := rfl
@[simp] theorem setEng_cores (s : State) (c e : Nat) (x : DmaEng) : (s.setEng c e x).cores = s.cores := rfl
@[simp] theorem setEng_nbRun (s : State) (c e : Nat) (x : DmaEng) : (s.setEng c e x).nbRun = s.nbRun := rfl
@[simp] theorem setEng_nbNext (s : State) (c e : Nat) (x : DmaEng) : (s.setEng c e x).nbNext = s.nbNext := rfl
@[simp] theorem setEng_nbBuf (s : State) (c e : Nat) (x : DmaEng) : (s.setEng c e x).nbBuf = s.nbBuf := rfl
@[simp] theorem setEng_chans (s : State) (c e : Nat) (x : DmaEng) : (s.setEng c e x).chans = s.chans := rfl
@[simp] theorem setEng_farMem (s : State) (c e : Nat) (x : DmaEng) : (s.setEng c e x).farMem = s.farMem := rfl
@[simp] theorem setEng_farPoison (s : State) (c e : Nat) (x : DmaEng) : (s.setEng c e x).farPoison = s.farPoison := rfl
@[simp] theorem setEng_far (s : State) (c e : Nat) (x : DmaEng) : (s.setEng c e x).far = s.far := rfl
@[simp] theorem setEng_farEmpty (s : State) (c e : Nat) (x : DmaEng) : (s.setEng c e x).farEmpty = s.farEmpty := rfl
@[simp] theorem setEng_gf (s : State) (c e : Nat) (x : DmaEng) : (s.setEng c e x).gf = s.gf := rfl
@[simp] theorem setEng_txns (s : State) (c e : Nat) (x : DmaEng) : (s.setEng c e x).txns = s.txns := rfl
@[simp] theorem setEng_nextTag (s : State) (c e : Nat) (x : DmaEng) : (s.setEng c e x).nextTag = s.nextTag := rfl
@[simp] theorem setEng_gfHeld (s : State) (c e : Nat) (x : DmaEng) : (s.setEng c e x).gfHeld = s.gfHeld := rfl
@[simp] theorem setEng_settling (s : State) (c e : Nat) (x : DmaEng) : (s.setEng c e x).settling = s.settling := rfl
@[simp] theorem setEng_mgmtIn (s : State) (c e : Nat) (x : DmaEng) : (s.setEng c e x).mgmtIn = s.mgmtIn := rfl
@[simp] theorem setEng_cad (s : State) (c e : Nat) (x : DmaEng) : (s.setEng c e x).cad = s.cad := rfl
@[simp] theorem setEng_groups (s : State) (c e : Nat) (x : DmaEng) : (s.setEng c e x).groups = s.groups := rfl
@[simp] theorem setEng_words (s : State) (c e : Nat) (x : DmaEng) : (s.setEng c e x).words = s.words := rfl
@[simp] theorem setEng_bx (s : State) (c e : Nat) (x : DmaEng) : (s.setEng c e x).bx = s.bx := rfl
@[simp] theorem setEng_bxHeld (s : State) (c e : Nat) (x : DmaEng) : (s.setEng c e x).bxHeld = s.bxHeld := rfl
@[simp] theorem setEng_mesh (s : State) (c e : Nat) (x : DmaEng) : (s.setEng c e x).mesh = s.mesh := rfl
@[simp] theorem setEng_power (s : State) (c e : Nat) (x : DmaEng) : (s.setEng c e x).power = s.power := rfl
@[simp] theorem setEng_hostWait (s : State) (c e : Nat) (x : DmaEng) : (s.setEng c e x).hostWait = s.hostWait := rfl
@[simp] theorem setEng_holdoff (s : State) (c e : Nat) (x : DmaEng) : (s.setEng c e x).holdoff = s.holdoff := rfl
@[simp] theorem setEng_posted (s : State) (c e : Nat) (x : DmaEng) : (s.setEng c e x).posted = s.posted := rfl
@[simp] theorem setEng_finals (s : State) (c e : Nat) (x : DmaEng) : (s.setEng c e x).finals = s.finals := rfl
@[simp] theorem setEng_hdm (s : State) (c e : Nat) (x : DmaEng) : (s.setEng c e x).hdm = s.hdm := rfl
@[simp] theorem setEng_heldAcc (s : State) (c e : Nat) (x : DmaEng) : (s.setEng c e x).heldAcc = s.heldAcc := rfl
@[simp] theorem setEng_loans (s : State) (c e : Nat) (x : DmaEng) : (s.setEng c e x).loans = s.loans := rfl
@[simp] theorem setEng_gotFrames (s : State) (c e : Nat) (x : DmaEng) : (s.setEng c e x).gotFrames = s.gotFrames := rfl
@[simp] theorem setEng_bring (s : State) (c e : Nat) (x : DmaEng) : (s.setEng c e x).bring = s.bring := rfl
@[simp] theorem setEng_sec (s : State) (c e : Nat) (x : DmaEng) : (s.setEng c e x).sec = s.sec := rfl
@[simp] theorem setEng_cons (s : State) (c e : Nat) (x : DmaEng) : (s.setEng c e x).cons = s.cons := rfl
@[simp] theorem setEng_vddCore (s : State) (c e : Nat) (x : DmaEng) : (s.setEng c e x).vddCore = s.vddCore := rfl
@[simp] theorem setEng_avsHold (s : State) (c e : Nat) (x : DmaEng) : (s.setEng c e x).avsHold = s.avsHold := rfl
@[simp] theorem setEng_i3cAddr (s : State) (c e : Nat) (x : DmaEng) : (s.setEng c e x).i3cAddr = s.i3cAddr := rfl

/-! A run slot written. -/

@[simp] theorem setRun_pending (s : State) (c n : Nat) (r : Option NbRun) : (s.setRun c n r).pending = s.pending := rfl
@[simp] theorem setRun_free (s : State) (c n : Nat) (r : Option NbRun) : (s.setRun c n r).free = s.free := rfl
@[simp] theorem setRun_out (s : State) (c n : Nat) (r : Option NbRun) : (s.setRun c n r).out = s.out := rfl
@[simp] theorem setRun_regs (s : State) (c n : Nat) (r : Option NbRun) : (s.setRun c n r).regs = s.regs := rfl
@[simp] theorem setRun_mem (s : State) (c n : Nat) (r : Option NbRun) : (s.setRun c n r).mem = s.mem := rfl
@[simp] theorem setRun_hostMem (s : State) (c n : Nat) (r : Option NbRun) : (s.setRun c n r).hostMem = s.hostMem := rfl
@[simp] theorem setRun_accTags (s : State) (c n : Nat) (r : Option NbRun) : (s.setRun c n r).accTags = s.accTags := rfl
@[simp] theorem setRun_badParity (s : State) (c n : Nat) (r : Option NbRun) : (s.setRun c n r).badParity = s.badParity := rfl
@[simp] theorem setRun_poison (s : State) (c n : Nat) (r : Option NbRun) : (s.setRun c n r).poison = s.poison := rfl
@[simp] theorem setRun_symErrs (s : State) (c n : Nat) (r : Option NbRun) : (s.setRun c n r).symErrs = s.symErrs := rfl
@[simp] theorem setRun_own (s : State) (c n : Nat) (r : Option NbRun) : (s.setRun c n r).own = s.own := rfl
@[simp] theorem setRun_mapSaved (s : State) (c n : Nat) (r : Option NbRun) : (s.setRun c n r).mapSaved = s.mapSaved := rfl
@[simp] theorem setRun_mapCadence (s : State) (c n : Nat) (r : Option NbRun) : (s.setRun c n r).mapCadence = s.mapCadence := rfl
@[simp] theorem setRun_fltHeld (s : State) (c n : Nat) (r : Option NbRun) : (s.setRun c n r).fltHeld = s.fltHeld := rfl
@[simp] theorem setRun_fltLostBy (s : State) (c n : Nat) (r : Option NbRun) : (s.setRun c n r).fltLostBy = s.fltLostBy := rfl
@[simp] theorem setRun_cores (s : State) (c n : Nat) (r : Option NbRun) : (s.setRun c n r).cores = s.cores := rfl
@[simp] theorem setRun_dma (s : State) (c n : Nat) (r : Option NbRun) : (s.setRun c n r).dma = s.dma := rfl
@[simp] theorem setRun_nbNext (s : State) (c n : Nat) (r : Option NbRun) : (s.setRun c n r).nbNext = s.nbNext := rfl
@[simp] theorem setRun_nbBuf (s : State) (c n : Nat) (r : Option NbRun) : (s.setRun c n r).nbBuf = s.nbBuf := rfl
@[simp] theorem setRun_chans (s : State) (c n : Nat) (r : Option NbRun) : (s.setRun c n r).chans = s.chans := rfl
@[simp] theorem setRun_farMem (s : State) (c n : Nat) (r : Option NbRun) : (s.setRun c n r).farMem = s.farMem := rfl
@[simp] theorem setRun_farPoison (s : State) (c n : Nat) (r : Option NbRun) : (s.setRun c n r).farPoison = s.farPoison := rfl
@[simp] theorem setRun_far (s : State) (c n : Nat) (r : Option NbRun) : (s.setRun c n r).far = s.far := rfl
@[simp] theorem setRun_farEmpty (s : State) (c n : Nat) (r : Option NbRun) : (s.setRun c n r).farEmpty = s.farEmpty := rfl
@[simp] theorem setRun_gf (s : State) (c n : Nat) (r : Option NbRun) : (s.setRun c n r).gf = s.gf := rfl
@[simp] theorem setRun_txns (s : State) (c n : Nat) (r : Option NbRun) : (s.setRun c n r).txns = s.txns := rfl
@[simp] theorem setRun_nextTag (s : State) (c n : Nat) (r : Option NbRun) : (s.setRun c n r).nextTag = s.nextTag := rfl
@[simp] theorem setRun_gfHeld (s : State) (c n : Nat) (r : Option NbRun) : (s.setRun c n r).gfHeld = s.gfHeld := rfl
@[simp] theorem setRun_settling (s : State) (c n : Nat) (r : Option NbRun) : (s.setRun c n r).settling = s.settling := rfl
@[simp] theorem setRun_mgmtIn (s : State) (c n : Nat) (r : Option NbRun) : (s.setRun c n r).mgmtIn = s.mgmtIn := rfl
@[simp] theorem setRun_cad (s : State) (c n : Nat) (r : Option NbRun) : (s.setRun c n r).cad = s.cad := rfl
@[simp] theorem setRun_groups (s : State) (c n : Nat) (r : Option NbRun) : (s.setRun c n r).groups = s.groups := rfl
@[simp] theorem setRun_words (s : State) (c n : Nat) (r : Option NbRun) : (s.setRun c n r).words = s.words := rfl
@[simp] theorem setRun_bx (s : State) (c n : Nat) (r : Option NbRun) : (s.setRun c n r).bx = s.bx := rfl
@[simp] theorem setRun_bxHeld (s : State) (c n : Nat) (r : Option NbRun) : (s.setRun c n r).bxHeld = s.bxHeld := rfl
@[simp] theorem setRun_mesh (s : State) (c n : Nat) (r : Option NbRun) : (s.setRun c n r).mesh = s.mesh := rfl
@[simp] theorem setRun_power (s : State) (c n : Nat) (r : Option NbRun) : (s.setRun c n r).power = s.power := rfl
@[simp] theorem setRun_hostWait (s : State) (c n : Nat) (r : Option NbRun) : (s.setRun c n r).hostWait = s.hostWait := rfl
@[simp] theorem setRun_holdoff (s : State) (c n : Nat) (r : Option NbRun) : (s.setRun c n r).holdoff = s.holdoff := rfl
@[simp] theorem setRun_posted (s : State) (c n : Nat) (r : Option NbRun) : (s.setRun c n r).posted = s.posted := rfl
@[simp] theorem setRun_finals (s : State) (c n : Nat) (r : Option NbRun) : (s.setRun c n r).finals = s.finals := rfl
@[simp] theorem setRun_hdm (s : State) (c n : Nat) (r : Option NbRun) : (s.setRun c n r).hdm = s.hdm := rfl
@[simp] theorem setRun_heldAcc (s : State) (c n : Nat) (r : Option NbRun) : (s.setRun c n r).heldAcc = s.heldAcc := rfl
@[simp] theorem setRun_loans (s : State) (c n : Nat) (r : Option NbRun) : (s.setRun c n r).loans = s.loans := rfl
@[simp] theorem setRun_gotFrames (s : State) (c n : Nat) (r : Option NbRun) : (s.setRun c n r).gotFrames = s.gotFrames := rfl
@[simp] theorem setRun_bring (s : State) (c n : Nat) (r : Option NbRun) : (s.setRun c n r).bring = s.bring := rfl
@[simp] theorem setRun_sec (s : State) (c n : Nat) (r : Option NbRun) : (s.setRun c n r).sec = s.sec := rfl
@[simp] theorem setRun_cons (s : State) (c n : Nat) (r : Option NbRun) : (s.setRun c n r).cons = s.cons := rfl
@[simp] theorem setRun_vddCore (s : State) (c n : Nat) (r : Option NbRun) : (s.setRun c n r).vddCore = s.vddCore := rfl
@[simp] theorem setRun_avsHold (s : State) (c n : Nat) (r : Option NbRun) : (s.setRun c n r).avsHold = s.avsHold := rfl
@[simp] theorem setRun_i3cAddr (s : State) (c n : Nat) (r : Option NbRun) : (s.setRun c n r).i3cAddr = s.i3cAddr := rfl

/-! A next slot written. -/

@[simp] theorem setNextRun_pending (s : State) (c n : Nat) (r : Option NbRun) : (s.setNextRun c n r).pending = s.pending := rfl
@[simp] theorem setNextRun_free (s : State) (c n : Nat) (r : Option NbRun) : (s.setNextRun c n r).free = s.free := rfl
@[simp] theorem setNextRun_out (s : State) (c n : Nat) (r : Option NbRun) : (s.setNextRun c n r).out = s.out := rfl
@[simp] theorem setNextRun_regs (s : State) (c n : Nat) (r : Option NbRun) : (s.setNextRun c n r).regs = s.regs := rfl
@[simp] theorem setNextRun_mem (s : State) (c n : Nat) (r : Option NbRun) : (s.setNextRun c n r).mem = s.mem := rfl
@[simp] theorem setNextRun_hostMem (s : State) (c n : Nat) (r : Option NbRun) : (s.setNextRun c n r).hostMem = s.hostMem := rfl
@[simp] theorem setNextRun_accTags (s : State) (c n : Nat) (r : Option NbRun) : (s.setNextRun c n r).accTags = s.accTags := rfl
@[simp] theorem setNextRun_badParity (s : State) (c n : Nat) (r : Option NbRun) : (s.setNextRun c n r).badParity = s.badParity := rfl
@[simp] theorem setNextRun_poison (s : State) (c n : Nat) (r : Option NbRun) : (s.setNextRun c n r).poison = s.poison := rfl
@[simp] theorem setNextRun_symErrs (s : State) (c n : Nat) (r : Option NbRun) : (s.setNextRun c n r).symErrs = s.symErrs := rfl
@[simp] theorem setNextRun_own (s : State) (c n : Nat) (r : Option NbRun) : (s.setNextRun c n r).own = s.own := rfl
@[simp] theorem setNextRun_mapSaved (s : State) (c n : Nat) (r : Option NbRun) : (s.setNextRun c n r).mapSaved = s.mapSaved := rfl
@[simp] theorem setNextRun_mapCadence (s : State) (c n : Nat) (r : Option NbRun) : (s.setNextRun c n r).mapCadence = s.mapCadence := rfl
@[simp] theorem setNextRun_fltHeld (s : State) (c n : Nat) (r : Option NbRun) : (s.setNextRun c n r).fltHeld = s.fltHeld := rfl
@[simp] theorem setNextRun_fltLostBy (s : State) (c n : Nat) (r : Option NbRun) : (s.setNextRun c n r).fltLostBy = s.fltLostBy := rfl
@[simp] theorem setNextRun_cores (s : State) (c n : Nat) (r : Option NbRun) : (s.setNextRun c n r).cores = s.cores := rfl
@[simp] theorem setNextRun_dma (s : State) (c n : Nat) (r : Option NbRun) : (s.setNextRun c n r).dma = s.dma := rfl
@[simp] theorem setNextRun_nbRun (s : State) (c n : Nat) (r : Option NbRun) : (s.setNextRun c n r).nbRun = s.nbRun := rfl
@[simp] theorem setNextRun_nbBuf (s : State) (c n : Nat) (r : Option NbRun) : (s.setNextRun c n r).nbBuf = s.nbBuf := rfl
@[simp] theorem setNextRun_chans (s : State) (c n : Nat) (r : Option NbRun) : (s.setNextRun c n r).chans = s.chans := rfl
@[simp] theorem setNextRun_farMem (s : State) (c n : Nat) (r : Option NbRun) : (s.setNextRun c n r).farMem = s.farMem := rfl
@[simp] theorem setNextRun_farPoison (s : State) (c n : Nat) (r : Option NbRun) : (s.setNextRun c n r).farPoison = s.farPoison := rfl
@[simp] theorem setNextRun_far (s : State) (c n : Nat) (r : Option NbRun) : (s.setNextRun c n r).far = s.far := rfl
@[simp] theorem setNextRun_farEmpty (s : State) (c n : Nat) (r : Option NbRun) : (s.setNextRun c n r).farEmpty = s.farEmpty := rfl
@[simp] theorem setNextRun_gf (s : State) (c n : Nat) (r : Option NbRun) : (s.setNextRun c n r).gf = s.gf := rfl
@[simp] theorem setNextRun_txns (s : State) (c n : Nat) (r : Option NbRun) : (s.setNextRun c n r).txns = s.txns := rfl
@[simp] theorem setNextRun_nextTag (s : State) (c n : Nat) (r : Option NbRun) : (s.setNextRun c n r).nextTag = s.nextTag := rfl
@[simp] theorem setNextRun_gfHeld (s : State) (c n : Nat) (r : Option NbRun) : (s.setNextRun c n r).gfHeld = s.gfHeld := rfl
@[simp] theorem setNextRun_settling (s : State) (c n : Nat) (r : Option NbRun) : (s.setNextRun c n r).settling = s.settling := rfl
@[simp] theorem setNextRun_mgmtIn (s : State) (c n : Nat) (r : Option NbRun) : (s.setNextRun c n r).mgmtIn = s.mgmtIn := rfl
@[simp] theorem setNextRun_cad (s : State) (c n : Nat) (r : Option NbRun) : (s.setNextRun c n r).cad = s.cad := rfl
@[simp] theorem setNextRun_groups (s : State) (c n : Nat) (r : Option NbRun) : (s.setNextRun c n r).groups = s.groups := rfl
@[simp] theorem setNextRun_words (s : State) (c n : Nat) (r : Option NbRun) : (s.setNextRun c n r).words = s.words := rfl
@[simp] theorem setNextRun_bx (s : State) (c n : Nat) (r : Option NbRun) : (s.setNextRun c n r).bx = s.bx := rfl
@[simp] theorem setNextRun_bxHeld (s : State) (c n : Nat) (r : Option NbRun) : (s.setNextRun c n r).bxHeld = s.bxHeld := rfl
@[simp] theorem setNextRun_mesh (s : State) (c n : Nat) (r : Option NbRun) : (s.setNextRun c n r).mesh = s.mesh := rfl
@[simp] theorem setNextRun_power (s : State) (c n : Nat) (r : Option NbRun) : (s.setNextRun c n r).power = s.power := rfl
@[simp] theorem setNextRun_hostWait (s : State) (c n : Nat) (r : Option NbRun) : (s.setNextRun c n r).hostWait = s.hostWait := rfl
@[simp] theorem setNextRun_holdoff (s : State) (c n : Nat) (r : Option NbRun) : (s.setNextRun c n r).holdoff = s.holdoff := rfl
@[simp] theorem setNextRun_posted (s : State) (c n : Nat) (r : Option NbRun) : (s.setNextRun c n r).posted = s.posted := rfl
@[simp] theorem setNextRun_finals (s : State) (c n : Nat) (r : Option NbRun) : (s.setNextRun c n r).finals = s.finals := rfl
@[simp] theorem setNextRun_hdm (s : State) (c n : Nat) (r : Option NbRun) : (s.setNextRun c n r).hdm = s.hdm := rfl
@[simp] theorem setNextRun_heldAcc (s : State) (c n : Nat) (r : Option NbRun) : (s.setNextRun c n r).heldAcc = s.heldAcc := rfl
@[simp] theorem setNextRun_loans (s : State) (c n : Nat) (r : Option NbRun) : (s.setNextRun c n r).loans = s.loans := rfl
@[simp] theorem setNextRun_gotFrames (s : State) (c n : Nat) (r : Option NbRun) : (s.setNextRun c n r).gotFrames = s.gotFrames := rfl
@[simp] theorem setNextRun_bring (s : State) (c n : Nat) (r : Option NbRun) : (s.setNextRun c n r).bring = s.bring := rfl
@[simp] theorem setNextRun_sec (s : State) (c n : Nat) (r : Option NbRun) : (s.setNextRun c n r).sec = s.sec := rfl
@[simp] theorem setNextRun_cons (s : State) (c n : Nat) (r : Option NbRun) : (s.setNextRun c n r).cons = s.cons := rfl
@[simp] theorem setNextRun_vddCore (s : State) (c n : Nat) (r : Option NbRun) : (s.setNextRun c n r).vddCore = s.vddCore := rfl
@[simp] theorem setNextRun_avsHold (s : State) (c n : Nat) (r : Option NbRun) : (s.setNextRun c n r).avsHold = s.avsHold := rfl
@[simp] theorem setNextRun_i3cAddr (s : State) (c n : Nat) (r : Option NbRun) : (s.setNextRun c n r).i3cAddr = s.i3cAddr := rfl

/-! NBR buffers written. -/

@[simp] theorem setBuf_pending (s : State) (c n k : Nat) (b : NbrBuf) : (s.setBuf c n k b).pending = s.pending := rfl
@[simp] theorem setBuf_free (s : State) (c n k : Nat) (b : NbrBuf) : (s.setBuf c n k b).free = s.free := rfl
@[simp] theorem setBuf_out (s : State) (c n k : Nat) (b : NbrBuf) : (s.setBuf c n k b).out = s.out := rfl
@[simp] theorem setBuf_regs (s : State) (c n k : Nat) (b : NbrBuf) : (s.setBuf c n k b).regs = s.regs := rfl
@[simp] theorem setBuf_mem (s : State) (c n k : Nat) (b : NbrBuf) : (s.setBuf c n k b).mem = s.mem := rfl
@[simp] theorem setBuf_hostMem (s : State) (c n k : Nat) (b : NbrBuf) : (s.setBuf c n k b).hostMem = s.hostMem := rfl
@[simp] theorem setBuf_accTags (s : State) (c n k : Nat) (b : NbrBuf) : (s.setBuf c n k b).accTags = s.accTags := rfl
@[simp] theorem setBuf_badParity (s : State) (c n k : Nat) (b : NbrBuf) : (s.setBuf c n k b).badParity = s.badParity := rfl
@[simp] theorem setBuf_poison (s : State) (c n k : Nat) (b : NbrBuf) : (s.setBuf c n k b).poison = s.poison := rfl
@[simp] theorem setBuf_symErrs (s : State) (c n k : Nat) (b : NbrBuf) : (s.setBuf c n k b).symErrs = s.symErrs := rfl
@[simp] theorem setBuf_own (s : State) (c n k : Nat) (b : NbrBuf) : (s.setBuf c n k b).own = s.own := rfl
@[simp] theorem setBuf_mapSaved (s : State) (c n k : Nat) (b : NbrBuf) : (s.setBuf c n k b).mapSaved = s.mapSaved := rfl
@[simp] theorem setBuf_mapCadence (s : State) (c n k : Nat) (b : NbrBuf) : (s.setBuf c n k b).mapCadence = s.mapCadence := rfl
@[simp] theorem setBuf_fltHeld (s : State) (c n k : Nat) (b : NbrBuf) : (s.setBuf c n k b).fltHeld = s.fltHeld := rfl
@[simp] theorem setBuf_fltLostBy (s : State) (c n k : Nat) (b : NbrBuf) : (s.setBuf c n k b).fltLostBy = s.fltLostBy := rfl
@[simp] theorem setBuf_cores (s : State) (c n k : Nat) (b : NbrBuf) : (s.setBuf c n k b).cores = s.cores := rfl
@[simp] theorem setBuf_dma (s : State) (c n k : Nat) (b : NbrBuf) : (s.setBuf c n k b).dma = s.dma := rfl
@[simp] theorem setBuf_nbRun (s : State) (c n k : Nat) (b : NbrBuf) : (s.setBuf c n k b).nbRun = s.nbRun := rfl
@[simp] theorem setBuf_nbNext (s : State) (c n k : Nat) (b : NbrBuf) : (s.setBuf c n k b).nbNext = s.nbNext := rfl
@[simp] theorem setBuf_chans (s : State) (c n k : Nat) (b : NbrBuf) : (s.setBuf c n k b).chans = s.chans := rfl
@[simp] theorem setBuf_farMem (s : State) (c n k : Nat) (b : NbrBuf) : (s.setBuf c n k b).farMem = s.farMem := rfl
@[simp] theorem setBuf_farPoison (s : State) (c n k : Nat) (b : NbrBuf) : (s.setBuf c n k b).farPoison = s.farPoison := rfl
@[simp] theorem setBuf_far (s : State) (c n k : Nat) (b : NbrBuf) : (s.setBuf c n k b).far = s.far := rfl
@[simp] theorem setBuf_farEmpty (s : State) (c n k : Nat) (b : NbrBuf) : (s.setBuf c n k b).farEmpty = s.farEmpty := rfl
@[simp] theorem setBuf_gf (s : State) (c n k : Nat) (b : NbrBuf) : (s.setBuf c n k b).gf = s.gf := rfl
@[simp] theorem setBuf_txns (s : State) (c n k : Nat) (b : NbrBuf) : (s.setBuf c n k b).txns = s.txns := rfl
@[simp] theorem setBuf_nextTag (s : State) (c n k : Nat) (b : NbrBuf) : (s.setBuf c n k b).nextTag = s.nextTag := rfl
@[simp] theorem setBuf_gfHeld (s : State) (c n k : Nat) (b : NbrBuf) : (s.setBuf c n k b).gfHeld = s.gfHeld := rfl
@[simp] theorem setBuf_settling (s : State) (c n k : Nat) (b : NbrBuf) : (s.setBuf c n k b).settling = s.settling := rfl
@[simp] theorem setBuf_mgmtIn (s : State) (c n k : Nat) (b : NbrBuf) : (s.setBuf c n k b).mgmtIn = s.mgmtIn := rfl
@[simp] theorem setBuf_cad (s : State) (c n k : Nat) (b : NbrBuf) : (s.setBuf c n k b).cad = s.cad := rfl
@[simp] theorem setBuf_groups (s : State) (c n k : Nat) (b : NbrBuf) : (s.setBuf c n k b).groups = s.groups := rfl
@[simp] theorem setBuf_words (s : State) (c n k : Nat) (b : NbrBuf) : (s.setBuf c n k b).words = s.words := rfl
@[simp] theorem setBuf_bx (s : State) (c n k : Nat) (b : NbrBuf) : (s.setBuf c n k b).bx = s.bx := rfl
@[simp] theorem setBuf_bxHeld (s : State) (c n k : Nat) (b : NbrBuf) : (s.setBuf c n k b).bxHeld = s.bxHeld := rfl
@[simp] theorem setBuf_mesh (s : State) (c n k : Nat) (b : NbrBuf) : (s.setBuf c n k b).mesh = s.mesh := rfl
@[simp] theorem setBuf_power (s : State) (c n k : Nat) (b : NbrBuf) : (s.setBuf c n k b).power = s.power := rfl
@[simp] theorem setBuf_hostWait (s : State) (c n k : Nat) (b : NbrBuf) : (s.setBuf c n k b).hostWait = s.hostWait := rfl
@[simp] theorem setBuf_holdoff (s : State) (c n k : Nat) (b : NbrBuf) : (s.setBuf c n k b).holdoff = s.holdoff := rfl
@[simp] theorem setBuf_posted (s : State) (c n k : Nat) (b : NbrBuf) : (s.setBuf c n k b).posted = s.posted := rfl
@[simp] theorem setBuf_finals (s : State) (c n k : Nat) (b : NbrBuf) : (s.setBuf c n k b).finals = s.finals := rfl
@[simp] theorem setBuf_hdm (s : State) (c n k : Nat) (b : NbrBuf) : (s.setBuf c n k b).hdm = s.hdm := rfl
@[simp] theorem setBuf_heldAcc (s : State) (c n k : Nat) (b : NbrBuf) : (s.setBuf c n k b).heldAcc = s.heldAcc := rfl
@[simp] theorem setBuf_loans (s : State) (c n k : Nat) (b : NbrBuf) : (s.setBuf c n k b).loans = s.loans := rfl
@[simp] theorem setBuf_gotFrames (s : State) (c n k : Nat) (b : NbrBuf) : (s.setBuf c n k b).gotFrames = s.gotFrames := rfl
@[simp] theorem setBuf_bring (s : State) (c n k : Nat) (b : NbrBuf) : (s.setBuf c n k b).bring = s.bring := rfl
@[simp] theorem setBuf_sec (s : State) (c n k : Nat) (b : NbrBuf) : (s.setBuf c n k b).sec = s.sec := rfl
@[simp] theorem setBuf_cons (s : State) (c n k : Nat) (b : NbrBuf) : (s.setBuf c n k b).cons = s.cons := rfl
@[simp] theorem setBuf_vddCore (s : State) (c n k : Nat) (b : NbrBuf) : (s.setBuf c n k b).vddCore = s.vddCore := rfl
@[simp] theorem setBuf_avsHold (s : State) (c n k : Nat) (b : NbrBuf) : (s.setBuf c n k b).avsHold = s.avsHold := rfl
@[simp] theorem setBuf_i3cAddr (s : State) (c n k : Nat) (b : NbrBuf) : (s.setBuf c n k b).i3cAddr = s.i3cAddr := rfl

/-! An own status of the map written. -/

@[simp] theorem setOwn_pending (s : State) (o : Nat) (b : Byte) : (s.setOwn o b).pending = s.pending := rfl
@[simp] theorem setOwn_free (s : State) (o : Nat) (b : Byte) : (s.setOwn o b).free = s.free := rfl
@[simp] theorem setOwn_out (s : State) (o : Nat) (b : Byte) : (s.setOwn o b).out = s.out := rfl
@[simp] theorem setOwn_regs (s : State) (o : Nat) (b : Byte) : (s.setOwn o b).regs = s.regs := rfl
@[simp] theorem setOwn_mem (s : State) (o : Nat) (b : Byte) : (s.setOwn o b).mem = s.mem := rfl
@[simp] theorem setOwn_hostMem (s : State) (o : Nat) (b : Byte) : (s.setOwn o b).hostMem = s.hostMem := rfl
@[simp] theorem setOwn_accTags (s : State) (o : Nat) (b : Byte) : (s.setOwn o b).accTags = s.accTags := rfl
@[simp] theorem setOwn_badParity (s : State) (o : Nat) (b : Byte) : (s.setOwn o b).badParity = s.badParity := rfl
@[simp] theorem setOwn_poison (s : State) (o : Nat) (b : Byte) : (s.setOwn o b).poison = s.poison := rfl
@[simp] theorem setOwn_symErrs (s : State) (o : Nat) (b : Byte) : (s.setOwn o b).symErrs = s.symErrs := rfl
@[simp] theorem setOwn_mapSaved (s : State) (o : Nat) (b : Byte) : (s.setOwn o b).mapSaved = s.mapSaved := rfl
@[simp] theorem setOwn_mapCadence (s : State) (o : Nat) (b : Byte) : (s.setOwn o b).mapCadence = s.mapCadence := rfl
@[simp] theorem setOwn_fltHeld (s : State) (o : Nat) (b : Byte) : (s.setOwn o b).fltHeld = s.fltHeld := rfl
@[simp] theorem setOwn_fltLostBy (s : State) (o : Nat) (b : Byte) : (s.setOwn o b).fltLostBy = s.fltLostBy := rfl
@[simp] theorem setOwn_cores (s : State) (o : Nat) (b : Byte) : (s.setOwn o b).cores = s.cores := rfl
@[simp] theorem setOwn_dma (s : State) (o : Nat) (b : Byte) : (s.setOwn o b).dma = s.dma := rfl
@[simp] theorem setOwn_nbRun (s : State) (o : Nat) (b : Byte) : (s.setOwn o b).nbRun = s.nbRun := rfl
@[simp] theorem setOwn_nbNext (s : State) (o : Nat) (b : Byte) : (s.setOwn o b).nbNext = s.nbNext := rfl
@[simp] theorem setOwn_nbBuf (s : State) (o : Nat) (b : Byte) : (s.setOwn o b).nbBuf = s.nbBuf := rfl
@[simp] theorem setOwn_chans (s : State) (o : Nat) (b : Byte) : (s.setOwn o b).chans = s.chans := rfl
@[simp] theorem setOwn_farMem (s : State) (o : Nat) (b : Byte) : (s.setOwn o b).farMem = s.farMem := rfl
@[simp] theorem setOwn_farPoison (s : State) (o : Nat) (b : Byte) : (s.setOwn o b).farPoison = s.farPoison := rfl
@[simp] theorem setOwn_far (s : State) (o : Nat) (b : Byte) : (s.setOwn o b).far = s.far := rfl
@[simp] theorem setOwn_farEmpty (s : State) (o : Nat) (b : Byte) : (s.setOwn o b).farEmpty = s.farEmpty := rfl
@[simp] theorem setOwn_gf (s : State) (o : Nat) (b : Byte) : (s.setOwn o b).gf = s.gf := rfl
@[simp] theorem setOwn_txns (s : State) (o : Nat) (b : Byte) : (s.setOwn o b).txns = s.txns := rfl
@[simp] theorem setOwn_nextTag (s : State) (o : Nat) (b : Byte) : (s.setOwn o b).nextTag = s.nextTag := rfl
@[simp] theorem setOwn_gfHeld (s : State) (o : Nat) (b : Byte) : (s.setOwn o b).gfHeld = s.gfHeld := rfl
@[simp] theorem setOwn_settling (s : State) (o : Nat) (b : Byte) : (s.setOwn o b).settling = s.settling := rfl
@[simp] theorem setOwn_mgmtIn (s : State) (o : Nat) (b : Byte) : (s.setOwn o b).mgmtIn = s.mgmtIn := rfl
@[simp] theorem setOwn_cad (s : State) (o : Nat) (b : Byte) : (s.setOwn o b).cad = s.cad := rfl
@[simp] theorem setOwn_groups (s : State) (o : Nat) (b : Byte) : (s.setOwn o b).groups = s.groups := rfl
@[simp] theorem setOwn_words (s : State) (o : Nat) (b : Byte) : (s.setOwn o b).words = s.words := rfl
@[simp] theorem setOwn_bx (s : State) (o : Nat) (b : Byte) : (s.setOwn o b).bx = s.bx := rfl
@[simp] theorem setOwn_bxHeld (s : State) (o : Nat) (b : Byte) : (s.setOwn o b).bxHeld = s.bxHeld := rfl
@[simp] theorem setOwn_mesh (s : State) (o : Nat) (b : Byte) : (s.setOwn o b).mesh = s.mesh := rfl
@[simp] theorem setOwn_power (s : State) (o : Nat) (b : Byte) : (s.setOwn o b).power = s.power := rfl
@[simp] theorem setOwn_hostWait (s : State) (o : Nat) (b : Byte) : (s.setOwn o b).hostWait = s.hostWait := rfl
@[simp] theorem setOwn_holdoff (s : State) (o : Nat) (b : Byte) : (s.setOwn o b).holdoff = s.holdoff := rfl
@[simp] theorem setOwn_posted (s : State) (o : Nat) (b : Byte) : (s.setOwn o b).posted = s.posted := rfl
@[simp] theorem setOwn_finals (s : State) (o : Nat) (b : Byte) : (s.setOwn o b).finals = s.finals := rfl
@[simp] theorem setOwn_hdm (s : State) (o : Nat) (b : Byte) : (s.setOwn o b).hdm = s.hdm := rfl
@[simp] theorem setOwn_heldAcc (s : State) (o : Nat) (b : Byte) : (s.setOwn o b).heldAcc = s.heldAcc := rfl
@[simp] theorem setOwn_loans (s : State) (o : Nat) (b : Byte) : (s.setOwn o b).loans = s.loans := rfl
@[simp] theorem setOwn_gotFrames (s : State) (o : Nat) (b : Byte) : (s.setOwn o b).gotFrames = s.gotFrames := rfl
@[simp] theorem setOwn_bring (s : State) (o : Nat) (b : Byte) : (s.setOwn o b).bring = s.bring := rfl
@[simp] theorem setOwn_sec (s : State) (o : Nat) (b : Byte) : (s.setOwn o b).sec = s.sec := rfl
@[simp] theorem setOwn_cons (s : State) (o : Nat) (b : Byte) : (s.setOwn o b).cons = s.cons := rfl
@[simp] theorem setOwn_vddCore (s : State) (o : Nat) (b : Byte) : (s.setOwn o b).vddCore = s.vddCore := rfl
@[simp] theorem setOwn_avsHold (s : State) (o : Nat) (b : Byte) : (s.setOwn o b).avsHold = s.avsHold := rfl
@[simp] theorem setOwn_i3cAddr (s : State) (o : Nat) (b : Byte) : (s.setOwn o b).i3cAddr = s.i3cAddr := rfl

/-! A byte written. -/

@[simp] theorem poke_pending (s : State) (l : Nat) (b : Byte) : (s.poke l b).pending = s.pending := by unfold State.poke; split <;> rfl
@[simp] theorem poke_free (s : State) (l : Nat) (b : Byte) : (s.poke l b).free = s.free := by unfold State.poke; split <;> rfl
@[simp] theorem poke_out (s : State) (l : Nat) (b : Byte) : (s.poke l b).out = s.out := by unfold State.poke; split <;> rfl
@[simp] theorem poke_regs (s : State) (l : Nat) (b : Byte) : (s.poke l b).regs = s.regs := by unfold State.poke; split <;> rfl
@[simp] theorem poke_hostMem (s : State) (l : Nat) (b : Byte) : (s.poke l b).hostMem = s.hostMem := by unfold State.poke; split <;> rfl
@[simp] theorem poke_accTags (s : State) (l : Nat) (b : Byte) : (s.poke l b).accTags = s.accTags := by unfold State.poke; split <;> rfl
@[simp] theorem poke_poison (s : State) (l : Nat) (b : Byte) : (s.poke l b).poison = s.poison := by unfold State.poke; split <;> rfl
@[simp] theorem poke_symErrs (s : State) (l : Nat) (b : Byte) : (s.poke l b).symErrs = s.symErrs := by unfold State.poke; split <;> rfl
@[simp] theorem poke_own (s : State) (l : Nat) (b : Byte) : (s.poke l b).own = s.own := by unfold State.poke; split <;> rfl
@[simp] theorem poke_mapSaved (s : State) (l : Nat) (b : Byte) : (s.poke l b).mapSaved = s.mapSaved := by unfold State.poke; split <;> rfl
@[simp] theorem poke_mapCadence (s : State) (l : Nat) (b : Byte) : (s.poke l b).mapCadence = s.mapCadence := by unfold State.poke; split <;> rfl
@[simp] theorem poke_fltHeld (s : State) (l : Nat) (b : Byte) : (s.poke l b).fltHeld = s.fltHeld := by unfold State.poke; split <;> rfl
@[simp] theorem poke_fltLostBy (s : State) (l : Nat) (b : Byte) : (s.poke l b).fltLostBy = s.fltLostBy := by unfold State.poke; split <;> rfl
@[simp] theorem poke_cores (s : State) (l : Nat) (b : Byte) : (s.poke l b).cores = s.cores := by unfold State.poke; split <;> rfl
@[simp] theorem poke_dma (s : State) (l : Nat) (b : Byte) : (s.poke l b).dma = s.dma := by unfold State.poke; split <;> rfl
@[simp] theorem poke_nbRun (s : State) (l : Nat) (b : Byte) : (s.poke l b).nbRun = s.nbRun := by unfold State.poke; split <;> rfl
@[simp] theorem poke_nbNext (s : State) (l : Nat) (b : Byte) : (s.poke l b).nbNext = s.nbNext := by unfold State.poke; split <;> rfl
@[simp] theorem poke_nbBuf (s : State) (l : Nat) (b : Byte) : (s.poke l b).nbBuf = s.nbBuf := by unfold State.poke; split <;> rfl
@[simp] theorem poke_chans (s : State) (l : Nat) (b : Byte) : (s.poke l b).chans = s.chans := by unfold State.poke; split <;> rfl
@[simp] theorem poke_farPoison (s : State) (l : Nat) (b : Byte) : (s.poke l b).farPoison = s.farPoison := by unfold State.poke; split <;> rfl
@[simp] theorem poke_far (s : State) (l : Nat) (b : Byte) : (s.poke l b).far = s.far := by unfold State.poke; split <;> rfl
@[simp] theorem poke_farEmpty (s : State) (l : Nat) (b : Byte) : (s.poke l b).farEmpty = s.farEmpty := by unfold State.poke; split <;> rfl
@[simp] theorem poke_gf (s : State) (l : Nat) (b : Byte) : (s.poke l b).gf = s.gf := by unfold State.poke; split <;> rfl
@[simp] theorem poke_txns (s : State) (l : Nat) (b : Byte) : (s.poke l b).txns = s.txns := by unfold State.poke; split <;> rfl
@[simp] theorem poke_nextTag (s : State) (l : Nat) (b : Byte) : (s.poke l b).nextTag = s.nextTag := by unfold State.poke; split <;> rfl
@[simp] theorem poke_gfHeld (s : State) (l : Nat) (b : Byte) : (s.poke l b).gfHeld = s.gfHeld := by unfold State.poke; split <;> rfl
@[simp] theorem poke_settling (s : State) (l : Nat) (b : Byte) : (s.poke l b).settling = s.settling := by unfold State.poke; split <;> rfl
@[simp] theorem poke_mgmtIn (s : State) (l : Nat) (b : Byte) : (s.poke l b).mgmtIn = s.mgmtIn := by unfold State.poke; split <;> rfl
@[simp] theorem poke_cad (s : State) (l : Nat) (b : Byte) : (s.poke l b).cad = s.cad := by unfold State.poke; split <;> rfl
@[simp] theorem poke_groups (s : State) (l : Nat) (b : Byte) : (s.poke l b).groups = s.groups := by unfold State.poke; split <;> rfl
@[simp] theorem poke_words (s : State) (l : Nat) (b : Byte) : (s.poke l b).words = s.words := by unfold State.poke; split <;> rfl
@[simp] theorem poke_bx (s : State) (l : Nat) (b : Byte) : (s.poke l b).bx = s.bx := by unfold State.poke; split <;> rfl
@[simp] theorem poke_bxHeld (s : State) (l : Nat) (b : Byte) : (s.poke l b).bxHeld = s.bxHeld := by unfold State.poke; split <;> rfl
@[simp] theorem poke_mesh (s : State) (l : Nat) (b : Byte) : (s.poke l b).mesh = s.mesh := by unfold State.poke; split <;> rfl
@[simp] theorem poke_power (s : State) (l : Nat) (b : Byte) : (s.poke l b).power = s.power := by unfold State.poke; split <;> rfl
@[simp] theorem poke_hostWait (s : State) (l : Nat) (b : Byte) : (s.poke l b).hostWait = s.hostWait := by unfold State.poke; split <;> rfl
@[simp] theorem poke_holdoff (s : State) (l : Nat) (b : Byte) : (s.poke l b).holdoff = s.holdoff := by unfold State.poke; split <;> rfl
@[simp] theorem poke_posted (s : State) (l : Nat) (b : Byte) : (s.poke l b).posted = s.posted := by unfold State.poke; split <;> rfl
@[simp] theorem poke_finals (s : State) (l : Nat) (b : Byte) : (s.poke l b).finals = s.finals := by unfold State.poke; split <;> rfl
@[simp] theorem poke_hdm (s : State) (l : Nat) (b : Byte) : (s.poke l b).hdm = s.hdm := by unfold State.poke; split <;> rfl
@[simp] theorem poke_heldAcc (s : State) (l : Nat) (b : Byte) : (s.poke l b).heldAcc = s.heldAcc := by unfold State.poke; split <;> rfl
@[simp] theorem poke_loans (s : State) (l : Nat) (b : Byte) : (s.poke l b).loans = s.loans := by unfold State.poke; split <;> rfl
@[simp] theorem poke_gotFrames (s : State) (l : Nat) (b : Byte) : (s.poke l b).gotFrames = s.gotFrames := by unfold State.poke; split <;> rfl
@[simp] theorem poke_bring (s : State) (l : Nat) (b : Byte) : (s.poke l b).bring = s.bring := by unfold State.poke; split <;> rfl
@[simp] theorem poke_sec (s : State) (l : Nat) (b : Byte) : (s.poke l b).sec = s.sec := by unfold State.poke; split <;> rfl
@[simp] theorem poke_cons (s : State) (l : Nat) (b : Byte) : (s.poke l b).cons = s.cons := by unfold State.poke; split <;> rfl
@[simp] theorem poke_vddCore (s : State) (l : Nat) (b : Byte) : (s.poke l b).vddCore = s.vddCore := by unfold State.poke; split <;> rfl
@[simp] theorem poke_avsHold (s : State) (l : Nat) (b : Byte) : (s.poke l b).avsHold = s.avsHold := by unfold State.poke; split <;> rfl
@[simp] theorem poke_i3cAddr (s : State) (l : Nat) (b : Byte) : (s.poke l b).i3cAddr = s.i3cAddr := by unfold State.poke; split <;> rfl

end Sys2Proof.Machine
end

