-- ==== Sys2Proof/Laws/Regs.lean ====
section
/-! SUPPORT. The laws of registers, fields, cores, slots, engines and map entries: what is read back after a write, and what a
write leaves alone. -/

namespace Sys2Proof

/-- The field written reads as the value, cut to its width. -/
theorem bits_putBits_same (n lo len v : Nat) : bits (putBits n lo len v) lo len = v % 2 ^ len := by
  unfold bits putBits
  have h : n % 2 ^ lo + v % 2 ^ len * 2 ^ lo + n / 2 ^ (lo + len) * 2 ^ (lo + len)
      = n % 2 ^ lo + 2 ^ lo * (v % 2 ^ len + 2 ^ len * (n / 2 ^ (lo + len))) := by
    rw [Nat.pow_add, Nat.mul_add, Nat.mul_comm (n / (2 ^ lo * 2 ^ len)), Nat.mul_comm (v % 2 ^ len), Nat.add_assoc,
      Nat.mul_assoc]
  rw [h, Nat.add_mul_div_left _ _ (Nat.two_pow_pos lo), Nat.div_eq_of_lt (Nat.mod_lt _ (Nat.two_pow_pos lo)), Nat.zero_add,
    Nat.add_mul_mod_self_left, Nat.mod_mod]

/-- Bit `i` of a number with a field replaced. -/
theorem testBit_putBits (n lo len v i : Nat) :
    (putBits n lo len v).testBit i = if lo ≤ i ∧ i < lo + len then v.testBit (i - lo) else n.testBit i := by
  have h : putBits n lo len v = 2 ^ lo * (2 ^ len * (n / 2 ^ (lo + len)) + v % 2 ^ len) + n % 2 ^ lo := by
    unfold putBits
    rw [Nat.pow_add, Nat.mul_add, Nat.mul_comm (n / (2 ^ lo * 2 ^ len)), Nat.mul_comm (v % 2 ^ len), Nat.mul_assoc]
    omega
  rw [h, Nat.testBit_two_pow_mul_add _ (Nat.mod_lt _ (Nat.two_pow_pos lo))]
  by_cases h1 : i < lo
  · rw [if_pos h1, if_neg (by omega), Nat.testBit_mod_two_pow]
    simp [h1]
  · rw [if_neg h1, Nat.testBit_two_pow_mul_add _ (Nat.mod_lt _ (Nat.two_pow_pos len))]
    by_cases h2 : i - lo < len
    · rw [if_pos h2, if_pos (by omega), Nat.testBit_mod_two_pow]
      simp [h2]
    · rw [if_neg h2, if_neg (by omega), Nat.testBit_div_two_pow]
      congr 1
      omega

/-- Bit `i` of a field. -/
theorem testBit_bits (n lo len i : Nat) : (bits n lo len).testBit i = (decide (i < len) && n.testBit (i + lo)) := by
  unfold bits
  rw [Nat.testBit_mod_two_pow, Nat.testBit_div_two_pow]

/-- A field that does not meet the one written reads as before. -/
theorem bits_putBits_other (n lo len v lo' len' : Nat) (h : lo' + len' ≤ lo ∨ lo + len ≤ lo') :
    bits (putBits n lo len v) lo' len' = bits n lo' len' := by
  apply Nat.eq_of_testBit_eq
  intro i
  rw [testBit_bits, testBit_bits, testBit_putBits]
  by_cases hi : i < len'
  · rw [if_neg (by omega)]
  · simp [hi]

end Sys2Proof

namespace Sys2Proof.Machine

/-! ### Registers -/

@[simp] theorem reg_setReg_same (s : State) (k : RegKind) (i : List Nat) (v : Nat) : (s.setReg k i v).reg k i = v := by
  simp [State.reg, State.setReg]

theorem reg_setReg_other (s : State) (k k' : RegKind) (i i' : List Nat) (v : Nat) (h : regAddr k' i' ≠ regAddr k i) :
    (s.setReg k i v).reg k' i' = s.reg k' i' := by
  simp only [State.reg, State.setReg]
  exact tget_tset_ne' _ _ _ _ h

/-- The field just written. -/
theorem get_put_same (s : State) (f : Fld) (i : List Nat) (v : Nat) : (s.put f i v).get f i = v % 2 ^ f.len := by
  simp only [State.get, State.put, reg_setReg_same]
  exact bits_putBits_same _ _ _ _

/-- A field of another register. -/
theorem get_put_other (s : State) (f g : Fld) (i j : List Nat) (v : Nat) (h : regAddr g.kind j ≠ regAddr f.kind i) :
    (s.put f i v).get g j = s.get g j := by
  simp only [State.get, State.put]
  rw [reg_setReg_other _ _ _ _ _ _ h]

/-- A field of the same register that does not meet the one written. -/
theorem get_put_beside (s : State) (f g : Fld) (i : List Nat) (v : Nat) (hk : g.kind = f.kind)
    (h : g.lo + g.len ≤ f.lo ∨ f.lo + f.len ≤ g.lo) : (s.put f i v).get g i = s.get g i := by
  simp only [State.get, State.put, hk, reg_setReg_same]
  exact bits_putBits_other _ _ _ _ _ _ h

theorem reg_put_other (s : State) (f : Fld) (i : List Nat) (v : Nat) (k : RegKind) (j : List Nat)
    (h : regAddr k j ≠ regAddr f.kind i) : (s.put f i v).reg k j = s.reg k j := reg_setReg_other _ _ _ _ _ _ h

theorem get_bump_same (s : State) (f : Fld) (i : List Nat) (n : Nat) :
    (s.bump f i n).get f i = sat f.len (s.get f i + n) % 2 ^ f.len := get_put_same _ _ _ _

theorem sat_mod (w v : Nat) : sat w v % 2 ^ w = sat w v := by
  unfold sat
  split
  · exact Nat.mod_eq_of_lt ‹_›
  · exact Nat.mod_eq_of_lt (by have := Nat.two_pow_pos w; omega)

/-- A counter advanced saturates at its largest value. -/
theorem get_bump (s : State) (f : Fld) (i : List Nat) (n : Nat) : (s.bump f i n).get f i = sat f.len (s.get f i + n) := by
  rw [get_bump_same, sat_mod]

theorem get_bump_other (s : State) (f g : Fld) (i j : List Nat) (n : Nat) (h : regAddr g.kind j ≠ regAddr f.kind i) :
    (s.bump f i n).get g j = s.get g j := get_put_other _ _ _ _ _ _ h

/-- A field fits its width. -/
theorem get_lt (s : State) (f : Fld) (i : List Nat) : s.get f i < 2 ^ f.len := Nat.mod_lt _ (Nat.two_pow_pos _)

theorem puts_none (s : State) : s.puts [] = s := rfl
theorem puts_more (s : State) (f : Fld) (i : List Nat) (v : Nat) (l : List (Fld × List Nat × Nat)) :
    s.puts ((f, i, v) :: l) = (s.put f i v).puts l := rfl

/-- Two states with the same registers read the same fields. -/
theorem get_congr {s t : State} (h : s.regs = t.regs) (f : Fld) (i : List Nat) : s.get f i = t.get f i := by
  simp only [State.get, State.reg, h]

/-! ### Cores and slots -/

@[simp] theorem core_setCore_same (s : State) (c : Nat) (x : CoreSt) : (s.setCore c x).core c = x := by
  simp [State.core, State.setCore]

theorem core_setCore_other (s : State) (c d : Nat) (x : CoreSt) (h : d ≠ c) : (s.setCore c x).core d = s.core d :=
  tget_tset_ne _ _ _ h

@[simp] theorem core_modCore_same (s : State) (c : Nat) (f : CoreSt → CoreSt) : (s.modCore c f).core c = f (s.core c) :=
  core_setCore_same _ _ _

@[simp] theorem slot_setSlot_same (x : CoreSt) (k : Nat) (v : Option Slot) : (x.setSlot k v).slot k = v := by
  simp [CoreSt.slot, CoreSt.setSlot]

theorem slot_setSlot_other (x : CoreSt) (k j : Nat) (v : Option Slot) (h : j ≠ k) : (x.setSlot k v).slot j = x.slot j :=
  tget_tset_ne _ _ _ h

@[simp] theorem State.slot_setSlot (s : State) (c k : Nat) (v : Option Slot) : (s.setSlot c k v).slot c k = v := by
  simp [State.slot, State.setSlot]

theorem State.slot_setSlot_other (s : State) (c k j : Nat) (v : Option Slot) (h : j ≠ k) :
    (s.setSlot c k v).slot c j = s.slot c j := by
  simp [State.slot, State.setSlot, Machine.slot_setSlot_other _ _ _ _ h]

theorem State.slot_setSlot_core (s : State) (c d k j : Nat) (v : Option Slot) (h : d ≠ c) :
    (s.setSlot c k v).slot d j = s.slot d j := by
  simp only [State.slot, State.setSlot, State.modCore, core_setCore_other _ _ _ _ h]

/-- A slot changed where it holds a command. -/
theorem State.modSlot_some (s : State) (c k : Nat) (f : Slot → Slot) (v : Slot) (h : s.slot c k = some v) :
    s.modSlot c k f = s.setSlot c k (some (f v)) := by
  simp [State.modSlot, h]

theorem State.core_congr {s t : State} (h : s.cores = t.cores) (c : Nat) : s.core c = t.core c := by
  simp only [State.core, h]

/-! ### Engines, runs, buffers, map entries -/

@[simp] theorem eng_setEng_same (s : State) (c e : Nat) (x : DmaEng) : (s.setEng c e x).eng c e = x := by
  simp [State.eng, State.setEng]

@[simp] theorem run_setRun_same (s : State) (c n : Nat) (r : Option NbRun) : (s.setRun c n r).run c n = r := by
  simp [State.run, State.setRun]

@[simp] theorem nextRun_setNextRun_same (s : State) (c n : Nat) (r : Option NbRun) : (s.setNextRun c n r).nextRun c n = r := by
  simp [State.nextRun, State.setNextRun]

@[simp] theorem buf_setBuf_same (s : State) (c n k : Nat) (b : NbrBuf) : (s.setBuf c n k b).buf c n k = b := by
  simp [State.buf, State.setBuf]

@[simp] theorem ownAt_setOwn_same (s : State) (o : Nat) (b : Byte) : (s.setOwn o b).ownAt o = b := by
  simp [State.ownAt, State.setOwn]

theorem ownAt_setOwn_other (s : State) (o p : Nat) (b : Byte) (h : p ≠ o) : (s.setOwn o b).ownAt p = s.ownAt p :=
  tget_tset_ne _ _ _ h

/-! ### Scalar registers and predicates of a slot -/

/-- s0 reads as zero, and discards what is written (R78, R215). -/
theorem Slot.s_setS (sl : Slot) (r q : SReg) (v : Word) :
    (sl.setS r v).s q = if q.val = 0 then 0#64 else if q = r then v else sl.s q := by
  unfold Slot.s Slot.setS
  by_cases hq : q = 0
  · simp [hq]
  · have hv : q.val ≠ 0 := fun h => hq (Fin.ext h)
    by_cases hr : r = 0
    · subst hr
      simp [hq, hv]
    · by_cases he : q = r
      · subst he
        simp [hq, hv]
      · have hn : q.val ≠ r.val := fun h => he (Fin.ext h)
        simp only [hq, hv, hr, he, if_false]
        exact tget_tset_ne _ _ _ hn

/-- p0 is always true, and discards what is written (R78, R215). -/
theorem Slot.p_setP (sl : Slot) (r q : PReg) (v : Bool) :
    (sl.setP r v).p q = if q.val = 0 then true else if q = r then v else sl.p q := by
  unfold Slot.p Slot.setP
  by_cases hq : q = 0
  · simp [hq]
  · have hv : q.val ≠ 0 := fun h => hq (Fin.ext h)
    by_cases hr : r = 0
    · subst hr
      simp [hq, hv]
    · simp only [hv, hr, if_false]
      have hb : (BitVec.ofNat 8 (putBits sl.preds.toNat r.val 1 (if v then 1 else 0))).getLsbD q.val
          = if q = r then v else sl.preds.getLsbD q.val := by
        rw [BitVec.getLsbD_ofNat, testBit_putBits]
        have h8 : decide (q.val < 8) = true := decide_eq_true q.isLt
        rw [h8, Bool.true_and]
        by_cases he : q = r
        · subst he
          rw [if_pos (by omega), if_pos rfl, Nat.sub_self]
          cases v <;> rfl
        · have hn : q.val ≠ r.val := fun h => he (Fin.ext h)
          rw [if_neg (by omega), if_neg he]
          rfl
      rw [hb]
      by_cases he : q = r <;> simp [he, hr]

end Sys2Proof.Machine
end

