-- ==== Sys2Proof/Laws/Issue.lean ====
section
/-! SUPPORT. The issue of an instruction, once for all classes: where the conditions of `State.canIssue` hold it executes, and
what it then does is the body of its meaning. -/

namespace Sys2Proof.Machine

/-- Words that spell an instruction are legal (R213). -/
theorem legal_of_decodeWord {core : CoreId} {w x : Nat} {i : Instr} (h : decodeWord core w x = some i) :
    illegalWord w x = none := by
  unfold decodeWord at h
  by_cases hi : (illegalWord w x).isSome = true
  · simp [hi] at h
  · simpa using hi

/-- The instruction executes. -/
theorem issueCheck_of_canIssue {s s0 : State} {i : Instr} {c k : Nat} {sl : Slot} (h : s.canIssue i s0 c k sl) :
    issueCheck i s = .go s0 c k sl := by
  obtain ⟨g, w, x, h1, rfl, h3, h4, h5, h6, h7, h8, h9, h10, h11, h12⟩ := h
  have hl := legal_of_decodeWord h8
  simp only [issueCheck, h1, h3, h4, h5, h6, h7, State.issueDecoded, hl, h8, h9, h10, h11, h12]
  simp

/-- The context an executing instruction leaves behind, before its body. -/
def seatOf (s0 : State) (c k : Nat) (sl : Slot) (i : Instr) : Seat :=
  { s0 := s0, s := s0.setSlot c k (some (sl.past (lengthOf i))), c := c, k := k, sl := sl
    e := { slot := slotNo k, seq := sl.seq, pc := sl.pc, instr := i } }

theorem issue_of_canIssue {s s0 : State} {i : Instr} {c k : Nat} {sl : Slot} (h : s.canIssue i s0 c k sl)
    (body : Seat → Option State) : issue i s body = (body (seatOf s0 c k sl i)).getD s := by
  simp only [issue, issueCheck_of_canIssue h, seatOf]

/-- Of two writes of one core the second stands, where the first left something in it. -/
theorem setCore_setCore (s : State) (c : Nat) (x y : CoreSt) (h : x ≠ {}) : (s.setCore c x).setCore c y = s.setCore c y := by
  have e : tset {} (tset {} s.cores c x) c y = tset {} s.cores c y := tset_tset _ _ _ _ _ h
  show ({ s with cores := tset {} (tset {} s.cores c x) c y } : State) = { s with cores := tset {} s.cores c y }
  rw [e]

theorem CoreSt.setSlot_ne (x : CoreSt) (k : Nat) (a : Slot) : x.setSlot k (some a) ≠ {} := by
  intro e
  have e' : tset none x.slots k (some a) = [] := congrArg CoreSt.slots e
  simp only [tset] at e'
  exact tput_ne_nil _ _ _ (by simpa using e')

/-- Of two writes of one slot the second stands, where the first put a command into it. -/
theorem setSlot_setSlot (s : State) (c k : Nat) (a : Slot) (w : Option Slot) :
    (s.setSlot c k (some a)).setSlot c k w = s.setSlot c k w := by
  have e : tset none (tset none (s.core c).slots k (some a)) k w = tset none (s.core c).slots k w :=
    tset_tset _ _ _ _ _ (by simp)
  have h : ((s.core c).setSlot k (some a)).setSlot k w = (s.core c).setSlot k w := by
    show ({ s.core c with slots := tset none (tset none (s.core c).slots k (some a)) k w } : CoreSt) = _
    rw [e]
    rfl
  simp only [State.setSlot, State.modCore, core_setCore_same]
  rw [h, setCore_setCore _ _ _ _ (CoreSt.setSlot_ne _ _ _)]

/-- A change of the slot that an instruction has just advanced. -/
theorem modSlot_seat (s0 : State) (c k : Nat) (a : Slot) (f : Slot → Slot) :
    (s0.setSlot c k (some a)).modSlot c k f = s0.setSlot c k (some (f a)) := by
  rw [State.modSlot_some _ _ _ _ _ (State.slot_setSlot _ _ _ _), setSlot_setSlot]

/-- Where the issue of an instruction ends before it executes, that state is what its command answers. -/
theorem exec_of_ends {i : Instr} {g : Issue} {s s' : State} (hi : issueOf i = some g) (h : issueCheck i s = .ends s') :
    exec i s = .next s' := by
  have h1 : ∀ body, issue i s body = s' := by intro body; simp only [issue, h]
  have h2 : ∀ n, issueAccess i s n = some s' := by intro n; simp only [issueAccess, h]
  clear h
  cases i <;> first
    | (cases hi; done)
    | (exact congrArg Host.Outcome.next (h1 _))
    | (exact congrArg orRefuse (h2 _))

/-- Where an instruction stays to be issued again, its command leaves the state as it is. -/
theorem exec_of_stays {i : Instr} {g : Issue} {s : State} (hi : issueOf i = some g) (h : issueCheck i s = .stays) :
    exec i s = .next s := by
  have h1 : ∀ body, issue i s body = s := by intro body; simp only [issue, h]
  have h2 : ∀ n, issueAccess i s n = some s := by intro n; simp only [issueAccess, h]
  clear h
  cases i <;> first
    | (cases hi; done)
    | (exact congrArg Host.Outcome.next (h1 _))
    | (exact congrArg orRefuse (h2 _))

/-- An instruction that has a unit goes to the end of its issue queue. -/
theorem exec_of_unit {i : Instr} {u : UnitId} {s s0 : State} {c k : Nat} {sl : Slot} (hu : unitOf i = some u)
    (h : s.canIssue i s0 c k sl) :
    exec i s = .next (((s0.setSlot c k (some (sl.past (lengthOf i)))).modCore c (fun y =>
      y.setQueue u (y.queue u ++ [{ slot := slotNo k, seq := sl.seq, pc := sl.pc, instr := i }]))).kickAll) := by
  have h1 : issueUnit i s = ((s0.setSlot c k (some (sl.past (lengthOf i)))).modCore c (fun y =>
      y.setQueue u (y.queue u ++ [{ slot := slotNo k, seq := sl.seq, pc := sl.pc, instr := i }]))).kickAll := by
    simp only [issueUnit, issue_of_canIssue h, hu, seatOf, Option.getD_some]
  rw [← h1]
  clear h h1
  cases i <;> first
    | (cases hu; done)
    | rfl

end Sys2Proof.Machine
end

