-- ==== Sys2Proof/Laws/Storage.lean ====
section
/-! SUPPORT. Laws of the part's storage: a byte reads back as it was written and leaves every other byte alone, and every operation
that writes storage keeps its canonical form. -/

namespace Sys2Proof.Machine

variable {α : Type} [DecidableEq α]

/-! ### The canonical form -/

theorem twfFrom_filter (d : α) (p : Nat × α → Bool) (t : Table α) : ∀ lo, twfFrom d lo t = true → twfFrom d lo (t.filter p) = true := by
  induction t with
  | nil => intro lo _; rfl
  | cons e t ih =>
    obtain ⟨j, w⟩ := e
    intro lo h
    have h' := h
    simp only [twfFrom, Bool.and_eq_true] at h'
    cases hp : p (j, w) with
    | true =>
      rw [List.filter_cons_of_pos hp]
      simp only [twfFrom, Bool.and_eq_true]
      exact ⟨h'.1, ih (some j) h'.2⟩
    | false =>
      rw [List.filter_cons_of_neg (by simp [hp])]
      refine twfFrom_mono d (ih (some j) h'.2) ?_
      intro l hl
      refine ⟨j, rfl, ?_⟩
      subst hl
      have := h'.1.1
      simp only [decide_eq_true_eq] at this
      omega

/-- Entries taken out leave a canonical table canonical. -/
theorem twf_filter (d : α) (p : Nat × α → Bool) (t : Table α) (h : twf d t = true) : twf d (t.filter p) = true :=
  twfFrom_filter d p t none h

/-- The storage of a state is canonical where it is that of a canonical state. -/
theorem canonical_congr {s t : State} (h : t.canonical = true) (hm : s.mem = t.mem) (hh : s.hostMem = t.hostMem) (ho : s.own = t.own)
    (ha : s.accTags = t.accTags) (hf : s.farMem = t.farMem) : s.canonical = true := by
  unfold State.canonical at *
  rw [hm, hh, ho, ha, hf]
  exact h

theorem canonical_iff (s : State) : s.canonical = true ↔
    twf 0#8 s.mem = true ∧ twf 0#8 s.hostMem = true ∧ twf 0#8 s.own = true ∧ twf 0#8 s.accTags = true ∧
      twf (none : Option Byte) s.farMem = true := by
  simp only [State.canonical, Memory.wf, Bool.and_eq_true]
  constructor
  · rintro ⟨⟨⟨⟨a, b⟩, c⟩, d⟩, e⟩
    exact ⟨a, b, c, d, e⟩
  · rintro ⟨a, b, c, d, e⟩
    exact ⟨⟨⟨⟨a, b⟩, c⟩, d⟩, e⟩

theorem canonical_reset : State.reset.canonical = true := rfl

theorem canonical_poke (s : State) (l : Nat) (b : Byte) (h : s.canonical = true) : (s.poke l b).canonical = true := by
  have k := (canonical_iff s).mp h
  unfold State.poke
  split
  · exact (canonical_iff _).mpr ⟨k.1, k.2.1, k.2.2.1, k.2.2.2.1, twf_tset none s.farMem l (some b) k.2.2.2.2⟩
  · exact (canonical_iff _).mpr ⟨twf_tset 0#8 s.mem (canon l) b k.1, k.2⟩

theorem canonical_pokes (bs : List Byte) : ∀ (s : State) (l : Nat), s.canonical = true → (s.pokes l bs).canonical = true := by
  induction bs with
  | nil => intro s l h; exact h
  | cons b t ih => intro s l h; exact ih _ _ (canonical_poke s l b h)

theorem canonical_pokeLE (n : Nat) : ∀ (s : State) (l v : Nat), s.canonical = true → (s.pokeLE l n v).canonical = true := by
  induction n with
  | zero => intro s l v h; exact h
  | succ n ih => intro s l v h; exact ih _ _ _ (canonical_poke s l _ h)

theorem canonical_setOwn (s : State) (o : Nat) (b : Byte) (h : s.canonical = true) : (s.setOwn o b).canonical = true := by
  have k := (canonical_iff s).mp h
  exact (canonical_iff _).mpr ⟨k.1, k.2.1, twf_tset _ _ _ _ k.2.2.1, k.2.2.2⟩

theorem canonical_setTag (s : State) (k : Nat) (b : Byte) (h : s.canonical = true) :
    State.canonical { s with accTags := tset 0#8 s.accTags k b } = true := by
  have k' := (canonical_iff s).mp h
  exact (canonical_iff _).mpr ⟨k'.1, k'.2.1, k'.2.2.1, twf_tset _ _ _ _ k'.2.2.2.1, k'.2.2.2.2⟩

theorem canonical_accSet (s : State) (c e : Nat) (w : Wsf) (h : s.canonical = true) : (s.accSet c e w).canonical = true := by
  unfold State.accSet
  have k := canonical_pokeLE 16 s (accEntryAddr c e) w.n.toNat h
  revert k
  generalize s.pokeLE (accEntryAddr c e) 16 w.n.toNat = t
  exact fun k => canonical_setTag t _ _ k

/-- A change of anything but storage. -/
theorem canonical_setReg (s : State) (k : RegKind) (i : List Nat) (v : Nat) (h : s.canonical = true) : (s.setReg k i v).canonical = true := h

theorem canonical_put (s : State) (f : Fld) (i : List Nat) (v : Nat) (h : s.canonical = true) : (s.put f i v).canonical = true := h

theorem canonical_puts (l : List (Fld × List Nat × Nat)) : ∀ s : State, s.canonical = true → (s.puts l).canonical = true := by
  induction l with
  | nil => intro s h; exact h
  | cons x t ih => intro s h; exact ih _ (canonical_put s _ _ _ h)

theorem canonical_setCore (s : State) (c : Nat) (x : CoreSt) (h : s.canonical = true) : (s.setCore c x).canonical = true := h

/-- A fold of operations that keep the form keeps it. -/
theorem canonical_foldl {β : Type} (f : State → β → State) (hf : ∀ s x, s.canonical = true → (f s x).canonical = true) (l : List β) :
    ∀ s : State, s.canonical = true → (l.foldl f s).canonical = true := by
  induction l with
  | nil => intro s h; exact h
  | cons x t ih => intro s h; exact ih _ (hf s x h)

/-! ### Reads after writes -/

/-- Two local addresses that name one byte: the striped view is an alias of the linear one (R32). -/
def sameByte (l l' : Nat) : Prop := (localFar l = true ∧ l = l') ∨ (localFar l = false ∧ localFar l' = false ∧ canon l = canon l')

theorem peek_poke_same (s : State) (l l' : Nat) (b : Byte) (h : sameByte l l') : (s.poke l b).peek l' = b := by
  rcases h with ⟨hf, rfl⟩ | ⟨h1, h2, h3⟩
  · simp [State.poke, State.peek, hf]
  · simp [State.poke, State.peek, h1, h2, h3]

theorem peek_poke_other (s : State) (l l' : Nat) (b : Byte) (h : ¬ sameByte l l') : (s.poke l b).peek l' = s.peek l' := by
  unfold State.poke State.peek State.farFill
  cases hl : localFar l with
  | true =>
    have hn : l' ≠ l := fun e => h (Or.inl ⟨hl, e.symm⟩)
    cases hl' : localFar l' with
    | true => simp [tget_tset_ne _ _ _ hn]
    | false => simp
  | false =>
    cases hl' : localFar l' with
    | true => simp
    | false =>
      have hn : canon l' ≠ canon l := fun e => h (Or.inr ⟨hl, hl', e.symm⟩)
      simp [tget_tset_ne _ _ _ hn]

theorem peek_pokes_other (bs : List Byte) : ∀ (s : State) (l l' : Nat), (∀ i < bs.length, ¬ sameByte (l + i) l') →
    (s.pokes l bs).peek l' = s.peek l' := by
  induction bs with
  | nil => intro s l l' _; rfl
  | cons b t ih =>
    intro s l l' h
    show ((s.poke l b).pokes (l + 1) t).peek l' = s.peek l'
    rw [ih _ _ _ (fun i hi => by simpa [Nat.add_assoc, Nat.add_comm 1 i] using h (i + 1) (by simpa using hi))]
    exact peek_poke_other s l l' b (by simpa using h 0 (by simp))

/-- Bytes written at addresses that name different bytes read back. -/
theorem peek_pokes_same (bs : List Byte) : ∀ (s : State) (l : Nat),
    (∀ i j, i < bs.length → j < bs.length → sameByte (l + i) (l + j) → i = j) →
    ∀ i (h : i < bs.length), (s.pokes l bs).peek (l + i) = bs[i] := by
  induction bs with
  | nil => intro s l _ i h; simp at h
  | cons b t ih =>
    intro s l hd i h
    show ((s.poke l b).pokes (l + 1) t).peek (l + i) = (b :: t)[i]
    cases i with
    | zero =>
      rw [peek_pokes_other t _ _ _ (fun j hj hs => by
        have := hd (j + 1) 0 (by simpa using hj) (by simp) (by simpa [Nat.add_assoc, Nat.add_comm 1 j] using hs)
        omega)]
      refine peek_poke_same s l (l + 0) b ?_
      cases hl : localFar l with
      | true => exact Or.inl ⟨hl, rfl⟩
      | false => exact Or.inr ⟨hl, hl, rfl⟩
    | succ i =>
      have := ih (s.poke l b) (l + 1) (fun x y hx hy hs => by
        have := hd (x + 1) (y + 1) (by simpa using hx) (by simpa using hy)
          (by simpa [Nat.add_assoc, Nat.add_comm 1] using hs)
        omega) i (by simpa using h)
      simpa [Nat.add_assoc, Nat.add_comm 1] using this

end Sys2Proof.Machine
end

