-- ==== Sys2Proof/Tests/Slice0.lean ====
section
/-! SUPPORT. Tests of the model, each on a small state: terms that are no commands, the words of the instruction set, states that
meet the premises of every statement, and single steps whose results the spec gives. -/

open Sys2Proof Sys2Proof.Machine

namespace Sys2Proof.Tests

set_option Elab.async false

/-! ### Terms that are no commands -/

theorem test_wf_accesses :
    (Instr.channelRequest 0 0 0 0 0 0 (.read 0)).wf = false ∧ (Instr.farWindowAccess 0 0 0 (.write [])).wf = false ∧
    (Instr.hostWindowAccess 0 0 (.write (List.replicate 257 0#8))).wf = false ∧ (Instr.unmappedAccess 0 (.read 0)).wf = false ∧
    (Instr.hostCxlIoAccess 0 (.write [])).wf = false ∧ (Instr.read 0 0 0 0 0).wf = false ∧ (Instr.write 0 0 0 0 []).wf = false ∧
    (Instr.write 0 0 0 0 (List.replicate 257 0#8)).wf = false ∧ (Instr.readResp 0 0 (List.replicate 257 0#8)).wf = false ∧
    (Instr.read 0 0 0 0 256).wf = true ∧ (Instr.write 0 0 0 0 (List.replicate 256 0#8)).wf = true := by decide +kernel

theorem test_wf_links :
    (Instr.dataFlit 0 (List.replicate 255 0#8)).wf = false ∧ (Instr.dataFlit 0 (List.replicate 256 0#8)).wf = true ∧
    (Instr.controlFlit 0 true 0 none [] ⟨0, 0, 0, false⟩).wf = false ∧
    (Instr.biscuitSync 0 (List.replicate 7 0#16) (List.replicate 8 0#16) (List.replicate 8 0#16) 0).wf = false ∧
    (Instr.biscuitSync 0 (List.replicate 8 0#16) (List.replicate 7 0#16) (List.replicate 8 0#16) 0).wf = false ∧
    (Instr.biscuitSync 0 (List.replicate 8 0#16) (List.replicate 8 0#16) (List.replicate 7 0#16) 0).wf = false ∧
    (Instr.biscuitSync 0 (List.replicate 8 0#16) (List.replicate 8 0#16) (List.replicate 8 0#16) 0).wf = true := by decide +kernel

theorem test_wf_sensors :
    (Instr.thermalSample 0 (List.replicate 19 (0, 0))).wf = false ∧ (Instr.thermalSample 0 (List.replicate 20 (0, 0))).wf = true ∧
    (Instr.thermalModelUpdate 0 (List.replicate 19 (0, 0)) (List.replicate 64 0) (List.replicate 64 0)).wf = false ∧
    (Instr.thermalModelUpdate 0 (List.replicate 20 (0, 0)) (List.replicate 63 0) (List.replicate 64 0)).wf = false ∧
    (Instr.thermalModelUpdate 0 (List.replicate 20 (0, 0)) (List.replicate 64 0) (List.replicate 63 0)).wf = false ∧
    (Instr.coolantReport (List.replicate 13 0#8)).wf = false ∧ (Instr.backgroundVote [] none).wf = false ∧
    (Instr.voltageSet 645).wf = false ∧ (Instr.voltageSet 855).wf = false ∧ (Instr.voltageSet 652).wf = false ∧
    (Instr.voltageSet 650).wf = true ∧ (Instr.voltageSet 850).wf = true := by decide +kernel

theorem test_wf_registers :
    (Instr.registerWrite 4 0 true).wf = false ∧ (Instr.registerWrite 2 0 false).wf = false ∧
    (Instr.registerWrite 4 (BitVec.ofNat 64 (2 ^ 32)) false).wf = false ∧ (Instr.registerWrite 4 1 false).wf = true ∧
    (Instr.nbWindowWrite 0 0 2047 [0#8, 0#8]).wf = false ∧ (Instr.nbWindowWrite 0 0 0 []).wf = false ∧
    (Instr.retentionStep true 0 7 []).wf = false ∧ (Instr.retentionStep true 0 6 []).wf = true := by decide +kernel

/-- A request header of major version 1, with a payload of `n` bytes. -/
def mbHead (n : Nat) : MbHead := { major := 1, minor := 0, seq := 7, length := BitVec.ofNat 32 n }

theorem test_wf_mailbox (h : MbHead) (p : List Byte) (n : p.length = 65521) :
    (Instr.getInfo h p).wf = false ∧ (Instr.retireUnit h p).wf = false ∧ (Instr.readmitUnit h p false).wf = false ∧
    (Instr.runJig h p).wf = false ∧ (Instr.saveSettings h p).wf = false ∧ (Instr.warmRestart h p).wf = false ∧
    (Instr.setIdleFloor h p).wf = false ∧ (Instr.setStagger h p).wf = false ∧ (Instr.attest h p).wf = false ∧
    (Instr.fwBegin h p).wf = false ∧ (Instr.fwData h p).wf = false ∧ (Instr.finish h p).wf = false ∧
    (Instr.commitSvn h p).wf = false ∧ (Instr.revoke h p).wf = false ∧ (Instr.audit h p).wf = false := by
  have a : decide (p.length ≤ 65520) = false := by simp [n]
  have b : decide (p.length ≤ 65516) = false := by simp [n]
  exact ⟨a, a, a, a, a, a, a, a, a, b, b, b, b, b, a⟩

/-! ### Words of the instruction set, written from the layouts of R210 to R235 -/

/-- A word of MAJOR and MINOR with the fields given by their lowest bits. -/
def word (major minor : Nat) (fields : List (Nat × Nat)) : Nat :=
  major + minor * 2 ^ 11 + (fields.map (fun f => f.2 * 2 ^ f.1)).sum

/-- Core 5, always executed; and the guard NOT p3. -/
def g5 : Issue := { core := 5 }
def gp : Issue := { core := 5, pred := 3, pn := true }

/-- What a word and its extension word are to decode to. -/
abbrev Spelled := Instr × Nat × Nat

def wordsSystem : List Spelled :=
  [(.nop g5, word 0x00 0 [], 0), (.nop gp, word 0x00 0 [(7, 3), (10, 1)], 0), (.endCmd g5, word 0x00 1 [], 0),
   (.fence g5 0b11111#5, word 0x00 2 [(19, 31)], 0), (.srd g5 7 8, word 0x00 3 [(19, 7), (24, 8)], 0)]

def wordsScalar : List Spelled :=
  let r (m : Nat) : Nat := word 0x01 m [(19, 31), (24, 2), (29, 3)]
  [(.add g5 31 2 3, r 0, 0), (.sub g5 31 2 3, r 1, 0), (.and g5 31 2 3, r 2, 0), (.or g5 31 2 3, r 3, 0), (.xor g5 31 2 3, r 4, 0),
   (.shl g5 31 2 3, r 5, 0), (.shr g5 31 2 3, r 6, 0), (.sra g5 31 2 3, r 7, 0), (.mul g5 31 2 3, r 8, 0),
   (.mulhu g5 31 2 3, r 9, 0), (.min g5 31 2 3, r 0xA, 0), (.max g5 31 2 3, r 0xB, 0), (.minu g5 31 2 3, r 0xC, 0),
   (.maxu g5 31 2 3, r 0xD, 0), (.fadd g5 31 2 3, r 0x10, 0), (.fsub g5 31 2 3, r 0x11, 0), (.fmul g5 31 2 3, r 0x12, 0),
   (.fmin g5 31 2 3, r 0x13, 0), (.fmax g5 31 2 3, r 0x14, 0), (.i2f g5 31 2 3, r 0x18, 0), (.f2i g5 31 2 3, r 0x19, 0)]

def wordsImm : List Spelled :=
  let r (m : Nat) : Nat := word 0x02 m [(19, 1), (24, 31), (29, 2 ^ 35 - 1)]
  let b : ImmB := .imm (BitVec.allOnes 35)
  [(.addImm g5 1 31 b, r 0, 0), (.subImm g5 1 31 b, r 1, 0), (.andImm g5 1 31 b, r 2, 0), (.orImm g5 1 31 b, r 3, 0),
   (.xorImm g5 1 31 b, r 4, 0), (.shlImm g5 1 31 b, r 5, 0), (.shrImm g5 1 31 b, r 6, 0), (.sraImm g5 1 31 b, r 7, 0),
   (.mulImm g5 1 31 b, r 8, 0), (.mulhuImm g5 1 31 b, r 9, 0), (.minImm g5 1 31 b, r 0xA, 0), (.maxImm g5 1 31 b, r 0xB, 0),
   (.minuImm g5 1 31 b, r 0xC, 0), (.maxuImm g5 1 31 b, r 0xD, 0), (.faddImm g5 1 31 b, r 0x10, 0), (.fsubImm g5 1 31 b, r 0x11, 0),
   (.fmulImm g5 1 31 b, r 0x12, 0), (.fminImm g5 1 31 b, r 0x13, 0), (.fmaxImm g5 1 31 b, r 0x14, 0), (.i2fImm g5 1 31 b, r 0x18, 0),
   (.f2iImm g5 1 31 b, r 0x19, 0),
   (.addImm g5 1 31 (.ext (BitVec.ofNat 64 (2 ^ 64 - 2))), word 0x02 0 [(6, 1), (19, 1), (24, 31)], 2 ^ 64 - 2)]

def wordsCompare : List Spelled :=
  let r (m : Nat) : Nat := word 0x03 m [(19, 5), (22, 6), (27, 9)]
  let i (m : Nat) : Nat := word 0x03 m [(19, 5), (22, 6), (32, 1), (33, 2 ^ 31 - 1)]
  let b : CmpB := .imm (BitVec.allOnes 31)
  [(.eq g5 5 6 (.reg 9), r 0, 0), (.eq g5 5 6 b, i 0, 0), (.ne g5 5 6 (.reg 9), r 1, 0), (.lt g5 5 6 b, i 2, 0),
   (.le g5 5 6 (.reg 9), r 3, 0), (.ltu g5 5 6 b, i 4, 0), (.leu g5 5 6 (.reg 9), r 5, 0), (.feq g5 5 6 (.reg 9), r 8, 0),
   (.fne g5 5 6 (.reg 9), r 9, 0), (.flt g5 5 6 (.reg 9), r 0xA, 0), (.fle g5 5 6 (.reg 9), r 0xB, 0),
   (.pand g5 1 2 7, word 0x04 0 [(19, 1), (22, 2), (25, 7)], 0), (.por g5 1 2 7, word 0x04 1 [(19, 1), (22, 2), (25, 7)], 0),
   (.pxor g5 1 2 7, word 0x04 2 [(19, 1), (22, 2), (25, 7)], 0), (.pandn g5 1 2 7, word 0x04 3 [(19, 1), (22, 2), (25, 7)], 0),
   (.br g5 4 (BitVec.allOnes 32), word 0x08 0 [(19, 4), (32, 2 ^ 32 - 1)], 0), (.jr g5 4 6, word 0x08 1 [(19, 4), (24, 6)], 0)]

def wordsMemory : List Spelled :=
  let r (m : Nat) : Nat := word 0x0C m [(19, 6), (24, 1), (29, 2 ^ 35 - 64)]
  let o : BitVec 35 := BitVec.ofNat 35 (2 ^ 35 - 64)
  [(.ld8 g5 6 1 o, r 0, 0), (.ld16 g5 6 1 o, r 1, 0), (.ld32 g5 6 1 o, r 2, 0), (.ld64 g5 6 1 o, r 3, 0), (.lds8 g5 6 1 o, r 4, 0),
   (.lds16 g5 6 1 o, r 5, 0), (.lds32 g5 6 1 o, r 6, 0), (.st8 g5 6 1 o, r 8, 0), (.st16 g5 6 1 o, r 9, 0),
   (.st32 g5 6 1 o, r 0xA, 0), (.st64 g5 6 1 o, r 0xB, 0), (.ataddI32 g5 6 1 o, r 0x10, 0), (.ataddI64 g5 6 1 o, r 0x11, 0),
   (.ataddF32 g5 6 1 o, r 0x12, 0), (.ataddBf16 g5 6 1 o, r 0x13, 0), (.ataddWsf g5 6 1 o, r 0x14, 0),
   (.tdld g5 63 1 64, word 0x10 0 [(19, 63), (25, 1), (30, 64)], 0), (.tdst g5 63 1 64, word 0x10 1 [(19, 63), (25, 1), (30, 64)], 0),
   (.tdset g5 1 5 2, word 0x10 2 [(19, 1), (25, 5), (28, 2)], 0), (.tdcp g5 1 2, word 0x10 3 [(19, 1), (25, 2)], 0),
   (.tdinv g5 1, word 0x10 4 [(19, 1)], 0), (.dmaq g5 3 1 9 true, word 0x14 0 [(19, 3), (21, 1), (26, 9), (32, 1)], 0)]

def wordsMatrix : List Spelled :=
  [(.mma g5 1 2 3 true, word 0x18 0 [(19, 1), (25, 2), (31, 3), (37, 1)], 0), (.macc g5 1 3, word 0x18 1 [(19, 1), (31, 3)], 0),
   (.mzero g5 3, word 0x18 2 [(31, 3)], 0), (.mcvt g5 1 2, word 0x18 3 [(19, 1), (25, 2)], 0),
   (.spl g5 1 2 9 (some 4), word 0x1D 0 [(19, 1), (25, 2), (31, 9), (35, 1), (36, 4)], 0),
   (.spl g5 1 2 3 none, word 0x1D 0 [(19, 1), (25, 2), (31, 3)], 0), (.spld g5 3 1 1, word 0x1D 1 [(19, 3), (21, 1), (22, 1)], 0),
   (.spsw g5 3 1, word 0x1D 2 [(19, 3), (21, 1)], 0),
   (.rstat g5 1 2 true true (some 4) 5 6 511, word 0x1E 0 [(19, 1), (25, 2), (31, 1), (32, 1), (33, 1), (34, 4), (39, 5), (44, 6), (49, 511)], 0),
   (.rstatc g5 1 2 true 5, word 0x1E 1 [(19, 1), (25, 2), (32, 1), (39, 5)], 0)]

def wordsVector : List Spelled :=
  let r (m : Nat) : Nat := word 0x1C m [(19, 1), (25, 2), (31, 3)]
  let k (m : Nat) : Nat := word 0x1C m [(19, 1), (25, 2), (31, 3), (43, 1)]
  [(.vadd g5 1 2 (.tensor 3), r 0, 0), (.vsub g5 1 2 (.scalar 3), k 1, 0), (.vmul g5 1 2 (.tensor 3), r 2, 0),
   (.vfma g5 1 2 (.tensor 3) 4, r 3 + 4 * 2 ^ 37, 0), (.vmin g5 1 2 (.tensor 3), r 4, 0), (.vmax g5 1 2 (.tensor 3), r 5, 0),
   (.vabs g5 1 2, word 0x1C 6 [(19, 1), (25, 2)], 0), (.vneg g5 1 2, word 0x1C 7 [(19, 1), (25, 2)], 0),
   (.vscale g5 1 2 (.scalar 3), k 8, 0), (.vcmp g5 1 2 (.tensor 3) 5, r 9 + 5 * 2 ^ 44, 0),
   (.vsel g5 1 2 (.tensor 3) 4, r 0xA + 4 * 2 ^ 37, 0), (.vcvt g5 1 2, word 0x1C 0xB [(19, 1), (25, 2)], 0),
   (.vbcast g5 1 (.scalar 3), word 0x1C 0xC [(19, 1), (31, 3), (43, 1)], 0), (.vrsum g5 1 2, word 0x1C 0x10 [(19, 1), (25, 2)], 0),
   (.vrmax g5 1 2, word 0x1C 0x11 [(19, 1), (25, 2)], 0), (.vrmin g5 1 2, word 0x1C 0x12 [(19, 1), (25, 2)], 0)]

def wordsAttention : List Spelled :=
  let d : AttnArgs := { ts := 4, causal := true, win := true, sqb := 1, sc := 2, sk0 := 3, b := 256, src := .direct 5 6 7 8 }
  let p : AttnArgs := { ts := 4, causal := false, win := false, sqb := 1, sc := 2, sk0 := 3, b := 1, src := .paged 9 7 }
  let dx (tm : Nat) : Nat := word 1 0 [(5, 2), (10, 3), (15, 256), (32, 5), (38, 6), (44, 7), (49, 8), (54, tm)]
  let px (tm : Nat) : Nat := word 1 0 [(5, 2), (10, 3), (15, 1), (24, 9), (29, 7), (54, tm)]
  [(.astep g5 1 2 3 d, word 0x20 0 [(6, 1), (19, 1), (25, 2), (31, 3), (37, 4), (43, 1), (44, 1), (45, 1)], dx 0),
   (.astep g5 1 2 3 p, word 0x20 0 [(6, 1), (19, 1), (25, 2), (31, 3), (37, 4)], px 0),
   (.amax g5 1 3 11 d, word 0x20 1 [(6, 1), (19, 1), (31, 3), (37, 4), (43, 1), (44, 1), (45, 1)], dx 11),
   (.aexp g5 1 2 3 11 p, word 0x20 2 [(6, 1), (19, 1), (25, 2), (31, 3), (37, 4)], px 11),
   (.afin g5 1 2 (some 3) (some 4), word 0x20 3 [(19, 1), (25, 2), (31, 3), (37, 1), (38, 1), (39, 4)], 0),
   (.afin g5 1 2 none none, word 0x20 3 [(19, 1), (25, 2)], 0), (.amrg g5 1 2 63, word 0x20 4 [(19, 1), (25, 2), (31, 63)], 0)]

def wordsOther : List Spelled :=
  [(.nbmode g5 31 2, word 0x24 0 [(19, 31), (24, 2)], 0), (.nbseq g5 31 63 62 1, word 0x24 1 [(19, 31), (24, 63), (30, 62), (36, 1)], 0),
   (.nbload g5 31 1 15 true 4095, word 0x24 2 [(19, 31), (24, 1), (30, 15), (34, 1), (35, 4095)], 0),
   (.nbrun g5 31 63 62, word 0x24 3 [(19, 31), (24, 63), (30, 62)], 0),
   (.kvopen g5 2 1, word 0x28 0 [(19, 2), (24, 1)], 0), (.kvapp g5 2 255 3 4, word 0x28 1 [(19, 2), (24, 255), (32, 3), (38, 4)], 0),
   (.kvseal g5 2, word 0x28 2 [(19, 2)], 0), (.kvfree g5 2, word 0x28 3 [(19, 2)], 0),
   (.cform g5 2 1, word 0x2C 0 [(19, 2), (24, 1)], 0), (.crun g5 2 1 63 true, word 0x2C 1 [(19, 2), (24, 1), (29, 63), (35, 1)], 0),
   (.cleave g5 2, word 0x2C 2 [(19, 2)], 0),
   (.semsig g5 255 (.imm 65535), word 0x30 0 [(19, 255), (33, 65535)], 0), (.semsig g5 255 (.reg 2), word 0x30 0 [(19, 255), (27, 1), (28, 2)], 0),
   (.semsigr g5 (.imm 3) 1, word 0x30 1 [(33, 3), (49, 1)], 0), (.semwait g5 255 (.imm 3), word 0x30 2 [(19, 255), (33, 3)], 0),
   (.evwait g5 63, word 0x30 3 [(19, 63)], 0), (.evset g5 63, word 0x30 4 [(19, 63)], 0), (.twait g5 1, word 0x30 5 [(19, 1)], 0)]

/-- The words of a list decode to their instructions. -/
abbrev Spells (l : List Spelled) : Prop := l.map (fun x => decodeWord 5 x.2.1 x.2.2) = l.map (fun x => some x.1)

theorem test_decode_sequencer : Spells (wordsSystem ++ wordsScalar ++ wordsImm ++ wordsCompare) := by rfl
theorem test_decode_memory_matrix : Spells (wordsMemory ++ wordsMatrix) := by rfl
theorem test_decode_units : Spells (wordsVector ++ wordsAttention ++ wordsOther) := by rfl

/-- R211, R213: reserved MAJOR and MINOR, X forbidden, X missing, a reserved bit, fields marked unused. -/
theorem test_decode_refuses :
    ([(word 0x3F 0 [], 0), (word 0x01 0x0E [], 0), (word 0x00 0 [(6, 1)], 0), (word 0x20 0 [], 0), (word 0x00 0 [(19, 1)], 0),
      (word 0x1C 6 [(31, 1)], 0), (word 0x02 0 [(6, 1), (29, 1)], 5), (word 0x1C 0 [(44, 1)], 0), (word 0x20 3 [(39, 1)], 0),
      (word 0x30 0 [(28, 1)], 0)] : List (Nat × Nat)).all (fun x => (decodeWord 5 x.1 x.2).isNone) = true := by decide +kernel

/-! ### Every instruction issues somewhere -/

/-- The address of a word in the scratchpad of core 5, as a local address and as a global one. -/
def at5 (o : Nat) : Nat := spadBase + 5 * 2 ^ 24 + o
def spad5 (o : Nat) : Nat := selfAddr (at5 o)

/-- A part in service: phase READY, with nothing else than `s`. -/
def ready (s : State) : State := s.put F.bruStatus_phase [] phReady

/-- A context at offset 0x1000 of the scratchpad, with s1 = the address of offset 0x2000, and p3 false. -/
def ctx : Slot :=
  { pc := spad5 0x1000, codeLo := spad5 0x1000, codeHi := spad5 0x1100, level := 3, queue := 320
    sregs := [(1, BitVec.ofNat 64 (spad5 0x2000)), (2, 5#64), (3, 3#64)] }

/-- The words of an instruction at offset 0x1000, in front of core 5 whose slot 1 holds `sl`. -/
def within (s : State) (sl : Slot) (x : Spelled) : State :=
  ((s.pokeLE (at5 0x1000) 8 x.2.1).pokeLE (at5 0x1008) 8 x.2.2).setSlot 5 1 (some sl)
def holding (sl : Slot) (x : Spelled) : State := within (ready State.reset) sl x

/-- The words are fetched on core 5 from slot 1, which issues; `s0` is the state after it. -/
def arrives (s : State) (i : Instr) (w x : Nat) : Option State :=
  match issueOf i, s.slot 5 1 with
  | some g, some sl =>
    if g.core = 5 ∧ s.issueHalted = false ∧ s.coreUsable 5 = true ∧ s.issuing 5 = some 1 then
      match s.fetchInstr 5 1 sl with
      | .word s0 w' x' => if w' = w ∧ x' = x then some s0 else none
      | .ends _ => none
    else none
  | _, _ => none

/-- The conditions of an issue but for the decoding. -/
def issues (s : State) (i : Instr) (w x : Nat) : Bool :=
  match issueOf i, s.slot 5 1 with
  | some g, some sl =>
    (arrives s i w x).isSome &&
    (illegalOperand sl i).isNone && sl.guard g && !(s.inUnits 5 1).any (fun e => s.waitsFor sl i e.instr) && !s.queueFull 5 i
  | _, _ => false

/-- The state after the fetch of `x` by the context `sl` in state `s`. -/
def after (s : State) (sl : Slot) (x : Spelled) : State := (arrives (within s sl x) x.1 x.2.1 x.2.2).getD State.reset

theorem fetched_of_arrives {s s0 : State} {x : Spelled} (h : decodeWord 5 x.2.1 x.2.2 = some x.1)
    (k : arrives s x.1 x.2.1 x.2.2 = some s0) : ∃ sl, s.fetched x.1 s0 5 1 sl x.2.1 x.2.2 := by
  unfold arrives at k
  split at k
  next g sl hg hs =>
    split at k
    next hc =>
      split at k
      next s1 w' x' hf =>
        split at k
        next hw =>
          obtain ⟨rfl, rfl⟩ := hw
          cases k
          exact ⟨sl, g, hg, by rw [hc.1]; rfl, hc.2.1, hc.2.2.1, hc.2.2.2, hs, hf, by rw [hc.1]; exact h⟩
        next => simp at k
      next => simp at k
    next => simp at k
  next => simp at k

theorem canIssue_of_issues {s : State} {x : Spelled} (h : decodeWord 5 x.2.1 x.2.2 = some x.1)
    (k : issues s x.1 x.2.1 x.2.2 = true) :
    ∃ s0 sl, arrives s x.1 x.2.1 x.2.2 = some s0 ∧ s.slot 5 1 = some sl ∧ s.canIssue x.1 s0 5 1 sl := by
  unfold issues at k
  split at k
  next g sl hg hs =>
    simp only [Bool.and_eq_true, Bool.not_eq_true', Option.isNone_iff_eq_none] at k
    obtain ⟨⟨⟨⟨h1, h6⟩, h7⟩, h8⟩, h9⟩ := k
    obtain ⟨s0, h1⟩ := Option.isSome_iff_exists.mp h1
    obtain ⟨sl', g', hg', k1, k2, k3, k4, k5, k6, k7⟩ := fetched_of_arrives h h1
    rw [hg] at hg'
    rw [hs] at k5
    cases hg'
    cases k5
    exact ⟨s0, sl, h1, hs, g, _, _, hg, k1, k2, k3, k4, hs, k6, k7, h6, h7, h8, h9⟩
  next => simp at k

theorem issue_all {l : List Spelled} (h : Spells l) (k : l.all (fun x => issues (holding ctx x) x.1 x.2.1 x.2.2) = true) :
    ∀ x ∈ l, ∃ s0, arrives (holding ctx x) x.1 x.2.1 x.2.2 = some s0 ∧ (holding ctx x).canIssue x.1 s0 5 1 ctx := by
  intro x hx
  obtain ⟨s0, sl, ha, hs, hc⟩ := canIssue_of_issues (List.map_inj_left.mp h x hx) (List.all_eq_true.mp k x hx)
  have e : (holding ctx x).slot 5 1 = some ctx := State.slot_setSlot _ _ _ _
  rw [e] at hs
  cases hs
  exact ⟨s0, ha, hc⟩

/-- The premises of ScalarIntegerResults, ScalarFloatResults, CompareAndPredicateResults, ControlFlowResults, SystemClassResults. -/
theorem test_issue_sequencer : ∀ x ∈ wordsSystem ++ wordsScalar ++ wordsImm ++ wordsCompare,
    ∃ s0, arrives (holding ctx x) x.1 x.2.1 x.2.2 = some s0 ∧ (holding ctx x).canIssue x.1 s0 5 1 ctx := issue_all test_decode_sequencer (by decide +kernel)

/-- The premises of LoadsAndStores, DescriptorsAndSignals, PostedAdditions and, for the matrix, UnitInstructionsQueue. -/
theorem test_issue_memory_matrix : ∀ x ∈ wordsMemory ++ wordsMatrix,
    ∃ s0, arrives (holding ctx x) x.1 x.2.1 x.2.2 = some s0 ∧ (holding ctx x).canIssue x.1 s0 5 1 ctx := issue_all test_decode_memory_matrix (by decide +kernel)

/-- The premises of UnitInstructionsQueue and SyncClassResults. -/
theorem test_issue_units : ∀ x ∈ wordsVector ++ wordsAttention ++ wordsOther,
    ∃ s0, arrives (holding ctx x) x.1 x.2.1 x.2.2 = some s0 ∧ (holding ctx x).canIssue x.1 s0 5 1 ctx := issue_all test_decode_units (by decide +kernel)

/-! ### The premises of the statements: instructions that issue -/

/-- The premises of FetchDecodeAndGuard: a guard that is false, an illegal operand, an illegal word, a program counter before the
code, one whose word ends beyond it, and one between words. -/
theorem premises_FetchDecodeAndGuard :
    let x : Spelled := (.nop gp, word 0x00 0 [(7, 3), (10, 1)], 0)
    let y : Spelled := (.fence g5 0#5, word 0x00 2 [], 0)
    let s := ready State.reset
    (decodeWord 5 x.2.1 0 = some x.1 ∧ decodeWord 5 y.2.1 0 = some y.1) ∧
    ((arrives (within s { ctx with preds := 8#8 } x) x.1 x.2.1 0).isSome = true ∧ illegalOperand ctx x.1 = none ∧
      (({ ctx with preds := 8#8 } : Slot).p gp.pred ^^ gp.pn) = false) ∧
    ((arrives (within s ctx y) y.1 y.2.1 0).isSome = true ∧ illegalOperand ctx y.1 = some 1 ∧ (after s ctx y).slot 5 1 = some ctx ∧
      ctx.stop = none ∧ ctx.wait = none) ∧
    (illegalWord (word 0x3F 0 []) 0 = some 0 ∧ (within s ctx (.nop g5, word 0x3F 0 [], 0)).issuing 5 = some 1 ∧
      (match (within s ctx (.nop g5, word 0x3F 0 [], 0)).fetchInstr 5 1 ctx with
        | .word t w z => decide (w = word 0x3F 0 [] ∧ z = 0 ∧ t.slot 5 1 = some ctx) | .ends _ => false) = true) ∧
    (∀ pc ∈ [spad5 0x1000 - 8, spad5 0x1100 - 7, spad5 0x1004],
      pc < ctx.codeLo ∨ ctx.codeHi < pc + 8 ∨ pc % 8 ≠ 0) := by
  refine ⟨⟨rfl, rfl⟩, ?_, ?_, ?_, ?_⟩ <;> decide +kernel

/-- The premises of SystemClassResults beyond the issue: nothing outstanding. -/
theorem premises_SystemClassResults :
    ctx.waits = [] ∧ ctx.atomFail = none ∧ (after (ready State.reset) ctx (.fence g5 31#5, word 0x00 2 [(19, 31)], 0)).fenced 5 1 31#5 = true ∧
    (after (ready State.reset) ctx (.srd g5 7 1, word 0x00 3 [(19, 7), (24, 1)], 0)).fenced 5 1 0b11010#5 = true := by decide +kernel

/-- A part in service where semaphore 255 of core 5 holds 3, event flag 63 is set and the Cadence count is 100. -/
def synced : State := ((ready State.reset).put F.semValue_value [5, 255] 3).put F.cadCount_count [] 100 |>.putEvent 5 63 true

/-- The premises of SyncClassResults: values on both sides of each bound, and waits that stand before. -/
theorem premises_SyncClassResults :
    let sig : Spelled := (.semsig g5 255 (.imm 65535), word 0x30 0 [(19, 255), (33, 65535)], 0)
    let sem : Spelled := (.semwait g5 255 (.imm 3), word 0x30 2 [(19, 255), (33, 3)], 0)
    let ev : Spelled := (.evwait g5 63, word 0x30 3 [(19, 63)], 0)
    let tw : Spelled := (.twait g5 2, word 0x30 5 [(19, 2)], 0)
    let waiting := synced.modCore 5 (fun y => { y with semQ := [(255, [2])], evQ := [(63, [2])] })
    let e := after synced ctx sem
    let w := after waiting ctx sem
    (issues (within synced ctx sig) sig.1 sig.2.1 0 = true ∧ issues (within synced ctx sem) sem.1 sem.2.1 0 = true ∧
      issues (within synced ctx ev) ev.1 ev.2.1 0 = true ∧ issues (within waiting ctx sem) sem.1 sem.2.1 0 = true ∧
      issues (within synced ctx tw) tw.1 tw.2.1 0 = true) ∧
    (tget [] (e.core 5).semQ 255 = [] ∧ e.get F.semValue_value [5, 255] + 65535 < 2 ^ 32 ∧ SyncN.value ctx (.imm 3) ≤ e.get F.semValue_value [5, 255]) ∧
    (tget [] (w.core 5).semQ 255 ≠ [] ∧ SyncN.value ctx (.imm 3) ≠ 0 ∧ SyncN.value ctx (.imm 0) = 0) ∧
    (e.get F.semValue_value [5, 255] < SyncN.value ctx (.imm 4)) ∧
    (tget [] (e.core 5).evQ 63 = [] ∧ e.event 5 63 = true ∧ e.event 5 62 = false ∧ tget [] (w.core 5).evQ 63 ≠ []) ∧
    ((ctx.s 2).toNat ≤ e.get F.cadCount_count ∧ e.get F.cadCount_count < (ctx.s 1).toNat) := by
  repeat' apply And.intro
  all_goals decide +kernel

/-- Whether an access is answered, and whether it fails with a status. -/
def served (r : State × Ans) : Bool := match r.2 with | .ok _ => true | _ => false
def fails (r : State × Ans) (st : Nat) : Bool := match r.2 with | .fail k => k == st | _ => false

/-- A part whose chip ID is 1, with a route to chip 2 by port 0, which is up and has biscuits. -/
def routed : State :=
  (((((ready State.reset).put F.glbChipId_id [] 1).put F.gfStatus_state [0] gfUp).setReg .gfRouteLocal [2] 8).setAvail 0 0 9).setAvail 0 2 9

/-- A context whose s1 is an address of chip 2. -/
def ctxPeer : Slot := { ctx with sregs := [(1, BitVec.ofNat 64 (2 * 2 ^ 44 + at5 0x2000)), (2, 5#64)] }

/-- The premises of LoadsAndStores: an aligned access to this core's scratchpad and one to a peer chip. -/
theorem premises_LoadsAndStores :
    let o : BitVec 35 := BitVec.ofNat 35 (2 ^ 35 - 64)
    let a := (ctx.s 1 + BitVec.ofInt 64 o.toInt).toNat
    let b := (ctxPeer.s 1 + BitVec.ofInt 64 o.toInt).toNat
    let i : Spelled := (.ld64 g5 6 1 o, word 0x0C 3 [(19, 6), (24, 1), (29, 2 ^ 35 - 64)], 0)
    let s := after (ready State.reset) ctx i
    let p := after routed ctxPeer i
    (a = spad5 0x1FC0 ∧ a % 64 = 0 ∧ s.target a = .spad 5 0x1FC0 ∧
      (∀ n ∈ [1, 2, 4, 8], s.bankCheck 5 [(a, n)] = .go ∧ served ((s.setSlot 5 1 (some (ctx.past 8))).access (mCore 5) 0 a (.rd n)) = true ∧
        served ((s.setSlot 5 1 (some (ctx.past 8))).access (mCore 5) 0 a (.wr (leBytes n 5))) = true)) ∧
    (b % 8 = 0 ∧ issues (within routed ctxPeer i) i.1 i.2.1 0 = true ∧ p.target b = .peer 2 ∧ p.bankCheck 5 [(b, 8)] = .go ∧
      ((p.setSlot 5 1 (some (ctxPeer.past 8))).sendRequest 1 b 8 0 0 (mCore 5) [] (.core 5 1 0) 0 0 0).2 = true ∧
      ((p.setSlot 5 1 (some (ctxPeer.past 8))).sendRequest 2 b 8 0 0 (mCore 5) (leBytes 8 5) (.core 5 1 0) 0 0 0).2 = true) ∧
    (s.targetStatus (mCore 5) (.spad 5 0x1FC0) 64 = 0 ∧ s.held (mCore 5) (.spad 5 0x1FC0) 64 = false ∧ s.parityHit [(at5 0x1FC0, 64)] = none) := by
  repeat' apply And.intro
  all_goals decide +kernel

/-- A context whose s1 is an odd address. -/
def ctxOdd : Slot := { ctx with sregs := [(1, BitVec.ofNat 64 (spad5 0x2001))], tds := [(63, 0x1000000010000000100000001#512)] }

/-- The premises of MisalignedAccessStops. -/
theorem premises_MisalignedAccessStops :
    let o : BitVec 35 := 0
    (∀ x ∈ ([(.ld16 g5 6 1 o, word 0x0C 1 [(19, 6), (24, 1)], 0), (.st64 g5 6 1 o, word 0x0C 0xB [(19, 6), (24, 1)], 0),
      (.tdld g5 63 1 0, word 0x10 0 [(19, 63), (25, 1)], 0), (.tdst g5 63 1 0, word 0x10 1 [(19, 63), (25, 1)], 0),
      (.semsigr g5 (.imm 3) 1, word 0x30 1 [(33, 3), (49, 1)], 0)] : List Spelled),
      issues (within (ready State.reset) ctxOdd x) x.1 x.2.1 0 = true ∧ (after (ready State.reset) ctxOdd x).slot 5 1 = some ctxOdd) ∧
    ctxOdd.stop = none ∧ ctxOdd.wait = none ∧ (ctxOdd.image 63).isSome = true ∧ (ctxOdd.s 1 + 0).toNat % 2 ≠ 0 := by
  repeat' apply And.intro
  all_goals decide +kernel

/-- A descriptor image: BASE, rows, columns, stride, format, word 5's other fields. -/
def imageOf (base rows cols stride fmt more : Nat) : Image :=
  BitVec.ofNat 512 (base + rows * 2 ^ 192 + cols * 2 ^ 209 + stride * 2 ^ 256 + (fmt + more) * 2 ^ 320)

/-- An INT8 tensor of 2 rows and 64 columns at offset 0x3000 of the scratchpad of core 5. -/
def im8 : Image := imageOf (spad5 0x3000) 2 64 64 5 0

/-- A context with a valid t2, a t1 whose STRIDE no scalar register may make 3, and a part whose scratchpad holds im8. -/
def ctxTd : Slot := { ctx with tds := [(1, im8), (2, im8)], sregs := [(1, BitVec.ofNat 64 (spad5 0x2000)), (2, 128#64), (3, 3#64)] }
def imaged : State := (ready State.reset).pokeLE (at5 0x2040) 64 im8.toNat

/-- The premises of DescriptorsAndSignals: a valid and an invalid result, a valid and an invalid source, an image in storage, a
semaphore's register and another address. -/
theorem premises_DescriptorsAndSignals :
    let set (r : Nat) : Spelled := (.tdset g5 1 4 (Fin.ofNat 32 r), word 0x10 2 [(19, 1), (25, 4), (28, r)], 0)
    let ld : Spelled := (.tdld g5 63 1 64, word 0x10 0 [(19, 63), (25, 1), (30, 64)], 0)
    let sg : Spelled := (.semsigr g5 (.imm 3) 1, word 0x30 1 [(33, 3), (49, 1)], 0)
    let sem : Slot := { ctx with sregs := [(1, BitVec.ofNat 64 (selfAddr (0x0C000000000 + regAddr .semSignal [5, 255])))] }
    let s := after imaged ctxTd ld
    let q := after imaged sem sg
    let w4 (v : Nat) : Image := imageOf (spad5 0x3000) 2 64 v 5 0
    (issues (within imaged ctxTd (set 2)) (set 2).1 (set 2).2.1 0 = true ∧ descValid im8 = true ∧ descValid (w4 128) = true ∧
      descValid (w4 3) = false ∧ (∀ j < 8, bits (w4 128).toNat (64 * j) 64 = if j = 4 then (ctxTd.s 2).toNat else bits im8.toNat (64 * j) 64) ∧
      ctxTd.image 1 = some im8 ∧ ctxTd.image 3 = none) ∧
    (issues (within imaged ctxTd ld) ld.1 ld.2.1 0 = true ∧ s.bankCheck 5 [(spad5 0x2040, 64)] = .go ∧ s.target (spad5 0x2040) = .spad 5 0x2040 ∧
      (match ((s.setSlot 5 1 (some (ctxTd.past 8))).access (mCore 5) 0 (spad5 0x2040) (.rd 64)).2 with
        | .ok bs => BitVec.ofNat 512 (leOf bs) == im8 && descValid im8 | _ => false) = true ∧
      served ((s.setSlot 5 1 (some (ctxTd.past 8))).access (mCore 5) 0 (spad5 0x2040) (.wr (leBytes 64 im8.toNat))) = true) ∧
    (issues (within imaged sem sg) sg.1 sg.2.1 0 = true ∧ (sem.s 1).toNat % 8 = 0 ∧ q.bankCheck 5 [((sem.s 1).toNat, 4)] = .go ∧
      q.target (sem.s 1).toNat = .reg (regAddr .semSignal [5, 255]) ∧ semAt (regAddr .semSignal [5, 255]) = some (5, 255) ∧
      q.regServed (mCore 5) (regAddr .semSignal [5, 255]) = true) ∧
    (issues (within imaged ctx sg) sg.1 sg.2.1 0 = true ∧ (ctx.s 1).toNat % 8 = 0 ∧
      served (((after imaged ctx sg).setSlot 5 1 (some (ctx.past 8))).access (mCore 5) 0 (ctx.s 1).toNat (.wr (leBytes 4 3))) = true) := by
  repeat' apply And.intro
  all_goals decide +kernel

/-- A context whose s1 is an address of channel 31 of core 7, near the end of the slice. -/
def ctxAdd : Slot := { ctx with sregs := [(1, BitVec.ofNat 64 (selfAddr (sliceAddr 7 31 0x7FFFF40))), (6, 9#64)] }

/-- The premises of PostedAdditions: an aligned address of a slice, one that is not aligned, and one in no slice. -/
theorem premises_PostedAdditions :
    let r (m o : Nat) : Nat := word 0x0C m [(19, 6), (24, 1), (29, o)]
    let xs : List (Spelled × Nat × Nat) := [((.ataddI32 g5 6 1 64, r 0x10 64, 0), 0, 4), ((.ataddI64 g5 6 1 64, r 0x11 64, 0), 1, 8),
      ((.ataddF32 g5 6 1 64, r 0x12 64, 0), 2, 4), ((.ataddBf16 g5 6 1 64, r 0x13 64, 0), 3, 2), ((.ataddWsf g5 6 1 64, r 0x14 64, 0), 4, 16)]
    let a := (ctxAdd.s 1 + 64).toNat
    (∀ x ∈ xs, issues (within (ready State.reset) ctxAdd x.1) x.1.1 x.1.2.1 0 = true ∧ a % x.2.2 = 0 ∧
      (let s := after (ready State.reset) ctxAdd x.1
       s.target a = .slice 7 31 0x7FFFF80 ∧ s.targetStatus (mCore 5) (.slice 7 31 0x7FFFF80) (addSize x.2.1) = 0 ∧
       addInvalid x.2.1 a 9 0 0 = false ∧ s.slot 5 1 = some ctxAdd)) ∧
    (issues (within (ready State.reset) ctxAdd (.ataddI32 g5 6 1 1, r 0x10 1, 0)) (.ataddI32 g5 6 1 1) (r 0x10 1) 0 = true ∧
      (ctxAdd.s 1 + 1).toNat % 4 ≠ 0 ∧ (sliceOf (ctx.s 1).toNat).isNone = true) := by
  repeat' apply And.intro
  all_goals decide +kernel

/-- The premise of UnitInstructionsQueue: the unit of every instruction that has one. -/
theorem premises_UnitInstructionsQueue :
    (wordsMatrix ++ wordsVector ++ wordsAttention).all (fun x => (unitOf x.1).isSome) = true ∧
    ((wordsOther.take 11).all (fun x => (unitOf x.1).isSome)) = true ∧ unitOf (.dmaq g5 3 1 9 true) = some (.dma 3) ∧
    unitOf (.nbrun g5 31 63 62) = some .nearbank ∧ unitOf (.kvfree g5 2) = some .kv ∧ unitOf (.cleave g5 2) = some .collective := by
  decide +kernel

/-! ### The premises of the statements: the sequencer and the queues -/

/-- A part in service, with what `f` changes. -/
def part (f : State → State) : State := f (ready State.reset)

/-- The premises of SignalOverflowDiscarded, SemaphoreWrites, CoreControlWrites and QueueConfiguration: the registers are served,
with values on both sides of the bounds, one wait that a signal satisfies and one it does not. -/
theorem premises_core_registers :
    let s := part (·.puts [(F.semValue_value, [63, 255], 5), (F.bxRoute_linkUp, [], 15)])
    let w (m : Nat) := s.modCore 63 (fun y => { y.setSlot 3 (some { phase := .parked, wait := some (.sem 255 m) }) with semQ := [(255, [3])] })
    (∀ k ∈ [(RegKind.semSignal, [63, 255]), (.semValue, [63, 255]), (.evSet, [63]), (.evClr, [63]), (.coreControl, [63]), (.mxaControl, [63]),
      (.vsuControl, [63]), (.qRingCfg, [63, 63]), (.qSched, [63, 63])], s.regServed mHostIo (regAddr k.1 k.2) = true) ∧
    (s.get F.semValue_value [63, 255] + (BitVec.ofNat 32 (2 ^ 32 - 6)).toNat < 2 ^ 32 ∧
      2 ^ 32 ≤ s.get F.semValue_value [63, 255] + (BitVec.ofNat 32 (2 ^ 32 - 5)).toNat ∧ tget [] (s.core 63).semQ 255 = []) ∧
    (∀ m ∈ [8, 9], tget [] ((w m).core 63).semQ 255 = [3] ∧ ((w m).slot 63 3).map Slot.wait = some (some (.sem 255 m))) ∧
    8 ≤ s.get F.semValue_value [63, 255] + (3#32).toNat ∧ s.get F.semValue_value [63, 255] + (3#32).toNat < 9 ∧
    (∀ i < 64, tget [] (s.core 63).evQ i = []) ∧
    s.get F.qSched_enable (qx 4095) = 0 ∧ s.qState 4095 = qDisabled ∧
    (s.put F.qSched_enable (qx 4095) 1).get F.qSched_enable (qx 4095) ≠ 0 := by
  repeat' apply And.intro
  all_goals decide +kernel

/-- Queue 320, the first of core 5: rings of 4 in the scratchpad, enabled, PENDING with one command whose program has the two
words NOP and END at level 3. -/
def header : List Byte :=
  let b := leBytes 4 0x4D4C5047 ++ [3#8, 1#8, 0#8, 0#8] ++ leBytes 4 0x20 ++ leBytes 4 0x30 ++ leBytes 8 0 ++ leBytes 4 0
  b ++ leBytes 4 (crc32 b)
def descriptor : List Byte :=
  leBytes 4 0 ++ leBytes 4 0 ++ leBytes 8 0x1234 ++ leBytes 8 (spad5 0x6000) ++ leBytes 8 11 ++ leBytes 8 12 ++ leBytes 8 13 ++ leBytes 8 14 ++
    leBytes 8 0
def queued : State :=
  part (fun s => (((s.puts [(F.qRingBase_base, [5, 0], spad5 0x4000 / 64), (F.qCqBase_base, [5, 0], spad5 0x5000 / 32),
    (F.qPtr_tail, [5, 0], 1), (F.qPtr_phase, [5, 0], 1), (F.qSched_enable, [5, 0], 1), (F.qSched_priority, [5, 0], 2), (F.qState_state, [5, 0], qPending)]).pokes
      (at5 0x4000) descriptor).pokes (at5 0x6000) header).pokeLE (at5 0x6020) 16 (2 ^ 64 * 2 ^ 11))

/-- The premises of SelectionOrder and SelectionStartsAndResumes: a pending queue, and a satisfied wait before it. -/
theorem premises_Selection :
    let s := queued
    let sl : Slot := { phase := .parked, queue := 321, prio := 2, wait := some (.sem 1 2), granted := true }
    let t := s.setSlot 5 3 (some sl)
    (s.issueHalted = false ∧ s.coreUsable 5 = true ∧ s.phase = phReady ∧ s.flag F.coreControl_hold [5] = false ∧ s.issuing 5 = none ∧
      s.choose 5 = some (.queue 0 0) ∧ s.regionWanted (offCore 5) = false) ∧
    (t.choose 5 = some (.slot 3) ∧ t.slotReady sl = true ∧ (t.setSlot 5 3 (some { sl with prio := 3 })).choose 5 = some (.queue 0 0)) ∧
    (match (s.storeAccess (mCore 5) 0 (spad5 0x4000) (.rd 64)).2 with
      | .ok b => decide (b = descriptor) && (s.descCheck 320 b).isNone && (s.freshSlot 320 b).hdr == spad5 0x6000
      | _ => false) = true ∧
    (match (s.storeAccess (mCore 5) 0 (spad5 0x6000) (.rd 32)).2 with
      | .ok h => (s.headerCheck (spad5 0x6000) h).isNone | _ => false) = true := by
  repeat' apply And.intro
  all_goals decide +kernel

/-- R81, R88: SELECT starts that command at its program's entry. -/
theorem test_select_starts :
    (match exec (.select 5) queued with
      | .next t => (t.slot 5 0).map (fun sl => (sl.pc, sl.level, sl.queue, sl.s 1, sl.s 4, sl.s 5)) ==
          some (spad5 0x6020, 3, 320, 11#64, 14#64, 0#64) && t.qState 320 == qRunning
      | _ => false) = true := by decide +kernel

/-- A command of queue 320 that has ended, one whose stop is found, one reported, in slot 2. -/
def endedSlot : Slot := { phase := .ended, queue := 320, tag := 0x1234, epoch := 5, aflags := 3#8 }
def stopping : StopRec := { detail := { status := 0x14, idx := 2, major := 0x0C, minor := 3, pc := spad5 0x6020 }, seq := 4, entry := none }
def stopSlot : Slot := { phase := .stopping, queue := 320, seq := 5, stop := some stopping }
def inSlot (sl : Slot) (s : State) : State := s.setSlot 5 2 (some sl)

/-- The premises of CompletionRecords, FullRingHoldsRecord and QueueControl: the ring has one record's space, or none. -/
theorem premises_records :
    let s := inSlot endedSlot queued
    let full := (inSlot endedSlot queued).put F.qCqHead_cqHead [5, 0] 1
    let r : CqRec := { status := 0, final := true, epoch := 5, aflags := 3 }
    let waits : CqRec := { status := 0x14, final := false, epoch := 5 }
    (s.slotOf 320 = some (2, endedSlot) ∧ (s.get F.qPtr_cqTail [5, 0] + 1) % s.cqSize 320 ≠ s.get F.qCqHead_cqHead [5, 0] ∧
      s.unfinished 5 2 = [] ∧ served (s.storeAccess (mCore 5) 0 (s.get F.qCqBase_base [5, 0] * 32) (.wr (recordBytes 0x1234 320 r 1))) = true) ∧
    (full.slotOf 320 = some (2, endedSlot) ∧ (full.get F.qPtr_cqTail [5, 0] + 1) % full.cqSize 320 = full.get F.qCqHead_cqHead [5, 0] ∧
      endedSlot.queue = 320 ∧ endedSlot.cq = none) ∧
    ((inSlot stopSlot full).slot 5 2 = some stopSlot ∧ ((inSlot stopSlot full).unfinished 5 2).any (fun n => decide (n < stopping.seq)) = false) ∧
    (let sl := { stopSlot with cq := some waits }
     let t := inSlot sl queued
     let t := (t.modCore 5 (fun y => { y with clock := (t.core 5).clock + 1 })).setSlot 5 2 (some { sl with order := (t.core 5).clock })
     served (t.storeAccess (mCore 5) 0 (t.get F.qCqBase_base [5, 0] * 32) (.wr (recordBytes 0 320 waits 1))) = true) ∧
    ((inSlot { stopSlot with phase := .stopped } queued).slotOf 320 = some (2, { stopSlot with phase := .stopped }) ∧
      queued.regServed mHostIo (regAddr .qControl [5, 0]) = true ∧ queued.slotOf 320 = none) ∧
    (tget 0 ({ queued with holdoff := [(320, 2)] } : State).holdoff 320 = 2 ∧ tget 0 queued.holdoff 320 ≠ 2) := by
  repeat' apply And.intro
  all_goals decide +kernel

/-- R85, R379: the record of an ended command: its tag, epoch, queue, status, flags and phase; the slot is free. -/
theorem test_record_written :
    (match exec (.completionRecord 320) (inSlot endedSlot queued) with
      | .next t => t.peekLE (at5 0x5000) 8 == 0x1234 && t.peekLE (at5 0x5008) 4 == 5 && t.peekLE (at5 0x500C) 2 == 320 &&
          t.peekLE (at5 0x500E) 2 == 0x300 && t.peekLE (at5 0x5016) 2 == 5 && (t.slot 5 2).isNone && t.get F.qPtr_cqTail [5, 0] == 1
      | _ => false) = true := by decide +kernel

/-- The premises of DoorbellWrites: a ring of 4 with HEAD 2 and TAIL 3: a tail beyond the ring, one that would remove the posted
command, one that posts two more. -/
theorem premises_DoorbellWrites :
    let s := part (·.puts [(F.qRingCfg_log2Size, [5, 0], 2), (F.qPtr_head, [5, 0], 2), (F.qPtr_tail, [5, 0], 3)])
    s.ringSize 320 = 4 ∧ s.ringCount 320 = 1 ∧ 4 ≤ (4#16).toNat ∧ (2 + 4 - s.qHead 320) % 4 < s.ringCount 320 ∧
    ((1#16).toNat < 4 ∧ s.ringCount 320 ≤ (1 + 4 - s.qHead 320) % 4) := by decide +kernel

/-! ### The premises of the statements: the units of a core -/

/-- A context with weights of 4 rows and 2 columns in t1, activations of 2 rows and 4 columns in t2, both INT8, and an output
region of 2 × 2 with anchor 0 at entry 4 of the accumulator store in t3; FP32 rows of 2 in t4, t5 and t6, and one element in t7. -/
def ctxMma : Slot :=
  { ctx with tds := [(1, imageOf (spad5 0x3000) 4 2 2 5 0), (2, imageOf (spad5 0x3008) 2 4 4 5 0),
      (3, imageOf (selfAddr (accBase + 5 * 2 ^ 21 + 64)) 2 2 2 0xB 0), (4, imageOf (spad5 0x3020) 1 2 2 0 0),
      (5, imageOf (spad5 0x3028) 1 2 2 0 0), (6, imageOf (spad5 0x3030) 1 2 2 0 0), (7, imageOf (spad5 0x3038) 1 1 1 0 0)] }

/-- What a unit of core 5 executes for slot 1, over storage that holds the weights 2 and −1 in each row, the first activation row 3,
and the FP32 rows 1.5, ∞ and 0.5, −1. -/
def running (i : Instr) (more : Running → Running) : Running := more { entry := { slot := 1, seq := 0, pc := spad5 0x1000, instr := i } }
def busy (u : UnitId) (r : Running) : State :=
  (part (fun s => (s.setSlot 5 1 (some ctxMma)).modCore 5 (fun y => y.setRuns u (some r)))).pokes (at5 0x3000)
    ([2#8, 0xFF#8, 2#8, 0xFF#8, 2#8, 0xFF#8, 2#8, 0xFF#8, 3#8, 3#8, 3#8, 3#8, 0#8, 0#8, 0#8, 0#8] ++ List.replicate 16 0#8 ++
      ([0x3FC00000, 0x7F800000, 0x3F000000, 0xBF800000] : List Nat).flatMap (leBytes 4))

/-- The premises of MatrixRowCommits and MatrixInstructionEnds, of MMA, MZERO, MACC and MCVT, and of the first and second
mismatch. -/
theorem premises_matrix :
    let i : Instr := .mma g5 1 2 3 true
    let r := running i id
    let s := busy .matrix r
    s.issueHalted = false ∧ (s.core 5).runs .matrix = some r ∧ r.inj = 0 ∧ r.again = false ∧ s.slot 5 r.entry.slot.val = some ctxMma ∧
    (match ctxMma.td 1, ctxMma.td 2, ctxMma.td 3 with
      | some dw, some dx, some dt => decide (r.row < dx.rows ∧ dw.cols ≤ dt.stride ∧ dt.entry0 + r.row * dt.stride + dw.cols ≤ 131072 ∧
          s.parityHit (rowReads ctxMma 2 dx r.row) = none ∧ dt.entry0 = 4 ∧ dx.rows = 2 ∧ dt.cols ≤ dt.stride ∧
          dt.entry0 + (dt.rows - 1) * dt.stride + dt.cols ≤ 131072)
      | _, _, _ => false) = true ∧
    (s.parityHit (unitReads ctxMma (.mzero g5 3)) = none ∧ s.parityHit (unitReads ctxMma (.macc g5 3 3)) = none ∧
      s.parityHit (unitReads ctxMma (.mcvt g5 3 4)) = none) ∧
    usableSt (statusOf (s.ownAt (offCore 5))) = true := by
  repeat' apply And.intro
  all_goals decide +kernel

/-- R111 to R113: the first row of the product: 4 × 3 × 2 and 4 × 3 × −1, added to entries 4 and 5. -/
theorem test_mma_row :
    (match exec (.commit 5 none) ((busy .matrix (running (.mma g5 1 2 3 true) id)).accSet 5 4 ⟨16#128, 2#8⟩) with
      | .next t => (t.accGet 5 4).n == 40#128 && (t.accGet 5 4).tag == 2#8 && (t.accGet 5 5).n == BitVec.ofInt 128 (-12) &&
          (t.accGet 5 6).n == 0#128 && ((t.core 5).runs .matrix).map Running.row == some 1
      | _ => false) = true := by decide +kernel

/-- R116: the instruction ends once its rows are committed. -/
theorem test_mma_end :
    (match exec (.mmaEnd 5) (busy .matrix (running (.mma g5 1 2 3 true) (fun r => { r with row := 2 }))) with
      | .next t => ((t.core 5).runs .matrix).isNone && t.get F.mxaInstructions_count [5] == 1 && t.get F.mxaMacCount_count [5] == 16
      | _ => false) = true := by decide +kernel

/-- The premises of VectorElementResults and UnitInstructionEnds: elements that do not overlap, no bad parity, nothing injected. -/
theorem premises_vector :
    let i : Instr := .vadd g5 4 5 (.tensor 6)
    let r := running i id
    let s := busy .vector r
    (s.slot 5 r.entry.slot.val = some ctxMma ∧ (s.core 5).runs .vector = some r ∧ s.parityHit (unitReads ctxMma i) = none ∧ r.inj = 0) ∧
    (match ctxMma.td 4, ctxMma.td 5, ctxMma.td 6 with
      | some d, some da, some db =>
        let addr (m j k : Nat) : Nat := localOf (d.byteAddr m (4 * j + k))
        decide (d.fmt.width = 8 * 4) && d.fmt == .fp32 && da.fmt == .fp32 && db.fmt == .fp32 && d.rows == 1 && d.cols == 2 &&
          (List.range 2).all (fun j => (List.range 4).all (fun k => localFar (addr 0 j k) == false && canon (addr 0 j k) == at5 0x3020 + 4 * j + k))
      | _, _, _ => false) = true ∧
    (ctxMma.td 7).map Desc.cols = some 1 ∧ (vecOf i).isSome = true ∧ (redOf (.vrsum g5 7 4)).isSome = true ∧
    (attnOf (.amax g5 4 5 6 { ts := 7, causal := false, win := false, sqb := 1, sc := 2, sk0 := 3, b := 1, src := .paged 1 0 })).isSome = true ∧ (busy .rowstat r).parityHit (unitReads ctxMma (.rstat g5 4 5 false false none 1 2 0)) = none := by
  repeat' apply And.intro
  all_goals decide +kernel

/-- R59, R60, R130: 1.5 + 0.5 and ∞ + −1, each rounded once; VRSUM of 0.5 and −1. -/
theorem test_vadd :
    (match exec (.unitInstructionEnd 5 .vector) (busy .vector (running (.vadd g5 6 4 (.tensor 5)) id)) with
      | .next t => t.peekLE (at5 0x3030) 4 == 0x40000000 && t.peekLE (at5 0x3034) 4 == 0x7F800000
      | _ => false) = true := by decide +kernel

theorem test_vrsum :
    (match exec (.unitInstructionEnd 5 .vector) (busy .vector (running (.vrsum g5 7 5) id)) with
      | .next t => t.peekLE (at5 0x3038) 4 == 0xBF000000 && t.get F.vecInstructions_count [5] == 1
      | _ => false) = true := by decide +kernel

/-- R122, R155: a second mismatch of the vector unit: a core fault. -/
theorem test_second_mismatch :
    (match exec (.unitRepeat 5 .vector 0 0) (busy .vector (running (.vadd g5 6 4 (.tensor 5)) (fun r => { r with again := true }))) with
      | .next t => statusOf (t.ownAt (offCore 5)) == stOffline && t.bring.jig.map JigRun.unit == [offCore 5]
      | _ => false) = true := by decide +kernel

/-! ### The premises of the statements: DMA, near-bank runs, channels -/

/-- A DMA descriptor of 100 bytes in one row, from offset 0x3000 to offset 0x3FE0 of the scratchpad; `flags` are its first bits. -/
def dmaImage (flags : Nat) : Nat :=
  flags + 100 * 2 ^ 32 + spad5 0x3000 * 2 ^ 64 + spad5 0x3FE0 * 2 ^ 128 + 2 ^ 192
def dmaReq : DmaReq := { addr := spad5 0x2000, tc := 3, owner := none, event := none }
def engine (x : DmaEng) (st : Nat) : State :=
  (part (fun s => (s.setEng 5 3 x).puts [(F.dmaStatus_state, [5, 3], st), (F.spadOwner_dma, [5], 1)])).pokeLE (at5 0x2000) 64 (dmaImage 0)
def loaded : DmaEng := { queue := [dmaReq], req := some dmaReq, desc := spad5 0x2000, image := dmaImage 0 }

/-- The premises of DmaDescriptorRuns and of the DMA clause of SecondMismatchFaultsCore: an engine that starts, one that moves a
burst up to a 64-byte boundary, a source outside the chip's memory, and one whose descriptor has ended. -/
theorem premises_DmaDescriptorRuns :
    let s := engine { queue := [dmaReq] } dmaIdle
    let t := engine loaded dmaActive
    let x := loaded
    (s.issueHalted = false ∧ s.coreUsable 5 = true ∧ s.dmaState 5 3 = dmaIdle ∧ (s.eng 5 3).loaded = false ∧ (s.eng 5 3).req = none ∧
      served (s.access (mDma 5 3) 3 (spad5 0x2000) (.rd 64)) = true ∧ dmaValid (dmaImage 0) = true ∧ dmaValid (dmaImage 2) = false) ∧
    (t.dmaState 5 3 = dmaActive ∧ t.eng 5 3 = x ∧ x.loaded = true ∧ x.code = none ∧ x.req = some dmaReq ∧ dmaFill x.image = false ∧ x.again = false ∧
      dmaAddr (dmaField x.image 0x10 8) (dmaField x.image 0x28 8) x.row x.byte = spad5 0x3FE0 ∧ min (dmaLen x.image - x.byte) (64 - spad5 0x3FE0 % 64) = 32 ∧
      served (t.access (mDma 5 3) 3 (spad5 0x3000) (.rd 32)) = true ∧
      served ((t.access (mDma 5 3) 3 (spad5 0x3000) (.rd 32)).1.access (mDma 5 3) 3 (spad5 0x3FE0) (.wr (List.replicate 32 0#8))) = true) ∧
    fails (t.access (mDma 5 3) 3 (2 * 2 ^ 44) (.rd 32)) 0x22 = true ∧
    (∀ k ∈ [0, 2, 255], k < 256 ∧ served (t.access (mDma 5 3) 3 (x.desc + 0x1C) (.wr (leBytes 4 (0x100 + k)))) = true) ∧
    dmaSigEn x.image = false ∧ dmaReq.event = none ∧ dmaChain x.image = false ∧ dmaChain (dmaImage 4) = true ∧ x.flush = false := by
  repeat' apply And.intro
  all_goals decide +kernel

/-- R251, R252: the first burst of that descriptor ends at the boundary 0x4000. -/
theorem test_dma_burst :
    (match exec (.dmaBurst 5 3 false) ((engine loaded dmaActive).pokeLE (at5 0x301E) 4 0xAABBCCDD) with
      | .next t => t.peekLE (at5 0x3FFE) 4 == 0xCCDD && (t.eng 5 3).byte == 32 && t.get F.dmaBytes_value [5, 3] == 32
      | _ => false) = true := by decide +kernel

/-- The premises of DmaControlAndBanks: the queue has room for one more, or has none; banks 0 and 31. -/
theorem premises_DmaControlAndBanks :
    let s := engine { queue := List.replicate 15 dmaReq } dmaStopped
    let t := engine { queue := List.replicate 16 dmaReq } dmaActive
    let h := part (·.puts [(F.spadOwner_handover, [5], 2 ^ 31), (F.spadOwner_dma, [5], 2 ^ 31)])
    (∀ k ∈ [(RegKind.dmaSubmit, [5, 3]), (.dmaControl, [5, 3]), (.spadHandover, [5])], s.regServed mHostIo (regAddr k.1 k.2) = true) ∧
    (s.dmaState 5 3 = dmaStopped ∧ t.dmaState 5 3 ≠ dmaStopped ∧ t.dmaState 5 3 ≠ dmaFaulted ∧ (s.eng 5 3).queue.length < 16 ∧
      16 ≤ (t.eng 5 3).queue.length ∧ (s.eng 5 3).loaded = false ∧ loaded.loaded = true) ∧
    (bit (h.get F.spadOwner_handover [5]) 31 = true ∧ bit (h.get F.spadOwner_dma [5]) 31 = true ∧
      (h.put F.spadOwner_dma [5] 0).bankBusy 5 31 = false ∧ h.flag F.spadParityLog_valid [5] = false) := by
  repeat' apply And.intro
  all_goals decide +kernel

/-- R247: HANDOVER of banks 0 and 31 to DMA, of which 31 already is DMA's. -/
theorem test_handover :
    (match exec (.spadHandover 5 0x80000001#32 true) (part (·.put F.spadOwner_dma [5] (2 ^ 31))) with
      | .next t => t.get F.spadOwner_handover [5] == 1 && t.get F.spadOwner_dma [5] == 2 ^ 31
      | _ => false) = true := by decide +kernel

/-- A context with an INT32 tensor of 1 × 2 in t1, whose elements are 5 and 4,095. -/
def ctxNb : Slot := { ctx with tds := [(1, imageOf (spad5 0x3000) 1 2 2 0xC 0)] }
def nbEntry (i : Instr) : UEntry := { slot := 1, seq := 0, pc := spad5 0x1000, instr := i }

/-- The premises of LoadsEnd: a user-table load, a near-bank load of two index entries, and frames. -/
theorem premises_LoadsEnd :
    let sp := nbEntry (.spld g5 3 1 1)
    let nb := nbEntry (.nbload g5 31 1 9 true 4094)
    let s := part (fun s => (s.setSlot 5 1 (some ctxNb)).modCore 5 (fun y => { y with loading := [sp], nbloads := [(31, some nb)] }))
    let lend := (part (fun s => s.puts [(F.kvControl_enable, [5], 1), (F.kvNearHead_address, [5], sliceAddr 5 0 4096), (F.kvNearFree_count, [5], 1)]))
    let pending := { lend with loans := [{ lender := 5, borrower := 63, far := false, frame := 4096 }] }.put F.kvPending_count [5] 1
    (s.slot 5 1 = some ctxNb ∧ (s.core 5).loading = [sp] ∧ s.parityHit [((ctxNb.s 1).toNat, 5152)] = none) ∧
    (tget none (s.core 5).nbloads 31 = some nb ∧ (match ctxNb.td 1 with | some d => (s.parityHit d.allRuns).isNone | none => false) = true) ∧
    (lend.coreUsable 5 = true ∧ lend.flag F.kvControl_enable [5] = true ∧
      (match kvPop 5 false lend with | .ok (_, some n) => n == sliceAddr 5 0 4096 | _ => false) = true) ∧
    (pending.loans.length = 1 ∧ 0 < pending.get F.kvPending_count [5]) := by
  repeat' apply And.intro
  all_goals decide +kernel

/-- R190: the load reaches NBRs 0 and 3 of the channel, from index entry 4,094. -/
theorem test_nbload_index :
    (match exec (.nbloadDone 5 31) ((part (fun s => (s.setSlot 5 1 (some ctxNb)).modCore 5 (fun y =>
        { y with nbloads := [(31, some (nbEntry (.nbload g5 31 1 9 true 4094)))] }))).pokeLE (at5 0x3000) 8 (4095 * 2 ^ 32 + 5)) with
      | .next t => (t.buf 5 31 0).index == [(4094, 5), (4095, 4095)] && (t.buf 5 31 3).index == [(4094, 5), (4095, 4095)] &&
          (t.buf 5 31 1).index == [] && (tget none (t.core 5).nbloads 31).isNone
      | _ => false) = true := by decide +kernel

/-- The premises of ChannelModeChanges: each present mode, and a switch whose channel is free. -/
theorem premises_ChannelModeChanges :
    let s (m g : Nat) := part (·.puts [(F.nbMode_state, [5, 31], m), (F.nbMode_target, [5, 31], g)])
    (s 0 0).regServed mHostIo (regAddr .nbMode [5, 31]) = true ∧
    (s modeMemory 0).chanMode 5 31 = modeMemory ∧ (s modeProcessor 0).chanMode 5 31 = modeProcessor ∧
    (s modeShared 0).chanMode 5 31 = modeShared ∧ (s modeSwitching modeShared).chanMode 5 31 = modeSwitching ∧
    (let t := s modeSwitching modeShared
     tget none (t.core 5).nbloads 31 = none ∧ (t.core 5).runs .nearbank = none ∧ (t.chan 5 31).holder = none ∧ t.run 5 31 = none ∧
      t.nextRun 5 31 = none ∧ t.get F.nbMode_target [5, 31] ≠ modeMemory) ∧
    (s 0 0).regServed mHostIo (seqStore 5 31 - regLocal 0) = true ∧ 2046 + [1#8, 2#8].length ≤ 2048 := by
  repeat' apply And.intro
  all_goals decide +kernel

theorem test_mode_request :
    (match exec (.nbModeReq 5 31 2) (part id) with
      | .next t => t.chanMode 5 31 == modeSwitching && t.get F.nbMode_target [5, 31] == 2 && t.get F.nbIgnored_count [5, 31] == 0
      | _ => false) = true ∧
    (match exec (.nbModeReq 5 31 2) (part (·.put F.nbMode_state [5, 31] modeProcessor)) with
      | .next t => t.chanMode 5 31 == modeProcessor && t.get F.nbIgnored_count [5, 31] == 1
      | _ => false) = true := by decide +kernel

/-- A run of channel 31 of core 5 at step 63. -/
def nbRun0 : NbRun := { start := 63, step := 63, slot := 1, seq := 0, tc := 0, event := 63 }
def running0 (r : NbRun) : State :=
  part (fun s => ((s.setSlot 5 1 (some ctx)).setRun 5 31 (some r)).put F.nbMode_state [5, 31] modeProcessor)

/-- The premises of NearBankRunProgress: a write that is served and one that fails, a step done, a pause, an end. -/
theorem premises_NearBankRunProgress :
    let s := running0 nbRun0
    (served (s.access (mNbr 5) 0 (spad5 0x3000) (.wr [1#8, 2#8])) = true ∧ fails (s.access (mNbr 5) 0 (2 * 2 ^ 44) (.wr [1#8])) 0x22 = true) ∧
    (s.run 5 31 = some nbRun0 ∧ nbRun0.code = none ∧ nbRun0.writes = [] ∧ nbRun0.read = false ∧ s.issueHalted = false ∧
      s.chanUsable 5 31 = true ∧ s.burstReady 5 31 = true ∧ (s.chan 5 31).refreshing = 0 ∧ s.nextRun 5 31 = none) ∧
    (s.nbStep 5 31 63).evEn = false ∧ (s.nbStep 5 31 63).last = false ∧ tget [] (s.core 5).evQ 63 = [] := by
  repeat' apply And.intro
  all_goals decide +kernel

/-- R203: a run that ends OK. -/
theorem test_run_end :
    (match exec (.nbRunEnd 5 31) (running0 { nbRun0 with code := some 0 }) with
      | .next t => (t.run 5 31).isNone && t.flag F.nbStatus_done [5, 31] && t.get F.nbDoneSummary_done [5] == 2 ^ 31 && t.event 5 63
      | _ => false) = true := by decide +kernel

/-- A channel held by a request whose burst has begun. -/
def holding0 (q : ChanReq) (x : Chan) : State :=
  part (fun s => s.setChan 5 31 { x with holder := some { req := q, locked := false, token := false, age := 60 } })
def req0 (off len : Nat) (wr : Option (List Byte)) : ChanReq := { requester := 0, master := mCore 5, tc := 0, off := off, len := len, wr := wr }

/-- The premises of ChannelTransfers. -/
theorem premises_ChannelTransfers :
    let s := part id
    let q := req0 0x7FFFF00 256 (some (List.replicate 256 1#8))
    let r := req0 0x7FFFF40 64 none
    let a : AddReq := { op := 0, off := 0x7FFFF80, operand := 9, master := mCore 5, tc := 0 }
    let t := holding0 { req0 0 4 none with requester := rqAtomic } { adder := [a] }
    (requesterOf 5 (mCore 5) = 0 ∧ 0x7FFFFFF / 256 = (0x7FFFFFF + 1 - 1) / 256 ∧ s.targetStatus (mCore 5) (.slice 5 31 0x7FFFFFF) 1 = 0) ∧
    ((s.chan 5 31).toBurst q.off < 60 ∧ q.off % 256 = 0 ∧ q.off + 256 ≤ 2 ^ 27 ∧ q.who = .answer ∧ q.requester ≠ rqNbr ∧ q.requester ≠ rqAtomic) ∧
    (r.off / 256 = (r.off + r.len - 1) / 256 ∧ (holding0 r {}).decodes 5 31 r.off = .good ∧ (s.chan 5 31).pend = []) ∧
    (sliceOf (selfAddr (sliceAddr 5 31 0x7FFFF80)) = some (5, 31, 0x7FFFF80) ∧ addInvalid 0 (selfAddr (sliceAddr 5 31 0x7FFFF80)) 9 0 0 = false ∧
      s.targetStatus (mCore 5) (.slice 5 31 0x7FFFF80) (addSize 0) = 0) ∧
    (t.resultHeld 5 31 a.off (addSize a.op) = false ∧ a.off % addSize a.op = 0 ∧ t.decodes 5 31 a.off = .good ∧ a.who = .nobody ∧ a.tag = 0 ∧
      (t.chan 5 31).adder = [a]) := by
  repeat' apply And.intro
  all_goals decide +kernel

/-- R272: an INT32 addition that wraps; its neighbour stays. -/
theorem test_adder :
    (match exec (.adderSequence 5 31 []) ((holding0 { req0 0 4 none with requester := rqAtomic }
        { adder := [{ op := 0, off := 0x7FFFF80, operand := 9, master := mCore 5, tc := 0 }] }).pokeLE (sliceAddr 5 31 0x7FFFF80) 5 0x1FFFFFFFA) with
      | .next t => t.peekLE (sliceAddr 5 31 0x7FFFF80) 5 == 0x100000003 && (t.chan 5 31).adder.isEmpty
      | _ => false) = true := by decide +kernel

/-- R263: a read-merge-write stores its bytes and no other. -/
theorem test_read_merge_write :
    (match exec (.readMergeWrite 5 31 []) ((holding0 (req0 0x7FFFF81 2 (some [7#8, 8#8])) {}).pokeLE (sliceAddr 5 31 0x7FFFF80) 4 0x01020304) with
      | .next t => t.peekLE (sliceAddr 5 31 0x7FFFF80) 4 == 0x01080704 && (t.chan 5 31).holder.isNone
      | _ => false) = true := by decide +kernel

/-- The premises of ArbiterEvents: an idle channel with one request, a table of free slots, registers that are served. -/
theorem premises_ArbiterEvents :
    let s := part (fun s => s.setChan 5 31 { pend := [req0 0 64 none], loaded := some [0, 0, 0, 0] })
    let s1 := (s.askBurst 5 31).askAdder 5 31
    (s.chan 5 31).holder = none ∧ s1.lanesTaken 5 31 = false ∧ s1.chanParks 5 31 = false ∧
    (match s1.pick 5 31 0 with | some p => (s1.oldestReq 5 31 p.1).isSome && p.1 == rqProc && (s1.orderOf 5 31 0 p.1).isSome | none => false) = true ∧
    (holding0 (req0 0 64 none) {}).lanesTaken 5 31 = false ∧ ((part id).chan 5 31).toBurst 0 ≤ 60 ∧
    s.regServed mHostIo (regAddr .arbLoad [5, 31]) = true := by
  repeat' apply And.intro
  all_goals decide +kernel

/-- The premises of RefreshAndScrub and LanesAndChannelsFail. -/
theorem premises_RefreshAndScrub :
    let s := part (fun s => s.puts [(F.slcStatus_owed, [5, 31], 4), (F.slcControl_align, [5], 1)])
    let t := part (fun s => s.setChan 5 31 { refreshing := 1, laneHits := [(143, 64)], uncorr := [1, 2, 3, 4, 5, 6, 7, 8, 9, 10, 11, 12, 13, 14, 15, 16] })
    (s.get F.slcStatus_owed [5, 31] ≠ 0 ∧ s.chanIdle 5 31 = true ∧ s.flag F.slcControl_align [5] = true ∧ (s.chan 5 31).holder = none ∧
      s.lanesTaken 5 31 = false ∧ s.wantsBurst 5 31 = false ∧ (part id).get F.slcStatus_owed [5, 31] = 0) ∧
    (t.chan 5 31).refreshing ≠ 0 ∧ (part (·.put F.bruStatus_phase [] phReady)).scrubReady 5 31 = true ∧ (part id).decodes 5 31 0 = .good ∧
    (s.reg .slcDeadLanesLo [5, 31] < 2 ^ 64 ∧ s.reg .slcDeadLanesMid [5, 31] < 2 ^ 64) ∧
    (0 < tget 0 (t.chan 5 31).laneHits 143 ∧ t.get F.slcThresh_laneLimit [5] ≤ 64 ∧ bit (t.deadLanes 5 31) 143 = false ∧
      usableSt (statusOf (t.ownAt (offDg 5 31 8))) = true) ∧
    (t.get F.slcThresh_uncorrLimit [5] ≤ (t.chan 5 31).uncorr.length ∧ usableSt (statusOf (t.ownAt (offChan 5 31))) = true) ∧
    (∀ k ∈ [RegKind.slcDeadLanesLo, .slcDeadLanesMid, .slcDeadLanesHi], s.regServed mHostIo (regAddr k [5, 31]) = true) := by
  repeat' apply And.intro
  all_goals decide +kernel

/-- R262: lane 143 enters the mask; its dowel group is DEGRADED with cause 5. -/
theorem test_lane_dead :
    (match exec (.laneDead 5 31 143) (part (fun s => s.setChan 5 31 { laneHits := [(143, 200000)] })) with
      | .next t => bit (t.deadLanes 5 31) 143 && t.ownAt (offDg 5 31 8) == entry stDegraded 5
      | _ => false) = true := by decide +kernel

/-! ### The premises of the statements: the host, far memory, Golfort, Bennex -/

/-- A part in service whose host link is up in CXL mode with CXL.mem, and whose decoder is committed. -/
def hosted : State :=
  { part (·.puts [(F.hifLink_up, [], 1), (F.hifLink_cxl, [], 1), (F.hifLink_memEn, [], 1), (F.hifStatus_hdmCommitted, [], 1)]) with
    hdm := some (2 ^ 40, false) }

/-- The premises of SliceViews, ChipIdentity, HostAccessesAnswered and HostLinkEvents. -/
theorem premises_host :
    let s := part id
    (s.regServed mHostIo (regAddr .glbChipId []) = true ∧ s.anyTrained = false ∧ (s.put F.gfStatus_state [7] gfUp).anyTrained = true ∧
      s.get F.glbChipId_id = 0xFFFFF ∧ (0xFFFFE * 2 ^ 44 + 5) / 2 ^ 44 ≠ 0xFFFFF) ∧
    (served (hosted.access 5 0 (selfAddr (0xC0000000000 + (2 ^ 42 - 64))) (.rd 64)) = true ∧
      served (hosted.access mHostIo 0 (selfAddr (sliceAddr 63 31 0)) (.rd 8)) = false ∧
      served (hosted.access mHostIo 0 (selfAddr (sliceAddr 0 31 0x7FFFFF8)) (.rd 8)) = true ∧
      served (hosted.access mHostIo 0 (selfAddr (sliceAddr 0 31 0x7FFFFF8)) (.wr [1#8])) = true ∧ hosted.hdmServes = true ∧
      served (hosted.access mHostMem 0 (selfAddr (64 * (2 ^ 26 - 1))) (.rd 64)) = true ∧
      served (hosted.access mHostMem 0 (selfAddr (64 * (2 ^ 26 - 1))) (.wr (leBytes 64 7))) = true ∧
      hosted.flag F.hifLink_up = true ∧ hosted.flag F.hifLink_cxl = true) ∧
    (let o := regAddr .semValue [5, 255]
     regAt o = some (.semValue, [5, 255], 0) ∧ isWindow o = false ∧ winCxl o = false ∧ o % 4 = 0 ∧ s.regServed mHostIo o = true) ∧
    (isUndefined 0x3FFFFFFFFFF = true ∧ s.dieInReset 0 = false ∧ (∀ b, hosted.hdm ≠ some (b, true))) ∧
    (hosted.bring.hperst = false ∧ hosted.power.tripped = false ∧ phBoot ≤ s.phase ∧ s.portUsable 10 = true ∧ s.flag F.hifLink_up = false) := by
  refine ⟨by decide +kernel, by decide +kernel, by decide +kernel, ⟨by decide +kernel, by decide +kernel, ?_⟩, by decide +kernel⟩
  intro b h
  cases congrArg (Option.map Prod.snd) h

/-- R30, R31: one slice offset in both views. -/
theorem test_views :
    targetOfLocal (63 * 2 ^ 32 + (2 ^ 32 - 1)) = .slice 63 31 0x7FFFFFF ∧ targetOfLocal (0x04000000000 + 63 * 2 ^ 32 + 0x2100) = .slice 63 1 0x100 ∧
    canon (0x04000000000 + 63 * 2 ^ 32 + 0x2100) = 63 * 2 ^ 32 + 2 ^ 27 + 0x100 := by decide +kernel

/-- R6: a read of an undefined address returns zero and is counted. -/
theorem test_unmapped :
    (match exec (.unmappedAccess 0x3FFFFFFFFFF (.read 1)) (part id) with
      | .next t => t.out == [.answer 0 [0#8]] && t.get F.glbUnmappedCount_count == 1
      | _ => false) = true := by decide +kernel

/-- R371: a host-window read of host memory at the window's base. -/
theorem test_host_read :
    (match exec (.hostWindowAccess 5 8 (.read 2)) { hosted with hostMem := [(8, 0x34#8), (9, 0x12#8)] } with
      | .next t => t.out.head? == some (.answer 0 [0x34#8, 0x12#8])
      | _ => false) = true := by decide +kernel

/-- Far port 1 with an open window of 256 MiB, links up. -/
def fared (x : FarPort) : State :=
  part (fun s => { (s.puts [(F.fpStatus_phase, [1], 5), (F.fpCapacity_bytes, [1], 2 ^ 28), (F.bxRoute_linkUp, [], 15)]) with far := [(1, x)] })

/-- The premises of FarPortEvents: an access at the window's last line, one beyond it, and requests that wait. -/
theorem premises_FarPortEvents :
    let s := fared { gen := 1 }
    let r : FarReq := { master := 5, off := 2 ^ 28 - 64, len := 64, issued := true }
    (s.targetStatus (mCore 5) (.far 1 (2 ^ 28 - 64)) 64 = 0 ∧ (2 ^ 28 - 64) / 64 = (2 ^ 28 - 64 + 64 - 1) / 64 ∧
      s.targetStatus (mCore 5) (.far 1 (2 ^ 28)) 64 ≠ 0) ∧
    ((fared { queue := [r] }).targetStatus (mCore 5) (.far 1 (2 ^ 28 - 64)) 64 = 0 ∧ r.off / 64 = (2 ^ 28 - 64) / 64) ∧
    ((fared { queue := [r] }).farPort 1 = { queue := [r] } ∧ r.off + 256 ≤ 2 ^ 42 ∧ (BitVec.ofNat 36 (2 ^ 22 - 1)).toNat = r.off / 64 ∧
      (fared { queue := [r] }).farPoisoned 1 r.off r.len = false) ∧
    (fared { queue := [r, { r with issued := false }] }).farPort 1 = { queue := r :: [{ r with issued := false }] } ∧
    (statusOf (s.ownAt (offPort 9)) ∉ [stFused, stFailed, stRetired] ∧ (s.farPort 1).kept = none ∧ s.get F.fpStatus_phase [1] = 5) ∧
    s.regServed mHostIo (regAddr .fpControl [1]) = true := by
  repeat' apply And.intro
  all_goals decide +kernel

/-- R301, R302: a write of one byte leaves as MemWrPtl; the device's response stores it. -/
theorem test_far_write :
    (match exec (.farWindowAccess 1 5 64 (.write [9#8])) (fared {}) with
      | .next t => t.out == [.cxlMem 1 2 1] && (match exec (.farResponse 1 1 false) t with
          | .next u => u.peek (farBase 1 + 64) == 9#8 && (u.farPort 1).queue.isEmpty
          | _ => false)
      | _ => false) = true := by decide +kernel

/-- R302: a second request to a line leaves when the first has completed. -/
theorem test_far_line_order :
    (match exec (.farWindowAccess 1 5 64 (.write [9#8])) (fared {}) with
      | .next t => (match exec (.farWindowAccess 1 6 65 (.read 1)) t with
          | .next u => u.out == [.cxlMem 1 2 1] && (match exec (.farResponse 1 1 false) u with
              | .next v => v.out == [.cxlMem 1 0 1, .cxlMem 1 2 1]
              | _ => false)
          | _ => false)
      | _ => false) = true := by decide +kernel

/-- A Golfort port 7 that is up, with biscuits; the chip is 1, and chip 2 lies behind port 0. -/
def ported (x : GfPort) : State := { (routed.puts [(F.gfStatus_state, [7], gfUp), (F.bxRoute_linkUp, [], 15)]) with gf := [(7, x)] }
def flit0 (dst seq : Nat) : Flit :=
  { vc := 3, dclass := 1, tc := 5, seq := seq, dst := dst, src := 2, hops := 1, units := 1, age := 4, payload := List.replicate 232 7#8 }

/-- The premises of FlitsOnPorts: flits in order, out of order and damaged; a full row of NAKs; a flit for another chip. -/
theorem premises_FlitsOnPorts :
    let s := ported {}
    let w := ported { rx := [flit0 2 0] }
    (s.power.tripped = false ∧ s.gfState 7 = gfUp ∧ (Flit.decode (flit0 2 0).encode).map (fun f => (f.dst, f.seq, f.vc, f.hops)) = some (2, 0, 3, 1) ∧
      (s.gfPort 7).rxSeq = 0 ∧ s.get F.glbChipId_id = 1) ∧
    (leOf ((List.replicate 256 1#8).drop 248) ≠ crc64 ((List.replicate 256 1#8).take 248)) ∧
    ((ported { naks := 7, nakSeq := 4095 }).gfPort 7).naks = 7 ∧
    (w.oldestRx 7 (pool 3 1) = some (flit0 2 0) ∧ w.route 2 = some (0, false) ∧ w.route 5 = none ∧ (flit0 2 0).hops ≠ 0 ∧
      ((flit0 2 0).leaving false 0 true).age ≤ w.maxAge ∧ w.dieReach 3 0 = 0 ∧ w.dieHolds 3 0 = false ∧ (w.setAvail 0 7 1).canSend 0 ((flit0 2 0).leaving false 0 true) = true) := by
  repeat' apply And.intro
  all_goals decide +kernel

/-- R311: a flit in order waits in its buffer; R312: one out of order begins the discard. -/
theorem test_data_flit :
    (match exec (.dataFlit 7 (flit0 2 0).encode) (ported {}) with
      | .next t => (t.gfPort 7).rxSeq == 1 && ((t.gfPort 7).rx.map Flit.dst) == [2]
      | _ => false) = true ∧
    (match exec (.dataFlit 7 (flit0 2 3).encode) (ported {}) with
      | .next t => (t.gfPort 7).rxSeq == 0 && (t.gfPort 7).discarding
      | _ => false) = true := by decide +kernel

/-- The premises of PeerMessagesAndRoutes. -/
theorem premises_PeerMessagesAndRoutes :
    let x (w : Bool) : Txn := { tag := 65535, dst := 2, die := 0, tc := 0, master := 5, write := w, addr := 2 * 2 ^ 44, who := .answer }
    let s := { routed with txns := [x false] }
    served (routed.access mPeer 0 (selfAddr (sliceAddr 0 0 0)) (.rd 256)) = true ∧
    served (routed.access mPeer 0 (selfAddr (sliceAddr 0 0 0)) (.wr [1#8])) = true ∧
    (sliceOf (selfAddr (sliceAddr 0 31 16)) = some (0, 31, 16) ∧ routed.targetStatus mPeer (.slice 0 31 16) (addSize 4) = 0 ∧
      addInvalid 4 (selfAddr (sliceAddr 0 31 16)) 9 0 0 = false) ∧
    s.txns.find? (fun y => y.tag == (65535#16).toNat) = some (x false) ∧ routed.gfState 0 = gfUp ∧
    routed.regServed mHostIo (regAddr .gfRouteLocal [1023]) = true := by
  repeat' apply And.intro
  all_goals decide +kernel

/-- The premises of GolfortPortStates: each state that an event starts from. -/
theorem premises_GolfortPortStates :
    let s (v : Nat) := part (·.puts [(F.gfStatus_state, [7], v), (F.gfStatus_width, [7], 8), (F.bxRoute_linkUp, [], 15)])
    (s gfUp).regServed mHostIo (regAddr .gfControl [7]) = true ∧ (s gfDisabled).gfState 7 = gfDisabled ∧
    ((s gfDisabled).phase ≠ phHalted ∧ (let h := (s gfDisabled).put F.bruStatus_phase [] 10
      h.phase = phHalted ∧ h.gfState 7 = gfDisabled ∧ h.regServed mHostIo (regAddr .gfControl [7]) = true)) ∧ (s gfUp).gfState 7 = gfUp ∧
    ((s gfSeeking).gfState 7 = gfSeeking ∧ (s gfSeeking).commonVersion 7 3 ≠ 0) ∧ (s gfTraining).gfState 7 = gfTraining ∧
    ((s gfQualifying).gfState 7 = gfQualifying ∧ (s gfQualifying).get F.gfStatus_width [7] = 8 ∧ ((s gfQualifying).gfPort 7).queue = []) ∧
    (s gfRetraining).gfState 7 = gfRetraining ∧ gfTraining ≤ gfRetraining ∧ (s gfUp).gfTrained 7 = true ∧
    ({ s gfTraining with gf := [(7, { attempts := 2 })] } : State).gfPort 7 = { attempts := 2 } := by
  repeat' apply And.intro
  all_goals decide +kernel

/-- Link X3 with both ends in a state. -/
def linked (v : Nat) : State := part (·.puts [(F.bxStatus_state, [3, 0], v), (F.bxStatus_state, [3, 1], v), (F.bxRoute_linkUp, [], if v = bxUp then 15 else 7)])

/-- The premises of BennexLinks; that both dies have the live spare rests on their fuses, which the model leaves open. -/
theorem premises_BennexLinks :
    let s := linked bxUp
    (s.power.tripped = false ∧ s.bxState 3 1 = bxUp ∧ (s.bxEnd 3 1).rxSeq = 0 ∧ s.regServed mHostIo (regAddr .bxControl [3, 1]) = true) ∧
    ((linked bxRetraining).bxState 3 1 = bxRetraining ∧ (linked bxRetraining).bxState 3 1 ≠ bxUp ∧ (linked bxRetraining).bxState 3 1 ≠ bxFailed ∧
      ((linked bxRetraining).bxEnd 3 1).reported = none ∧ (linked bxRetraining).get F.bxCapRunning_word [0] = 0 ∧
      max 1 (min 16 (s.get F.bxControl_minModules [3, 1])) ≤ popcount 0xFFFF 16 ∧ popcount 0 16 < max 1 (min 16 (s.get F.bxControl_minModules [3, 1])) ∧
      capAdmits 1 0 2 0 = false) ∧
    (usableSt (statusOf (s.ownAt (offLane 3 15 67))) = true ∧ 64 < (s.usableLanes 3 15).length ∧
      (((List.range 4).foldl (fun t l => t.setOwn (offLane 3 15 l) (entry stFailed 6)) s).usableLanes 3 15).length ≤ 64) ∧
    s.dieUsable 3 = true := by
  repeat' apply And.intro
  all_goals decide +kernel

/-- R359: RETRAIN takes both ends; the link no longer is up. -/
theorem test_bx_retrain :
    (match exec (.bxRetrain (3, 1)) (linked bxUp) with
      | .next t => t.bxState 3 0 == bxRetraining && t.bxState 3 1 == bxRetraining && t.get F.bxRoute_linkUp == 7 &&
          t.get F.bxRetrains_count [3, 0] == 1 && t.get F.bxRetrains_count [3, 1] == 1
      | _ => false) = true := by decide +kernel

/-! ### The premises of the statements: the Cadence, groups and collectives -/

/-- The premises of CadenceCounter: every state of the counter, rows of ticks at their bounds, and a word that names a count. -/
theorem premises_CadenceCounter :
    let s (v n : Nat) : State := { part (fun s => s.puts [(F.cadStatus_state, [], v), (F.gfStatus_state, [7], gfUp), (F.gfRtt_ns, [7], 100)]) with
      cad := { inRow := n } }
    let w : CadWord := { count := 99#64, phase := 400, ownPhase := 450, agreed := true }
    (s cadFree 63).dieInReset 0 = false ∧ (s cadFree 63).cadState = cadFree ∧ (s cadAcquiring 999).cadState = cadAcquiring ∧
    (s cadLocked 0).cadState = cadLocked ∧ (s cadHoldover 15).cadState = cadHoldover ∧ (s cadFree 63).cad.inRow + 1 = 64 ∧
    (s cadFree 63).groups = [] ∧ (s cadFree 0).regServed mHostIo (regAddr .cadCtl []) = true ∧
    wordCount w ((s cadLocked 0).get F.gfRtt_ns [7]) = some 99 ∧ (s cadLocked 0).gfState 7 = gfUp ∧
    (s cadLocked 0).flag F.cadStatus_agreed = false ∧ (s cadLocked 0).flag F.cadCtl_root = false ∧ 99 ≠ (s cadLocked 0).get F.cadCount_count := by
  repeat' apply And.intro
  all_goals decide +kernel

/-- R332: the 64th tick in a row takes FREE to ACQUIRING; R336: the root's first edge in LOCKED takes CAD_SET. -/
theorem test_tick :
    (match exec (.cadenceTick (-2)) { part id with cad := { inRow := 63 } } with
      | .next t => t.cadState == cadAcquiring && t.cad.inRow == 0
      | _ => false) = true ∧
    (match exec (.cadenceTick 3) { part id with cad := { inRow := 63 } } with
      | .next t => t.cadState == cadFree && t.cad.inRow == 0
      | _ => false) = true ∧
    (match exec (.cadenceTick 0) (part (·.puts [(F.cadStatus_state, [], cadLocked), (F.cadCtl_root, [], 1), (F.cadSet_count, [], 77)])) with
      | .next t => t.get F.cadCount_count == 77 && t.flag F.cadStatus_agreed
      | _ => false) = true := by decide +kernel

/-- Group 9, entry 5 of the engine of D1 of chip 1, with chips 1, 2 and 4: member 0 here, or member 1 where `lead` is false. -/
def group0 : Group := { addr := spad5 0x3000, spares := 0, members := [1, 2, 4], formTick := 50, anchor := 0, hops := 6, sigAddr := 0 }
def grouped (st : Nat) (lead : Bool) (x : Group) : State :=
  { routed.puts [(F.collEntry_state, [1, 5], st), (F.collEntry_group, [1, 5], 9), (F.collEntry_n, [1, 5], 3), (F.collEntry_index, [1, 5], if lead then 0 else 1),
      (F.collEntry_leader, [1, 5], if lead then 1 else 0), (F.cadCount_count, [], 50), (F.cadStatus_state, [], cadLocked)] with
    groups := [(69, some x)] }

/-- The premises of GroupFormation. -/
theorem premises_GroupFormation :
    (∀ st ∈ [grForming, grFormed, grRunning, grReforming], ∀ lead ∈ [true, false],
      (match (grouped st lead group0).findGroup 9 with | some (1, 5, x) => decide (x = group0) | _ => false) = true ∧
      tget none (grouped st lead group0).groups (64 * 1 + 5) = some group0 ∧ (grouped st lead group0).groupState 1 5 = st ∧
      (grouped st lead group0).isLeader 1 5 = lead) ∧
    ((0 : Nat) ∉ group0.forms ∧ 2 < group0.members.length ∧ group0.lost = none ∧ group0.sigAddr = 0 ∧ group0.run = none ∧
      (∃ k < 3, k ∉ nsIns group0.forms 2) ∧ ∀ k < 3, k ∈ nsIns [0, 1] 2) ∧
    ((grouped grForming true group0).groupN 1 5 = 3 ∧ (grouped grForming true group0).groupIndex 1 5 = 0 ∧
      group0.formTick ≤ (grouped grForming true group0).get F.cadCount_count) ∧
    ringPrev 3 0 = 2 ∧ group0.missed + 1 < 3 ∧ (grouped grFormed true group0).words.contains (3, 9, 2) = false := by
  repeat' apply And.intro
  all_goals decide +kernel

/-- R339: FORM of the last member, with the leader's own and member 1's noted: the group is FORMED. -/
theorem test_form_last :
    (match exec (.form 9 2 3 0 0 (BitVec.ofNat 32 (tableCrc [1, 2, 4])) 1500) (grouped grForming true { group0 with forms := [0, 1] }) with
      | .next t => t.groupState 1 5 == grFormed && (match tget none t.groups 69 with | some x => x.h == 5 && x.forms == [] | none => false)
      | _ => false) = true := by decide +kernel

/-- A collective of the group: ALLREDUCE of 66 INT32 elements from offset 0x3000 to offset 0x4000 of a scratchpad of D1, starting at tick 10. -/
def run0 (op phase : Nat) : CollRun :=
  { core := 16, slot := 1, seq := 0, event := some 63, addr := spad5 0x3000, op := op, wsf := false, tc := 0, slipStep := 2, root := 0
    srcImage := (imageOf (spad5 (11 * 2 ^ 24 + 0x3000)) 1 66 66 0xC 0).toNat, dstImage := (imageOf (spad5 (11 * 2 ^ 24 + 0x4000)) 1 66 66 0xC 0).toNat
    start := 10, phaseTicks := 10, maxSlip := 4, sigAddr := 0, phase := phase, ticks := (List.range phase).map (fun k => 10 + 10 * k) |>.reverse }
def runs0 (r : CollRun) : State := grouped grRunning true { group0 with run := some r }

/-- The premises of CollectivePhases. -/
theorem premises_CollectivePhases :
    let r := run0 opAllreduce 0
    let s := runs0 r
    (match s.findGroup 9 with | some (1, 5, x) => decide (x.run = some r) | _ => false) = true ∧ s.groupState 1 5 = grRunning ∧
    (0 < phasesOf opAllreduce 3 ∧ r.nextTick ≤ s.get F.cadCount_count ∧ s.clampHolds = false ∧ s.route 2 ≠ none ∧ ringNext 3 0 = 1) ∧
    (sendsChunk opAllreduce 3 0 0 = some (2, true) ∧ chunkSpan r.elems 3 2 = (64, 66) ∧ r.src.isSome = true ∧ r.dst.isSome = true) ∧
    (match r.src with | some q => decide ((s.collReads (mColl 1) 0 q 64 66).2.1 = .done ∧ (s.collRead (mColl 1) 0 q 32).2.1 = .done) | none => false) = true ∧
    (sendsChunk opAllreduce 3 0 2 = some (0, false)) ∧ partDone (run0 opBarrier 0) 3 0 0 = false ∧
    (expects opAllreduce 3 0 0 0 66 = (32, 64) ∧ gotKey 0 32 ∉ r.got) ∧ ringPrev 3 0 = 2 ∧
    ((run0 opAllreduce 1).ticks.all (fun k => decide (k < (run0 opAllreduce 1).nextTick)) = true ∧ r.slips + r.slipStep ≤ r.maxSlip ∧
      partDone (run0 opAllreduce 1) 3 0 0 = false ∧ (run0 opAllreduce 4).nextTick ≤ s.get F.cadCount_count + 2) ∧
    (phasesOf opBarrier 3 ≤ 2 ∧ partDone (run0 opBarrier 2) 3 0 1 = true) := by
  repeat' apply And.intro
  all_goals decide +kernel

/-- R343: phase 0 of member 0: chunk 2, its last two elements, as its own terms, to chip 2. -/
theorem test_phase_start :
    (match exec (.phaseStart 9) ((runs0 (run0 opAllreduce 0)).pokeLE (at5 (11 * 2 ^ 24 + 0x3000 + 256)) 8 (7 + 5 * 2 ^ 32)) with
      | .next t => (match t.out.head? with | some (.coll 2 0 9 0 0 0 first es) => first == 0 && es.map Prod.fst == [7, 5] | _ => false) &&
          t.get F.collEntryTick_next [1, 5] == 20
      | _ => false) = true := by decide +kernel

/-! ### The premises of the statements: temperature, power, start-up, mailbox, audit -/

/-- Every hot spot at a fused value, and SEC_STATUS without what the fuses hold: what these registers read at reset is the part's own. -/
def spots (v : Nat) (s : State) : State :=
  (List.range 80).foldl (fun s k => { s with regs := tput s.regs (regAddr .thHotspot [k / 20, k % 20]) (v * 2 ^ F.thHotspot_fused.lo) }) s
def unsecured (s : State) : State := { s with regs := tput s.regs (regAddr .secStatus []) 0 }

/-- The premises of ThermalControl: readings on both sides of each bound, a hot die with a collective, 105 °C. -/
theorem premises_ThermalControl :
    let s := part (fun s => { (spots 840 s).puts [(F.thClamp_theta, [3, 15], 63)] with
      power := { substituted := [(79, 10000)], hot := [(3, 10)], allowed := 22000, layerPred := [(255, 800)] }
      groups := [(5, some { group0 with run := some (run0 opAllreduce 0) })] })
    10000 ≤ tget 0 s.power.substituted (20 * 3 + 19) ∧ s.runs ≠ [] ∧ s.overheats 3 = true ∧ 10 ≤ tget 0 s.power.hot 3 ∧
    s.get F.thStatus_stage [3] < 2 ∧ 840 ≤ s.get F.thHotspot_fused [3, 19] ∧ (s.runs.all (fun r => decide (r.tc < 8))) = true ∧
    (gap 400 432 = 32 ∧ gap 400 433 = 33 ∧ gap 65 0 = 65) := by
  repeat' apply And.intro
  all_goals decide +kernel

/-- A valid coolant report: SEQ 7, inlet 17.00 °C, outlet 20.00 °C, the flow given. -/
def report (flow : Nat) : List Byte :=
  let b := leBytes 2 7 ++ leBytes 2 1700 ++ leBytes 2 2000 ++ leBytes 2 flow ++ [0#8, 0#8, 0#8]
  b ++ leBytes 1 (crc8 b)

/-- The premises of PowerAndCoolant: the least flow at 17 °C is 2,000 mL/min. -/
theorem premises_PowerAndCoolant :
    let s := part (fun s => { (spots 300 s).puts [(F.pwrMeasured_dP, [], 64), (F.pwrMeasured_pW, [], 1000)] with power := { allowed := 9000, inService := true } })
    (s.i3cAnswers = true ∧ (report 2000).length = 12 ∧ crc8 ((report 2000).take 11) = bits (leOf (report 2000)) 88 8 ∧
      s.power.seq ≠ some (bits (leOf (report 2000)) 0 16) ∧ bits (leOf (report 2000)) 65 7 = 0 ∧ bits (leOf (report 2000)) 72 16 = 0 ∧
      ¬ (23 * (2000 : Nat) : Int) < 46000 + 10 * ((BitVec.ofNat 16 1700).toInt - 1700) ∧
      (23 * (1999 : Nat) : Int) < 46000 + 10 * ((BitVec.ofNat 16 1700).toInt - 1700)) ∧
    (s.issueHalted = false ∧ s.power.sag = false ∧ s.avsHold = false ∧ 0 < s.get F.pwrMeasured_dP ∧ s.power.ride = false ∧ s.power.stopped = false ∧
      s.power.inService = true ∧ State.reset.power.inService = false ∧ s.phase ≠ phPower) ∧
    (∀ d < 4, ∀ i < 20, s.get F.thHotspot_fused [d, i] ≤ s.get F.thHotspot_fused [0, 0]) ∧ (∀ d < 4, s.flag F.thStatus_trip [d] = false) := by
  repeat' apply And.intro
  all_goals decide +kernel

/-- R404: a flow below the least begins a coolant stop; the least itself does not. -/
theorem test_coolant :
    (match exec (.coolantReport (report 1999)) (part id) with
      | .next t => t.power.stopped && t.issueHalted && t.get F.pwrStopCount_count == 1 | _ => false) = true ∧
    (match exec (.coolantReport (report 2000)) (part id) with
      | .next t => !t.power.stopped && t.get F.pwrCoolant_flow == 2000 && t.power.seq == some 7 | _ => false) = true := by decide +kernel

/-- R471: the lowest voltage, and an acknowledgement missed. -/
theorem test_voltage :
    (match exec (.voltageSet 650) (part id) with
      | .next t => t.vddCore == 650 && t.out == [.avs 650] | _ => false) = true ∧
    (match exec .avsTimeout (part (fun s => { s with power := { allowed := 22000 } })) with
      | .next t => t.power.allowed == 12000 && t.avsHold | _ => false) = true := by decide +kernel

/-- A start in a phase. -/
def starting (p : Nat) : State := State.reset.put F.bruStatus_phase [] p
def erased : Sec := { slots := [(0, { erased := true }), (1, { erased := true })] }

/-- The premises of StartPhases but for an image that passes its checks (test_image_passes). -/
theorem premises_StartPhases :
    ((unsecured State.reset).phase = phPower ∧ State.reset.power.tripped = false ∧ State.reset.bring.pwrgood = true ∧ State.reset.bring.aux = true) ∧
    (starting phClocks).phase = phClocks ∧ (starting phBoot).phase = phBoot ∧ (starting phSelfTest).phase = phSelfTest ∧
    (let s : State := { unsecured (starting phClocks) with sec := erased, bring := { fuses := true } }
     s.imageCheck s.firstSlot ≠ none ∧ s.imageCheck (1 - s.firstSlot) ≠ none ∧ s.flag F.secStatus_verified = false ∧ s.bring.fuses = true) ∧
    ((starting phBennex).judged (offChan 63 31) = true ∧ (starting phBennex).dieUsable 3 = true ∧
      ({ starting phBennex with bring := { header := false } } : State).bring.header = false ∧ (starting phBennex).reg .slcDeadLanesLo [63, 31] < 2 ^ 64) ∧
    ((starting phDram).warmStart = false ∧ stepCode true 3 6 ∉ (starting phDram).bring.steps ∧ (starting phDram).bring.steps.length + 1 < retentionSteps) ∧
    (({ starting phRetention with bring := { steps := List.range 72 } } : State).bring.steps.length = retentionSteps) ∧
    ((starting phLinks).phase = phLinks ∧ (starting phLinks).warmStart = false ∧
      (let w := (starting phLinks).put F.bruStatus_start [] 1; w.phase = phLinks ∧ w.warmStart = true) ∧ ((starting phDram).put F.bruStatus_start [] 1).warmStart = true) ∧
    (let s := ({ starting phMap with bring := { mapDone := true } } : State).puts [(F.fpStatus_phase, [0], 5), (F.fpStatus_phase, [1], 2)]
     let t := s.put F.bxRoute_linkUp [] 15
     s.phase = phMap ∧ s.bring.mapDone = true ∧ (∀ p < 8, s.gfState p ≠ gfTraining ∧ s.gfState p ≠ gfQualifying) ∧ s.dieUsable 0 = true ∧
     (∀ f < 2, s.judged (offPort (8 + f)) = true → s.dieUsable (farDie f) = true → s.get F.fpStatus_phase [f] ≠ 0) ∧
     (∀ d ∈ [1, 2, 3], t.dieUsable d = true → t.linkUp d = true ∨ t.linkUp (d - 1) = true) ∧
     ¬ (∀ d ∈ [1, 2, 3], s.dieUsable d = true → s.linkUp d = true ∨ s.linkUp (d - 1) = true) ∧
     max 1 (min 64 (t.get F.bruReadyMin_cores)) ≤ t.usableCores ∧
     ((List.range 3).foldl (fun s d => s.setOwn (offDie d) (entry stFailed 1)) t).dieUsable 0 = false ∧
     ((List.range 64).foldl (fun s c => s.setOwn (offCore c) (entry stFailed 3)) t).usableCores = 0) := by
  repeat' apply And.intro
  all_goals decide +kernel

/-- An image of header fields alone passes where the firmware's key and signature do. -/
theorem test_image_passes (hk : ∀ l, Config.shake256 32 l = Config.keyDigest 0) (hs : ∀ a b c, Config.signatureOk a b c = true) :
    (unsecured { starting phClocks with sec := { slots := [(0, { erased := false, bytes :=
        ((leBytes 4 0x4D4C4657 ++ leBytes 2 1 ++ [0#8, 0#8] ++ leBytes 4 0 ++ List.replicate 52 0#8).zipIdx.map (fun p => (p.2, some p.1))) })] } }).imageCheck 0 = none := by
  unfold State.imageCheck
  rw [if_neg (by decide +kernel), if_neg (by decide +kernel),
    if_neg (fun h => h ((hk _).trans (congrArg Config.keyDigest (by decide +kernel)))), if_neg (by decide +kernel), hs]
  rfl

/-- R436: PWRGOOD and PKG_RESET_N high begin a start. -/
theorem test_start :
    (match exec (.pkgReset true) State.reset with | .next t => t.phase == phClocks && t.bring.pkgHigh | _ => false) = true := by decide +kernel

/-- A core fault's Jig on core 63. -/
def jigged (why : JigWhy) (saved : Bool) (s : State) : State :=
  { s with bring := { s.bring with jig := [{ unit := offCore 63, why := why, saved := saved }] }, mapSaved := [(offCore 63, some 1#8)] }

/-- The premises of PartialResetsAndJig. -/
theorem premises_PartialResetsAndJig :
    let s := part (·.put F.bxRoute_linkUp [] 15)
    let r := part (·.put F.bruDieReset_active [] 9)
    let f := jigged .fault false s
    (s.dieInReset 3 = false ∧ s.dieUsable 3 = true ∧ s.regServed mHostIo (regAddr .bruDieReset []) = true ∧
      9 ≤ tget 0 ({ s with bring := { jigFails := [(3, 9)] } } : State).bring.jigFails 3) ∧
    (r.dieInReset 3 = true ∧ r.dieInReset 0 = true ∧ (jigged .fault true r).mapSaved = [(offCore (16 * 3 + 15), some 1#8)] ∧
      usableSt (statusOf 1#8) = true) ∧
    (f.jigOf (offCore 63) = some { unit := offCore 63, why := .fault, saved := false } ∧ f.saveComplete 63 = true ∧
      (f.setOwn (offChan 63 31) (entry stFailed 5)).saveComplete 63 = false) ∧
    ((jigged .fault true s).jigOf (offCore 63) = some { unit := offCore 63, why := .fault, saved := true } ∧
      tget none (jigged .fault true s).mapSaved (offCore 63) = some 1#8) ∧
    (opJig = opJig ∨ opJig = opRetire) ∧ s.jigOf (offCore 63) = none := by
  repeat' apply And.intro
  all_goals decide +kernel

/-- R444: a scan that passes restores the core's entry; one that fails leaves it FAILED with cause 3. -/
theorem test_jig :
    (match exec (.jigComplete (BitVec.ofNat 16 (offCore 63)) []) (jigged .fault true (part id)) with
      | .next t => t.ownAt (offCore 63) == 1#8 && (t.jigOf (offCore 63)).isNone && t.get F.jigStatus_result == 1
      | _ => false) = true ∧
    (match exec (.jigComplete (BitVec.ofNat 16 (offCore 63)) [(0, 9)]) (jigged .fault true (part id)) with
      | .next t => t.ownAt (offCore 63) == entry stFailed 3 && t.get F.jigStatus_index == 9
      | _ => false) = true := by decide +kernel

/-- A mailbox that is ready, as firmware of minor version 2 presents it, with an update of 16 bytes begun in slot B. -/
def mailed : State :=
  part (fun s => { s.puts [(F.mbStatus_ready, [], 1)] with
    regs := tput (tput (s.puts [(F.mbStatus_ready, [], 1), (F.bruStatus_phase, [], phReady)]).regs (regAddr .mbAbi []) 0x102) (regAddr .secStatus []) 0
    sec := { slots := [(1, { erased := true })], total := some 16 } })
def mailHead (n : Nat) : MbHead := { major := BitVec.ofNat 8 (mailed.get F.mbAbi_major), minor := 0, seq := 7, length := BitVec.ofNat 32 n }

/-- The premises of MailboxRequests but for an image that passes its checks: a request of a version and length that fit. -/
theorem premises_MailboxRequests :
    let s := mailed
    s.regServed mHostIo (regAddr .mbDoorbell []) = true ∧ s.flag F.mbStatus_ready = true ∧ s.flag F.mbStatus_busy = false ∧
    (part (fun s => { s with regs := tput s.regs (regAddr .mbAbi []) 0x102 })).flag F.mbStatus_ready = false ∧
    ((mailHead 65535).major.toNat = s.get F.mbAbi_major ∧ (mailHead 65535).length.toNat = 65535 ∧ (mailHead 65535).reserved = 0#32) ∧
    (1 ≤ s.get F.mbAbi_minor ∧ 2 ≤ s.get F.mbAbi_minor ∧ (900#32).toNat ≤ s.get F.pwrCap_w ∧ s.flag F.secStatus_locked = false) ∧
    (s.sec.total = some 16 ∧ 8 + [1#8, 2#8, 3#8, 4#8, 5#8, 6#8, 7#8, 8#8].length ≤ 16 ∧ 16 ≤ trailerOff) ∧
    (s.imageCheck (1 - s.get F.secStatus_slot) = some 1 ∧ (1 : Nat) ≠ s.get F.secStatus_keyIndex ∧ 0 = s.get F.secStatus_keyIndex) ∧
    (s.ancestorsOk (offCore 15) = true ∧ s.regionFree (offCore 15) = true ∧ statusOf (s.shownAt (offCore 15)) ≤ 1 ∧ s.bring.jig = []) ∧
    (statusOf ((s.setOwn (offCore 15) (entry stRetired 7)).shownAt (offCore 15)) = stRetired ∧
      statusOf ((s.setOwn (offCore 15) (entry stFailed 3)).shownAt (offCore 15)) = stFailed) := by
  repeat' apply And.intro
  all_goals decide +kernel

/-- R388, R408: SET_STAGGER of a period of 4 and an offset of 3; one of 5 is not a power of two. -/
theorem test_stagger :
    (match exec (.setStagger (mailHead 8) (leBytes 4 4 ++ leBytes 4 3)) mailed with
      | .next t => t.get F.pwrStagger_period == 4 && t.get F.pwrStagger_offset == 3 && t.flag F.mbStatus_done && t.peekLE (mbRespAddr + 2) 2 == 0
      | _ => false) = true ∧
    (match exec (.setStagger (mailHead 8) (leBytes 4 5 ++ leBytes 4 3)) mailed with
      | .next t => t.get F.pwrStagger_offset == mailed.get F.pwrStagger_offset && t.peekLE (mbRespAddr + 2) 2 == 4
      | _ => false) = true := by decide +kernel

/-- R459: eight bytes of an image at offset 8. -/
theorem test_fw_data :
    (match exec (.fwData (mailHead 16) (leBytes 4 8 ++ [1#8, 2#8, 3#8, 4#8, 5#8, 6#8, 7#8, 8#8])) mailed with
      | .next t => t.flash 1 8 == 1#8 && t.flash 1 15 == 8#8 && t.flash 1 7 == 0xFF#8 && t.flash 1 16 == 0xFF#8
      | _ => false) = true := by decide +kernel

/-- The premises of ConservationAndAudit. -/
theorem premises_ConservationAndAudit :
    let m : ConsMsg := { num := 0, chip := 1, addr := 2 ^ 44 + 0x0C000000000 + regAddr .semSignal [63, 255], n := 5 }
    let s := routed.setCons 0 { buffer := [m], sent := 1 }
    let t := s.put F.bxRoute_linkUp [] 15
    ((s.consOf 0).buffer = [m] ∧ m.chip = s.get F.glbChipId_id ∧ s.target m.addr = .reg (regAddr .semSignal [63, 255]) ∧
      semAt (regAddr .semSignal [63, 255]) = some (63, 255) ∧ t.dieTakes 0 3 = true ∧ s.dieTakes 0 3 = false) ∧
    (s.unreached 0 1 ≠ [] ∧ (part (·.put F.bruDieReset_active [] 1)).dieInReset 0 = true) ∧
    (routed.gfState 0 = gfUp ∧ (linked bxUp).bxState 3 1 = bxUp ∧ routed.regServed mHostIo (regAddr .audControl []) = true ∧
      (part (·.put F.audStatus_running [] 1)).flag F.audStatus_running = true) ∧
    (routed.dieInReset 3 = false ∧ routed.loans = [] ∧ routed.gotFrames = [] ∧ (∀ a < 4, (routed.consOf a).buffer = []) ∧
      (unsecured routed).flag F.secStatus_testOpen = false ∧
      ({ routed with regs := tput routed.regs (regAddr .secStatus []) 8 } : State).flag F.secStatus_testOpen = true) := by
  repeat' apply And.intro
  all_goals decide +kernel

/-- R424: the resent message is performed at its semaphore and acknowledged. -/
theorem test_cons_resend :
    (match exec (.consResend 0) ((routed.setCons 0 { buffer := [{ num := 0, chip := 1, addr := 2 ^ 44 + 0x0C000000000 + regAddr .semSignal [15, 255], n := 5 }] })) with
      | .next t => t.get F.semValue_value [15, 255] == 5 && (t.consOf 0).buffer.isEmpty && (t.consOf 0).acked == 1
      | _ => false) = true := by decide +kernel

/-! ### The whole machine -/

/-- The premises of StepRunsFrontCommand, StepKeepsStorageCanonical and DecodingDropsNoBit. -/
theorem premises_whole :
    (State.reset.pending = [] ∧ ({ State.reset with mem := [(1, 2#8), (5, 1#8)] } : State).canonical = true ∧
      ({ State.reset with mem := [(5, 2#8), (1, 1#8)] } : State).canonical = false ∧ ({ State.reset with mem := [(1, 0#8)] } : State).canonical = false) ∧
    (bits (word 0x18 0 [(19, 1)]) 0 6 ∉ [0x03, 0x1C, 0x30] ∧ word 0x18 0 [(37, 1)] < 2 ^ 64) := by decide +kernel

theorem test_step :
    step State.reset = .next State.reset ∧
    step { State.reset with pending := [.hperst true, .hperst false] } = exec (.hperst true) { State.reset with pending := [.hperst false] } := ⟨rfl, rfl⟩

/-- R4, R22, R27, R89, R253, R323, R332, R368: reset values. -/
theorem test_reset :
    let s := State.reset
    s.canonical = true ∧ s.qState 4095 = qDisabled ∧ s.dmaState 63 3 = dmaIdle ∧ s.gfState 7 = gfDisabled ∧ s.cadState = cadFree ∧
    s.flag F.cadStatus_agreed = false ∧ s.bxState 3 1 = bxDown ∧ s.flag F.mqStatus_building = true ∧ s.get F.mqGeneration_generation = 1 ∧
    s.get F.glbChipId_id = 0xFFFFF ∧ s.phase = phPower ∧ s.slot 63 3 = none ∧ s.peek 5 = 0#8 := by decide +kernel

/-- The row gives no bits: no word spells a command. -/
theorem test_no_word (n w : Nat) (s : State) : decodeTableWord n w = none ∧ s.withFetchWord n w = s := ⟨rfl, rfl⟩

end Sys2Proof.Tests
end

section
/-! SUPPORT. What reset leaves (R4): no register is listed, so each reads its reset value, and a field of a register whose reset value
is 0 reads 0, at every index. -/

namespace Sys2Proof.Machine

theorem reg_reset (k : RegKind) (i : List Nat) : State.reset.reg k i = regReset k i := rfl

theorem get_reset_of_zero {f : Fld} {i : List Nat} (h : regReset f.kind i = 0) : State.reset.get f i = 0 := by
  rw [State.get, reg_reset, h, bits, Nat.zero_div, Nat.zero_mod]

theorem qState_reset (q : Nat) : State.reset.qState q = qDisabled := get_reset_of_zero rfl

theorem dmaState_reset (c e : Nat) : State.reset.dmaState c e = dmaIdle := get_reset_of_zero rfl

theorem gfState_reset (p : Nat) : State.reset.gfState p = gfDisabled := get_reset_of_zero rfl

theorem bxState_reset (x e : Nat) : State.reset.bxState x e = bxDown := get_reset_of_zero rfl

theorem cadState_reset : State.reset.cadState = cadFree := get_reset_of_zero rfl

theorem cadAgreed_reset : State.reset.flag F.cadStatus_agreed = false := by
  rw [State.flag, get_reset_of_zero rfl]; rfl

theorem phase_reset : State.reset.phase = phPower := get_reset_of_zero rfl

/-- R22: the map is being built, at generation 1. -/
theorem map_reset : State.reset.flag F.mqStatus_building = true ∧ State.reset.get F.mqGeneration_generation = 1 := by decide

/-- R27: the reserved chip ID, which names no chip. -/
theorem chipId_reset : State.reset.get F.glbChipId_id = 0xFFFFF := by decide

theorem slot_reset (c k : Nat) : State.reset.slot c k = none := rfl

/-- Nothing is stored at reset; outside the far windows an address without a stored byte reads 0. -/
theorem peek_reset {l : Nat} (h : localFar l = false) : State.reset.peek l = 0#8 := by
  rw [State.peek, h]; rfl

/-- Settles O58: nothing is listed at reset, so every register reads its reset value and every byte 0. -/
theorem resetState : Obligations.ResetState :=
  ⟨canonical_reset, rfl, reg_reset, fun q _ => qState_reset q, fun c e _ _ => dmaState_reset c e, fun p _ => gfState_reset p,
    cadState_reset, cadAgreed_reset, fun x e _ _ => bxState_reset x e, map_reset.1, map_reset.2, chipId_reset, phase_reset,
    slot_reset, fun _ h => peek_reset h⟩

end Sys2Proof.Machine
end

section
/-! SUPPORT. Accesses that come as commands of their own: what the command of an access that was served does, where the self alias
leads, and an access to an undefined address (R4, R6, R25, R371, R373). -/

namespace Sys2Proof.Machine

/-! ### Bytes of a number -/

@[simp] theorem length_leBytes (n v : Nat) : (leBytes n v).length = n := by
  induction n generalizing v with
  | zero => rfl
  | succ n ih => simp [leBytes, ih]

theorem leOf_leBytes (n v : Nat) : leOf (leBytes n v) = v % 256 ^ n := by
  induction n generalizing v with
  | zero => simp [leBytes, leOf, Nat.mod_one]
  | succ n ih =>
    rw [leBytes, leOf, ih, BitVec.toNat_ofNat, Nat.pow_succ' (n := n)]
    exact (Nat.mod_mul).symm

/-! ### The self alias (R25) -/

theorem target_selfAddr (s : State) {l : Nat} (h : l < 2 ^ 44) : s.target (selfAddr l) = targetOfLocal l := by
  have hc : chipOf (selfAddr l) = 0xFFFFF := by unfold chipOf selfAddr; omega
  have hl : localOf (selfAddr l) = l := by unfold localOf selfAddr; omega
  rw [State.target, if_pos (Or.inl hc), hl]

theorem targetOfLocal_regLocal {o : Nat} (h : o < 2 ^ 26) : targetOfLocal (regLocal o) = .reg o := by
  unfold targetOfLocal regLocal
  repeat rw [if_neg (by omega)]
  rw [if_pos (by omega), Nat.add_sub_cancel_left]

theorem target_regLocal (s : State) {o : Nat} (h : o < 2 ^ 26) : s.target (selfAddr (regLocal o)) = .reg o := by
  rw [target_selfAddr s (by unfold regLocal; omega), targetOfLocal_regLocal h]

/-! ### Accesses that are served -/

theorem answered_of_ok {s t : State} {m tc a : Nat} {op : MemOp} {bs : List Byte} (h : s.access m tc a op = (t, .ok bs))
    (posted : Bool) : s.answered m tc a op posted = some (t.answerTo (if posted then .nobody else .answer) (.ok bs)) := by
  simp only [State.answered, h]

/-- A served access whose command is answered settles with its bytes for an answer. -/
theorem settles_answered {s t : State} {m tc a : Nat} {op : MemOp} {bs : List Byte} (h : s.access m tc a op = (t, .ok bs)) :
    settles (orRefuse ((s.answered m tc a op false).map State.kickAll)) (fun u => u = { t with out := .answer 0 bs :: t.out }) := by
  rw [answered_of_ok h]
  exact ⟨_, rfl, rfl⟩

/-- A served access whose command is posted settles in what the access does. -/
theorem settles_posted {s t : State} {m tc a : Nat} {op : MemOp} {bs : List Byte} (h : s.access m tc a op = (t, .ok bs)) :
    settles (orRefuse ((s.answered m tc a op true).map State.kickAll)) (fun u => u = t) := by
  rw [answered_of_ok h]
  exact ⟨_, rfl, rfl⟩

/-! ### Whole lines of CXL.mem (R373) -/

theorem length_peeks (s : State) (l n : Nat) : (s.peeks l n).length = n := by
  rw [State.peeks, List.length_map, List.length_range]

/-- A whole line merged over the old one is the line itself. -/
theorem merge_allOnes (old bs : List Byte) (ho : old.length = 64) (hb : bs.length = 64) :
    (old.zip bs).zipIdx.map (fun x => if (BitVec.allOnes 64).getLsbD x.2 then x.1.2 else x.1.1) = bs := by
  apply List.ext_getElem (by simp [ho, hb])
  intro i h _
  have hi : i < 64 := by simpa [ho, hb] using h
  have hm : (BitVec.allOnes 64).getLsbD i = true := by rw [BitVec.getLsbD_allOnes, decide_eq_true hi]
  rw [List.getElem_map, List.getElem_zipIdx, List.getElem_zip, Nat.zero_add, if_pos hm]

theorem hdmWrite_allOnes {s t : State} {line : Nat} {bs out : List Byte} (hb : bs.length = 64)
    (h : s.access mHostMem 0 (selfAddr (64 * line)) (.wr bs) = (t, .ok out)) :
    s.hdmWrite line (BitVec.allOnes 64) bs = t.answerTo .answer (.ok out) := by
  simp only [State.hdmWrite, merge_allOnes (s.peeks (64 * line) 64) bs (length_peeks _ _ _) hb, h]

theorem settles_memWr_allOnes {s t : State} {line : BitVec 32} {data : BitVec 512} {out : List Byte} (hs : s.hdmServes = true)
    (h : s.access mHostMem 0 (selfAddr (64 * line.toNat)) (.wr (leBytes 64 data.toNat)) = (t, .ok out)) :
    settles (exec (.memWr line (BitVec.allOnes 64) data) s) (fun u => u = { t with out := .answer 0 out :: t.out }) := by
  have e : exec (.memWr line (BitVec.allOnes 64) data) s = .next (t.answerTo .answer (.ok out)).kickAll := by
    rw [← hdmWrite_allOnes (length_leBytes _ _) h]
    show execMemWr line (BitVec.allOnes 64) data s = _
    rw [execMemWr, hs, if_neg (by decide), if_neg (by decide)]
  exact ⟨_, e, rfl⟩

/-! ### Registers written by offset (R4, R6) -/

/-- A write of a register of its own width, at its own offset, is that register's write. -/
theorem regAccess_wr_own {s : State} {m o v : Nat} {k : RegKind} {i : List Nat} (hr : regAt o = some (k, i, 0))
    (ha : o % k.bytes = 0) (hs : s.regServed m o = true) (hw : k.bytes = 8 ∨ k.bytes = 4) :
    s.regAccess m o (.wr (leBytes k.bytes (v % 2 ^ (8 * k.bytes)))) =
      (s.regWrite k i 0 (8 * k.bytes) (v % 2 ^ (8 * k.bytes)), []) := by
  rcases hw with h8 | h4
  · rw [h8] at ha ⊢
    simp [State.regAccess, MemOp.len, hr, hs, h8, ha, leOf_leBytes]
  · rw [h4] at ha ⊢
    have ht : ∀ x, (leBytes 4 x).take 4 = leBytes 4 x := fun x => List.take_of_length_le (by simp)
    simp [State.regAccess, MemOp.len, hr, hs, h4, ha, ht, leOf_leBytes]

theorem access_registerWrite {s : State} {o v : Nat} {k : RegKind} {i : List Nat} (ho : o < 2 ^ 26)
    (hr : regAt o = some (k, i, 0)) (hwin : isWindow o = false) (hcxl : winCxl o = false) (ha : o % k.bytes = 0)
    (hs : s.regServed mHostIo o = true) (hw : k.bytes = 8 ∨ k.bytes = 4) :
    s.access mHostIo 0 (selfAddr (regLocal o)) (.wr (leBytes k.bytes (v % 2 ^ (8 * k.bytes)))) =
      (s.regWrite k i 0 (8 * k.bytes) (v % 2 ^ (8 * k.bytes)), .ok []) := by
  simp only [State.access, target_regLocal s ho, hcxl, hwin, regAccess_wr_own hr ha hs hw]
  rfl

/-! ### Undefined addresses (R6) -/

/-- Only registers change. -/
theorem unmapped_eq (s : State) : s.unmapped = { s with regs := s.unmapped.regs } := by
  unfold State.unmapped
  split <;> rfl

theorem unmapped_answered (s : State) (bs : List Byte) :
    s.unmapped.answerTo .answer (.ok bs) = { s with out := .answer 0 bs :: s.out, regs := s.unmapped.regs } :=
  congrArg (State.answerTo · .answer (.ok bs)) (unmapped_eq s)

theorem unmapped_of_d0 {s : State} (h : s.dieInReset 0 = false) : s.unmapped = s.bump F.glbUnmappedCount_count [] := by
  have h' : s.get F.bruDieReset_active % 2 ≠ 1 := by simpa [State.dieInReset, bit] using h
  rw [State.unmapped, if_neg h']

theorem unmapped_counts {s : State} (h : s.dieInReset 0 = false) :
    s.unmapped.get F.glbUnmappedCount_count = sat 32 (s.get F.glbUnmappedCount_count + 1) := by
  have hw : F.glbUnmappedCount_count.len = 32 := rfl
  rw [unmapped_of_d0 h, get_bump, hw]

theorem regsOnly_put (s : State) (f : Fld) (i : List Nat) (v : Nat) : regsOnly s (s.put f i v) [regAddr f.kind i] :=
  ⟨rfl, fun k j h => reg_put_other s f i v k j (by simpa using h)⟩

theorem unmapped_regsOnly {s : State} (h : s.dieInReset 0 = false) :
    regsOnly s s.unmapped [regAddr .glbUnmappedCount []] := by
  rw [unmapped_of_d0 h]
  exact regsOnly_put s F.glbUnmappedCount_count [] _

/-- R6: a read of an undefined address is counted and answered with zeros. -/
theorem answers_undefined_read {s : State} {a : BitVec 44} (hu : isUndefined a.toNat = true) (h : s.dieInReset 0 = false)
    (n : Fin 257) : answers (exec (.unmappedAccess a (.read n)) s) (fun t =>
      t.out = .answer 0 (List.replicate n.val 0#8) :: s.out ∧
      t.get F.glbUnmappedCount_count = sat 32 (s.get F.glbUnmappedCount_count + 1) ∧ t = { s with out := t.out, regs := t.regs }) := by
  have e : exec (.unmappedAccess a (.read n)) s = .next (s.unmapped.answerTo .answer (.ok (List.replicate n.val 0#8))) := by
    show execUnmappedAccess a (.read n) s = _
    rw [execUnmappedAccess, if_pos hu]
  rw [e, unmapped_answered]
  exact ⟨_, rfl, rfl, (get_congr rfl F.glbUnmappedCount_count []).trans (unmapped_counts h), rfl⟩

/-- R6: a write to an undefined address is counted and changes nothing else. -/
theorem answers_undefined_write {s : State} {a : BitVec 44} (hu : isUndefined a.toNat = true) (h : s.dieInReset 0 = false)
    (b : List Byte) : answers (exec (.unmappedAccess a (.write b)) s) (fun t =>
      regsOnly s t [regAddr .glbUnmappedCount []] ∧
      t.get F.glbUnmappedCount_count = sat 32 (s.get F.glbUnmappedCount_count + 1)) := by
  have e : exec (.unmappedAccess a (.write b)) s = .next s.unmapped := by
    show execUnmappedAccess a (.write b) s = _
    rw [execUnmappedAccess, if_pos hu]
  exact ⟨_, e, unmapped_regsOnly h, unmapped_counts h⟩

/-! ### The commands -/

theorem settles_registerWrite {s : State} {o : BitVec 26} {v : Word} {wide : Bool} {k : RegKind} {i : List Nat}
    (hr : regAt o.toNat = some (k, i, 0)) (hwin : isWindow o.toNat = false) (hcxl : winCxl o.toNat = false)
    (ha : o.toNat % k.bytes = 0) (hs : s.regServed mHostIo o.toNat = true)
    (hw : wide = true ∧ k.bytes = 8 ∨ wide = false ∧ k.bytes = 4) :
    settles (exec (.registerWrite o v wide) s)
      (fun u => u = s.regWrite k i 0 (8 * k.bytes) (v.toNat % 2 ^ (8 * k.bytes))) := by
  have hn : (if wide then 8 else 4) = k.bytes := by
    rcases hw with ⟨rfl, h⟩ | ⟨rfl, h⟩ <;> simp [h]
  have h := settles_posted (access_registerWrite (v := v.toNat) o.isLt hr hwin hcxl ha hs (hw.imp And.right And.right))
  show settles (execRegisterWrite o v wide s) _
  simp only [execRegisterWrite, hn]
  exact h

theorem exec_hostSnoop {s : State} (hu : s.flag F.hifLink_up = true) (hc : s.flag F.hifLink_cxl = true) (line : Word) :
    exec (.hostSnoop line) s = .next { s with out := .snoop line.toNat :: s.out } := by
  show execHostSnoop line s = _
  rw [execHostSnoop, if_pos ⟨hu, hc⟩]

theorem settles_memRd {s t : State} {line : BitVec 32} {bs : List Byte} (hs : s.hdmServes = true)
    (h : s.access mHostMem 0 (selfAddr (64 * line.toNat)) (.rd 64) = (t, .ok bs)) :
    settles (exec (.memRd line) s) (fun u => u = { t with out := .answer 0 bs :: t.out }) := by
  show settles (execMemRd line s) _
  rw [execMemRd, if_pos hs]
  exact settles_answered h

/-- Settles O41: each command is the access that it makes, answered or posted where it is served. -/
theorem hostAccessesAnswered : Obligations.HostAccessesAnswered := by
  intro s s1 bs answered
  refine ⟨?window, ?bar4, ?mem, ?snoop, ?register, ?undefined⟩
  case window => exact fun m off acc h => settles_answered h
  case bar4 =>
    refine fun a acc h => ⟨?_, ?_⟩
    · rintro ⟨n, rfl⟩
      exact settles_answered h
    · rintro ⟨b, rfl⟩
      exact settles_posted h
  case mem => exact fun line hs => ⟨settles_memRd hs, fun data => settles_memWr_allOnes hs⟩
  case snoop => exact fun line hu hc => exec_hostSnoop hu hc line
  case register => exact fun o v wide k i hr hwin hcxl ha hs hw => settles_registerWrite hr hwin hcxl ha hs hw
  case undefined => exact fun a hu h => ⟨answers_undefined_read hu h, answers_undefined_write hu h⟩

end Sys2Proof.Machine
end

section
/-! SUPPORT. Scalar FP32 operations: what an instruction that issues with a result and its flags leaves behind, and the FP32 form of
each operation (R59, R60, R70, R215). -/

namespace Sys2Proof.Machine

/-- The context after a scalar result with its flags. -/
theorem setsScalar_setS_orFlags (s0 : State) (c k : Nat) (sl : Slot) (n : Nat) (r : SReg) (v : Word) (fl : BitVec 8) :
    setsScalar s0 (s0.setSlot c k (some (((sl.past n).setS r v).orFlags fl))) c k sl n r v fl := by
  refine ⟨((sl.past n).setS r v).orFlags fl, rfl, ?_, fun q => (sl.past n).s_setS r q v⟩
  by_cases hr : r = 0 <;> simp [Slot.setS, Slot.orFlags, Slot.past, hr]

/-- An instruction that issues with a scalar result and flags leaves that result and those flags. -/
theorem scalarResult_of_issueF {i : Instr} {n : Nat} {r : SReg} {f : Slot → Word × BitVec 8}
    (he : ∀ s, exec i s = .next (issueF i s r f)) (hn : lengthOf i = n) : scalarResult i n r f := by
  intro s s0 c k sl h
  subst hn
  refine ⟨_, he s, ?_⟩
  have ht : issueF i s r f = s0.setSlot c k (some (((sl.past (lengthOf i)).setS r (f sl).1).orFlags (f sl).2)) := by
    simp only [issueF, issue_of_canIssue h, seatOf, modSlot_seat, Option.getD_some]
  rw [ht]
  exact setsScalar_setS_orFlags s0 c k sl _ r _ _

/-- The flag of an operation whose result is no NaN: INVALID where its one operand is NaN (R70). -/
theorem flagOp_zero (x : Val) : flagOp [x] Val.zero = if x.isNan then flInvalid else 0#8 := by
  cases x <;> rfl

/-- R215, R60, R70: F2I rounds into the integer format, and a NaN operand sets INVALID beside the flags of the rounding. -/
theorem aluF2i_eq (a : Word) : aluF2i a =
    (BitVec.ofNat 64 (writeInt 64 (fpOf a)).1, (writeInt 64 (fpOf a)).2 ||| (if (fpOf a).isNan then flInvalid else 0#8)) := by
  rw [aluF2i, flagOp_zero]

/-- An instruction that issues with F2I's result of register `sa` leaves that result and its flags. -/
theorem scalarResult_f2i {i : Instr} {n : Nat} {r sa : SReg} (he : ∀ s, exec i s = .next (issueF i s r (fun x => aluF2i (x.s sa))))
    (hn : lengthOf i = n) : scalarResult i n r (fun sl => let x := ofFp32 ((sl.s sa).toNat % 2 ^ 32)
      (BitVec.ofNat 64 (writeInt 64 x).1, (writeInt 64 x).2 ||| (if x.isNan then flInvalid else 0#8))) := by
  have h := scalarResult_of_issueF he hn
  simp only [aluF2i_eq] at h
  exact h

/-- Settles O2: each operation issues with its own FP32 result and flags, which for all but F2I are `fp32Result` by their definition. -/
theorem scalarFloatResults : Obligations.ScalarFloatResults := by
  unfold Obligations.ScalarFloatResults
  constructor
  · intro g sd sa sb
    refine ⟨?_, ?_, ?_, ?_, ?_, ?_, scalarResult_f2i (fun _ => rfl) rfl⟩
    all_goals exact scalarResult_of_issueF (fun _ => rfl) rfl
  · intro g sd sa b v hv
    obtain rfl : v = ImmB.value b := by cases b <;> exact hv
    refine ⟨?_, ?_, ?_, ?_, ?_, ?_, scalarResult_f2i (fun _ => rfl) rfl⟩
    all_goals exact scalarResult_of_issueF (fun _ => rfl) rfl

end Sys2Proof.Machine
end

section
/-! SUPPORT. The Wide Sum Format's additions form a commutative monoid (R65). -/

namespace Sys2Proof.Machine

theorem Wsf.add_assoc (a b c : Wsf) : (a.add b).add c = a.add (b.add c) := by
  simp only [Wsf.add, BitVec.add_assoc, BitVec.or_assoc]

theorem Wsf.add_comm (a b : Wsf) : a.add b = b.add a := by
  simp only [Wsf.add, BitVec.add_comm a.n, BitVec.or_comm a.tag]

theorem Wsf.add_zero (a : Wsf) : a.add Wsf.zero = a := by
  simp only [Wsf.add, Wsf.zero, BitVec.add_zero, BitVec.or_zero]

/-- Of two elements added one after the other, either may come first. -/
theorem Wsf.add_right_comm (a b c : Wsf) : (a.add b).add c = (a.add c).add b := by
  rw [Wsf.add_assoc, Wsf.add_comm b, ← Wsf.add_assoc]

theorem Wsf.foldl_add_perm {l m : List Wsf} (h : l.Perm m) (a : Wsf) : l.foldl Wsf.add a = m.foldl Wsf.add a :=
  h.foldl_eq' (fun x _ y _ z => Wsf.add_right_comm z x y) a

/-- Settles O24: the integers are added modulo 2^128 and the tags joined, each exact, associative and commutative. -/
theorem wideSumsInAnyOrder : Obligations.WideSumsInAnyOrder :=
  ⟨fun a b => ⟨BitVec.toNat_add a.n b.n, rfl⟩, Wsf.add_assoc, Wsf.add_comm, Wsf.add_zero, fun _ _ h => Wsf.foldl_add_perm h _⟩

end Sys2Proof.Machine
end

section
/-! SUPPORT. Elements of whole bytes: what a read of one returns after a write of the same and of another element, and what a tensor
written element by element holds (R54, R222, R223). -/

namespace Sys2Proof.Machine

/-! ### Folds that establish a fact for each entry -/

/-- Where each step of a fold establishes its own entry's fact and keeps those of the others, the fold establishes them all. -/
theorem foldl_establishes {σ β : Type} [DecidableEq β] (f : σ → β → σ) (Q : β → σ → Prop) (l : List β)
    (hset : ∀ s, ∀ x ∈ l, Q x (f s x)) (hkeep : ∀ s, ∀ x ∈ l, ∀ y ∈ l, y ≠ x → Q y s → Q y (f s x)) :
    ∀ s, ∀ y ∈ l, Q y (l.foldl f s) := by
  induction l with
  | nil => intro s y hy; cases hy
  | cons x l ih =>
    intro s y hy
    have hl : ∀ z ∈ l, z ∈ x :: l := fun z hz => List.mem_cons_of_mem x hz
    rw [List.foldl_cons]
    by_cases hyl : y ∈ l
    · exact ih (fun s z hz => hset s z (hl z hz)) (fun s z hz w hw => hkeep s z (hl z hz) w (hl w hw)) (f s x) y hyl
    · obtain rfl : y = x := by simpa only [List.mem_cons, hyl, or_false] using hy
      exact List.foldlRecOn (motive := Q y) l f (hset s y hy)
        (fun t ht z hz => hkeep t z (hl z hz) y hy (fun e => hyl (e ▸ hz)) ht)

/-- The places of a grid, row after row. -/
def placesOf (rows cols : List Nat) : List (Nat × Nat) := rows.flatMap (fun r => cols.map (fun i => (r, i)))

theorem mem_placesOf {rows cols : List Nat} {p : Nat × Nat} : p ∈ placesOf rows cols ↔ p.1 ∈ rows ∧ p.2 ∈ cols := by
  simp only [placesOf, List.mem_flatMap, List.mem_map]
  constructor
  · rintro ⟨r, hr, i, hi, rfl⟩
    exact ⟨hr, hi⟩
  · exact fun ⟨hr, hi⟩ => ⟨p.1, hr, p.2, hi, rfl⟩

/-- A fold over the rows and, in each, over the columns is one over the places. -/
theorem foldl_grid {σ : Type} (f : σ → Nat × Nat → σ) (rows cols : List Nat) (s : σ) :
    rows.foldl (fun t r => cols.foldl (fun t i => f t (r, i)) t) s = (placesOf rows cols).foldl f s := by
  simp only [placesOf, List.foldl_flatMap, List.foldl_map]

/-! ### Little-endian bytes -/

theorem leOf_eq_foldr (l : List Byte) : leOf l = l.foldr (fun b acc => b.toNat + 256 * acc) 0 := by
  induction l with
  | nil => rfl
  | cons b t ih => rw [leOf, ih, List.foldr_cons]

theorem leOf_lt (l : List Byte) : leOf l < 256 ^ l.length := by
  induction l with
  | nil => exact Nat.one_pos
  | cons b t ih =>
    have hb : b.toNat < 256 := b.isLt
    rw [leOf, List.length_cons, Nat.pow_succ]
    omega

theorem leBytes_eq_map (n v : Nat) : leBytes n v = (List.range n).map (fun k => BitVec.ofNat 8 (v / 256 ^ k)) := by
  induction n generalizing v with
  | zero => rfl
  | succ n ih =>
    rw [leBytes, ih, List.range_succ_eq_map, List.map_cons, List.map_map, Nat.pow_zero, Nat.div_one]
    simp only [Function.comp_def, Nat.succ_eq_add_one, Nat.pow_succ', Nat.div_div_eq_div_mul]

theorem pow256 (w : Nat) : 2 ^ (8 * w) = 256 ^ w := by
  rw [Nat.pow_mul]

/-! ### One element -/

/-- The local address of byte `k` of element (m, j), in a format of `w` bytes. -/
def Desc.elemAddr (d : Desc) (w m j k : Nat) : Nat := localOf (d.byteAddr m (w * j + k))

/-- The bytes of an element, the lowest first. -/
def State.elemBytes (s : State) (d : Desc) (w m j : Nat) : List Byte := (List.range w).map (fun k => s.peek (d.elemAddr w m j k))

/-- A tensor of elements of `w` bytes, outside the far windows, no two bytes of which are one byte of storage. -/
structure Desc.Apart (d : Desc) (w : Nat) : Prop where
  whole : d.fmt.width = 8 * w
  near : ∀ m j k, m < d.rows → j < d.cols → k < w → localFar (d.elemAddr w m j k) = false
  apart : ∀ m j k m' j' k', m < d.rows → j < d.cols → k < w → m' < d.rows → j' < d.cols → k' < w →
    canon (d.elemAddr w m j k) = canon (d.elemAddr w m' j' k') → m = m' ∧ j = j' ∧ k = k'

theorem leOf_elemBytes_lt (s : State) (d : Desc) (w m j : Nat) : leOf (s.elemBytes d w m j) < 256 ^ w := by
  have h := leOf_lt (s.elemBytes d w m j)
  rwa [State.elemBytes, List.length_map, List.length_range] at h

/-- Where an element of `w` bytes begins in its row, at which bit, and how many bytes it touches. -/
theorem elem_place (w i : Nat) : i * (8 * w) / 8 = w * i ∧ i * (8 * w) % 8 = 0 ∧ (0 + 8 * w + 7) / 8 = w := by
  have h : i * (8 * w) = 8 * (w * i) := by rw [Nat.mul_comm, Nat.mul_assoc]
  omega

/-- The fold by which the model reads the bytes of an element. -/
theorem foldr_elemBytes (s : State) (d : Desc) (w m j : Nat) :
    (List.range w).foldr (fun k acc => (s.peek (localOf (d.byteAddr m (w * j + k)))).toNat + 256 * acc) 0 =
      leOf (s.elemBytes d w m j) := by
  rw [leOf_eq_foldr, State.elemBytes, List.foldr_map]
  rfl

/-- An element of whole bytes reads as the little-endian number of its bytes. -/
theorem elemCode_whole {d : Desc} {w : Nat} (hw : d.fmt.width = 8 * w) (s : State) (m j : Nat) :
    s.elemCode d m j = leOf (s.elemBytes d w m j) := by
  obtain ⟨hj, hb, hn⟩ := elem_place w j
  simp only [State.elemCode, hw, hj, hn, foldr_elemBytes, hb]
  rw [bits, Nat.pow_zero, Nat.div_one, pow256, Nat.mod_eq_of_lt (leOf_elemBytes_lt s d w m j)]

theorem elemCode_lt (s : State) (d : Desc) (m j : Nat) : s.elemCode d m j < 2 ^ d.fmt.width :=
  Nat.mod_lt _ (Nat.two_pow_pos _)

/-- A code written over a whole number keeps nothing of it. -/
theorem putBits_whole {w old : Nat} (h : old < 256 ^ w) (v : Nat) : putBits old 0 (8 * w) v = v % 256 ^ w := by
  rw [putBits, Nat.zero_add, pow256, Nat.div_eq_of_lt h, Nat.pow_zero, Nat.mod_one, Nat.mul_one, Nat.zero_add, Nat.zero_mul,
    Nat.add_zero]

/-- An element of whole bytes is written byte by byte. -/
theorem setElemCode_whole {d : Desc} {w : Nat} (hw : d.fmt.width = 8 * w) (s : State) (m j v : Nat) :
    s.setElemCode d m j v =
      (List.range w).foldl (fun t k => t.poke (d.elemAddr w m j k) (BitVec.ofNat 8 (v % 256 ^ w / 256 ^ k))) s := by
  obtain ⟨hj, hb, hn⟩ := elem_place w j
  simp only [State.setElemCode, hw, hj, hn, foldr_elemBytes, hb, putBits_whole (leOf_elemBytes_lt s d w m j)]
  rfl

namespace Desc.Apart

variable {d : Desc} {w m j m' j' : Nat}

/-- Bytes of the tensor at different places are different bytes. -/
theorem not_sameByte (h : d.Apart w) {k k' : Nat} (hm : m < d.rows) (hj : j < d.cols) (hk : k < w) (hm' : m' < d.rows)
    (hj' : j' < d.cols) (hk' : k' < w) (hne : ¬ (m = m' ∧ j = j' ∧ k = k')) :
    ¬ sameByte (d.elemAddr w m j k) (d.elemAddr w m' j' k') := by
  rintro (⟨hf, -⟩ | ⟨-, -, he⟩)
  · rw [h.near m j k hm hj hk] at hf
    cases hf
  · exact hne (h.apart m j k m' j' k' hm hj hk hm' hj' hk' he)

/-- An element reads back as it was written, cut to its width. -/
theorem elemCode_setElemCode_same (h : d.Apart w) (hm : m < d.rows) (hj : j < d.cols) (s : State) (v : Nat) :
    (s.setElemCode d m j v).elemCode d m j = v % 256 ^ w := by
  have hbytes : ∀ k ∈ List.range w, (s.setElemCode d m j v).peek (d.elemAddr w m j k) = BitVec.ofNat 8 (v % 256 ^ w / 256 ^ k) := by
    rw [setElemCode_whole h.whole]
    refine foldl_establishes _ (fun k t => t.peek (d.elemAddr w m j k) = BitVec.ofNat 8 (v % 256 ^ w / 256 ^ k)) _ ?_ ?_ s
    · intro t k hk
      exact peek_poke_same t _ _ _ (Or.inr ⟨h.near m j k hm hj (List.mem_range.mp hk), h.near m j k hm hj (List.mem_range.mp hk), rfl⟩)
    · intro t k hk k' hk' hne hq
      rw [peek_poke_other t _ _ _ (h.not_sameByte hm hj (List.mem_range.mp hk) hm hj (List.mem_range.mp hk')
        (fun e => hne e.2.2.symm))]
      exact hq
  rw [elemCode_whole h.whole, State.elemBytes, List.map_congr_left hbytes, ← leBytes_eq_map, leOf_leBytes, Nat.mod_mod]

/-- A write of an element leaves every other element as it was. -/
theorem elemCode_setElemCode_other (h : d.Apart w) (hm : m < d.rows) (hj : j < d.cols) (hm' : m' < d.rows) (hj' : j' < d.cols)
    (hne : ¬ (m = m' ∧ j = j')) (s : State) (v : Nat) : (s.setElemCode d m j v).elemCode d m' j' = s.elemCode d m' j' := by
  have hkeep : ∀ k' ∈ List.range w, (s.setElemCode d m j v).peek (d.elemAddr w m' j' k') = s.peek (d.elemAddr w m' j' k') := by
    intro k' hk'
    rw [setElemCode_whole h.whole]
    refine List.foldlRecOn (motive := fun t : State => t.peek (d.elemAddr w m' j' k') = s.peek (d.elemAddr w m' j' k')) _ _ rfl ?_
    intro t ht k hk
    rw [peek_poke_other t _ _ _ (h.not_sameByte hm hj (List.mem_range.mp hk) hm' hj' (List.mem_range.mp hk')
      (fun e => hne ⟨e.1, e.2.1⟩))]
    exact ht
  rw [elemCode_whole h.whole, elemCode_whole h.whole]
  exact congrArg leOf (List.map_congr_left hkeep)

end Desc.Apart

/-! ### A whole tensor -/

/-- Every element of a tensor written, row after row. -/
def State.writeCodes (s : State) (d : Desc) (g : Nat → Nat → Nat) : State :=
  (List.range d.rows).foldl (fun t m => (List.range d.cols).foldl (fun t j => t.setElemCode d m j (g m j)) t) s

theorem Desc.Apart.elemCode_writeCodes {d : Desc} {w m j : Nat} (h : d.Apart w) (hm : m < d.rows) (hj : j < d.cols) (s : State)
    (g : Nat → Nat → Nat) : (s.writeCodes d g).elemCode d m j = g m j % 256 ^ w := by
  have hmem : ∀ {p : Nat × Nat}, p ∈ placesOf (List.range d.rows) (List.range d.cols) → p.1 < d.rows ∧ p.2 < d.cols := by
    intro p hp
    simpa only [List.mem_range] using mem_placesOf.mp hp
  have hall := foldl_establishes (fun (t : State) (p : Nat × Nat) => t.setElemCode d p.1 p.2 (g p.1 p.2))
    (fun p t => t.elemCode d p.1 p.2 = g p.1 p.2 % 256 ^ w) (placesOf (List.range d.rows) (List.range d.cols)) ?_ ?_ s (m, j)
    (mem_placesOf.mpr ⟨List.mem_range.mpr hm, List.mem_range.mpr hj⟩)
  · rw [State.writeCodes, foldl_grid (fun (t : State) (p : Nat × Nat) => t.setElemCode d p.1 p.2 (g p.1 p.2))]
    exact hall
  · exact fun t p hp => h.elemCode_setElemCode_same (hmem hp).1 (hmem hp).2 t _
  · intro t p hp q hq hne hQ
    rw [h.elemCode_setElemCode_other (hmem hp).1 (hmem hp).2 (hmem hq).1 (hmem hq).2 (fun e => hne (Prod.ext e.1.symm e.2.symm))]
    exact hQ

/-- The rows of a whole tensor, as the model counts them from a first row. -/
theorem rows_from_zero (n : Nat) : (List.range (n - 0)).map (· + 0) = List.range n := by
  simp

/-- In a format that is not microscaled a tensor is written code by code. -/
theorem writeTensor_codes {d : Desc} (hmx : d.fmt.isMx = false) (s : State) (f : Nat → Nat → Val) :
    (s.writeTensor d 0 d.rows f).1 = s.writeCodes d (fun m j => (d.fmt.write d.sat (f m j)).1) := by
  simp only [State.writeTensor, hmx, rows_from_zero, State.writeCodes, State.writeElem, Bool.false_eq_true, if_false]
  refine (List.foldl_hom Prod.fst ?_).symm
  intro acc m
  exact List.foldl_hom Prod.fst (fun _ _ => rfl)

/-- Storage that reads alike holds the same elements. -/
theorem elemCode_congr {s t : State} (h : ∀ l, s.peek l = t.peek l) (d : Desc) (m j : Nat) : s.elemCode d m j = t.elemCode d m j := by
  simp only [State.elemCode, h]

end Sys2Proof.Machine
end

section
/-! SUPPORT. Rounding into FP32 of values scaled far out of its range, for VSCALE, and the codes that FP32 and INT8 results have
(R59, R60, R130). -/

namespace Sys2Proof.Machine

/-! ### Magnitudes beyond FP32's range -/

theorem roundMag_zero (d : Nat) : fpFp32.roundMag 0 d = 0 := rfl

/-- `⌊log2⌋` of a quotient is at most the difference of the logarithms. -/
theorem floorLog2_le (n d : Nat) : floorLog2 n d ≤ (Nat.log2 n : Int) - (Nat.log2 d : Int) := by
  simp only [floorLog2]
  split <;> omega

theorem floorLog2_one {n : Nat} (hn : n ≠ 0) : floorLog2 n 1 = Nat.log2 n := by
  have h1 : (Nat.log2 n : Int) - (Nat.log2 1 : Nat) = Nat.log2 n := Int.sub_zero _
  have hle : shlI 1 (Nat.log2 n : Int) ≤ shlI n (-(Nat.log2 n : Int)) := by
    have h0 : (-(Nat.log2 n : Int)).toNat = 0 := by omega
    simpa [shlI, h0] using Nat.log2_self_le hn
  simp only [floorLog2, h1]
  rw [if_pos hle]

theorem rneDiv_lt_half {n d : Nat} (h : 2 * n < d) : rneDiv n d = 0 := by
  rw [rneDiv, Nat.mod_eq_of_lt (by omega), if_pos h, Nat.div_eq_of_lt (by omega)]

/-- Less than half of the smallest positive FP32 number rounds to zero. -/
theorem roundMag_tiny {n d : Nat} (h : n * 2 ^ 150 < d) : fpFp32.roundMag n d = 0 := by
  by_cases hn : n = 0
  · rw [hn, roundMag_zero]
  have hlog : Nat.log2 n + 150 ≤ Nat.log2 d := by
    have hself := Nat.log2_self_le hn
    rw [Nat.le_log2 (by omega), Nat.pow_add]
    exact Nat.le_trans (Nat.mul_le_mul_right _ hself) (Nat.le_of_lt h)
  have he : floorLog2 n d < 1 - (fpFp32.bias : Int) := by
    have hb : fpFp32.bias = 127 := rfl
    have := floorLog2_le n d
    omega
  have hm : rneDiv (shlI n 149) (shlI d (-149)) = 0 := by
    have h149 : shlI n 149 = n * 2 ^ 149 := rfl
    have hd : shlI d (-149) = d := Nat.mul_one d
    have hlt : 2 * (n * 2 ^ 149) < d := by rwa [Nat.pow_succ, ← Nat.mul_assoc, Nat.mul_comm] at h
    rw [h149, hd]
    exact rneDiv_lt_half hlt
  unfold Fp.roundMag
  simp only [hn, he, if_false, if_true]
  exact hm

/-- A magnitude of 2^200 or more lies beyond the largest FP32 number. -/
theorem roundMag_huge {n : Nat} (h : 2 ^ 200 ≤ n) : fpFp32.maxCode < fpFp32.roundMag n 1 := by
  have hn : n ≠ 0 := by omega
  have hlog : 200 ≤ Nat.log2 n := (Nat.le_log2 hn).mpr h
  have he : ¬ (Nat.log2 n : Int) < 1 - (fpFp32.bias : Int) := by
    have hb : fpFp32.bias = 127 := rfl
    omega
  unfold Fp.roundMag
  simp only [hn, floorLog2_one hn, he, if_false]
  have hexp : ((Nat.log2 n : Int) + (fpFp32.bias : Int)).toNat = Nat.log2 n + 127 := by
    have hb : fpFp32.bias = 127 := rfl
    omega
  have hf : fpFp32.fbits = 23 := rfl
  have hmax : fpFp32.maxCode = 255 * 2 ^ 23 - 1 := rfl
  rw [hexp, hf, hmax]
  omega

/-! ### Numbers scaled out of range -/

/-- A magnitude that rounds to zero gives a zero of its sign, without a flag. -/
theorem toFp32_of_roundMag_zero {p : Bool} {n : Nat} {e : Int} {d : Nat} (h : fpFp32.roundMag (ratNum n e) (ratDen e d) = 0) :
    toFp32 (.num p n e d) = (if p then fpFp32.signBit else 0, 0#8) := by
  rw [toFp32, Fp.write, h]
  simp

theorem toFp32_zero (p : Bool) (e : Int) (d : Nat) : toFp32 (.num p 0 e d) = (if p then fpFp32.signBit else 0, 0#8) :=
  toFp32_of_roundMag_zero (by rw [ratNum, shlI, Nat.zero_mul, roundMag_zero])

/-- A number of 2^200 or more overflows to infinity. -/
theorem toFp32_huge {p : Bool} {n : Nat} {e : Int} (hn : n ≠ 0) (he : 200 ≤ e) :
    toFp32 (.num p n e 1) = ((if p then fpFp32.signBit else 0) + (2 ^ 8 - 1) * 2 ^ 23, flOver) := by
  have hden : ratDen e 1 = 1 := by
    have h0 : (-e).toNat = 0 := by omega
    rw [ratDen, shlI, h0, Nat.pow_zero, Nat.mul_one]
  have hnum : 2 ^ 200 ≤ ratNum n e := by
    have h1 : 2 ^ 200 ≤ 2 ^ e.toNat := Nat.pow_le_pow_right (by decide) (by omega)
    exact Nat.le_trans h1 (Nat.le_mul_of_pos_left _ (Nat.pos_of_ne_zero hn))
  have hlt := roundMag_huge hnum
  rw [toFp32, Fp.write, hden]
  simp only [Nat.not_le.mpr hlt, if_false]
  rfl

/-- A number below 2^-172 underflows to a zero of its sign. -/
theorem toFp32_tiny {p : Bool} {n : Nat} {e : Int} (hn : n < 2 ^ 128) (he : e ≤ -300) :
    toFp32 (.num p n e 1) = (if p then fpFp32.signBit else 0, 0#8) := by
  have hnum : ratNum n e = n := by
    have h0 : e.toNat = 0 := by omega
    rw [ratNum, shlI, h0, Nat.pow_zero, Nat.mul_one]
  have hden : n * 2 ^ 150 < ratDen e 1 := by
    obtain ⟨k, hk⟩ : ∃ k, (-e).toNat = 128 + (150 + k) := ⟨(-e).toNat - (128 + 150), by omega⟩
    rw [ratDen, shlI, Nat.one_mul, hk, Nat.pow_add, Nat.pow_add 2 150]
    calc n * 2 ^ 150 < 2 ^ 128 * 2 ^ 150 := (Nat.mul_lt_mul_right (Nat.two_pow_pos 150)).mpr hn
      _ ≤ 2 ^ 128 * (2 ^ 150 * 2 ^ k) := Nat.mul_le_mul_left _ (Nat.le_mul_of_pos_right _ (Nat.two_pow_pos k))
  exact toFp32_of_roundMag_zero (by rw [hnum, roundMag_tiny hden])

/-! ### The size of an element's value -/

/-- A value that, where it is a number, has an integer of at most 128 bits and an exponent of magnitude at most `b`. -/
def Val.within (b : Int) : Val → Prop
  | .num _ n e d => d = 1 ∧ n < 2 ^ 128 ∧ -b ≤ e ∧ e ≤ b
  | _ => True

theorem toSigned_natAbs_lt (w c : Nat) (hw : w ≤ 128) : (toSigned w c).natAbs < 2 ^ 128 := by
  have hp : 2 ^ w ≤ 2 ^ 128 := Nat.pow_le_pow_right (by decide) hw
  have hc : c % 2 ^ w < 2 ^ w := Nat.mod_lt _ (Nat.two_pow_pos w)
  unfold toSigned
  split <;> omega

theorem ofInt_within {i : Int} (h : i.natAbs < 2 ^ 128) : (Val.ofInt i).within 500 :=
  ⟨rfl, h, by decide, by decide⟩

/-- The number that a code of a floating-point format has where it is no special (R54). -/
def Fp.finite (f : Fp) (c : Nat) : Val :=
  if bits c f.fbits f.ebits = 0 then .num (bit c (f.ebits + f.fbits)) (bits c 0 f.fbits) (1 - (f.bias : Int) - (f.fbits : Int)) 1
  else .num (bit c (f.ebits + f.fbits)) (2 ^ f.fbits + bits c 0 f.fbits)
    ((bits c f.fbits f.ebits : Int) - (f.bias : Int) - (f.fbits : Int)) 1

theorem Fp.value_cases (f : Fp) (c : Nat) : f.value c = .nan ∨ (∃ p, f.value c = .inf p) ∨ f.value c = f.finite c := by
  rw [Fp.value, ← Fp.finite]
  split
  · exact .inr (.inr rfl)
  · split
    · exact .inl rfl
    · exact .inr (.inr rfl)
  · split
    · split
      · exact .inr (.inl ⟨_, rfl⟩)
      · exact .inl rfl
    · exact .inr (.inr rfl)

theorem Fp.finite_within {f : Fp} (hf : f.fbits ≤ 23) (he : f.ebits ≤ 8) (hb : f.bias ≤ 127) (c : Nat) :
    (f.finite c).within 500 := by
  have hfr : bits c 0 f.fbits < 2 ^ f.fbits := Nat.mod_lt _ (Nat.two_pow_pos _)
  have hex : bits c f.fbits f.ebits < 2 ^ f.ebits := Nat.mod_lt _ (Nat.two_pow_pos _)
  have h23 : 2 ^ f.fbits ≤ 2 ^ 23 := Nat.pow_le_pow_right (by decide) hf
  have h8 : 2 ^ f.ebits ≤ 2 ^ 8 := Nat.pow_le_pow_right (by decide) he
  unfold Fp.finite
  split <;> exact ⟨rfl, by omega, by omega, by omega⟩

theorem Fp.value_within {f : Fp} (hf : f.fbits ≤ 23) (he : f.ebits ≤ 8) (hb : f.bias ≤ 127) (c : Nat) : (f.value c).within 500 := by
  obtain h | ⟨p, h⟩ | h := f.value_cases c
  · rw [h]; trivial
  · rw [h]; trivial
  · rw [h]; exact Fp.finite_within hf he hb c

theorem Fmt.width_le (f : Fmt) : f.width ≤ 128 := by
  cases f <;> decide

theorem Fmt.fp?_sized {f : Fmt} {p : Fp} (h : f.fp? = some p) : p.fbits ≤ 23 ∧ p.ebits ≤ 8 ∧ p.bias ≤ 127 := by
  cases f <;> cases h <;> decide

theorem Fmt.value_within (f : Fmt) (c : Nat) : (f.value c).within 500 := by
  unfold Fmt.value
  split
  next p hp =>
    obtain ⟨hf, he, hb⟩ := Fmt.fp?_sized hp
    exact Fp.value_within hf he hb c
  next => exact ofInt_within (toSigned_natAbs_lt _ _ f.width_le)

theorem scaled_within {v : Val} {c : Nat} (h : v.within 500) (hc : c < 256) : (scaled c v).within 1000 := by
  unfold scaled
  split
  · trivial
  · cases v with
    | nan => trivial
    | inf p => trivial
    | num p n e d =>
      obtain ⟨hd, hn, hlo, hhi⟩ := h
      exact ⟨hd, hn, by omega, by omega⟩

/-- The value of an element of any format lies far inside the range to which VSCALE's scalar is cut. -/
theorem elem_within (s : State) (d : Desc) (m j : Nat) : (s.elem d m j).within 1000 := by
  have hv := d.fmt.value_within (s.elemCode d m j)
  simp only [State.elem]
  split
  · exact scaled_within hv (s.peek _).isLt
  · revert hv
    cases d.fmt.value (s.elemCode d m j) with
    | nan => exact id
    | inf p => exact id
    | num p n e k => exact fun ⟨hk, hn, hlo, hhi⟩ => ⟨hk, hn, by omega, by omega⟩

/-- A scalar of VSCALE beyond ±4,096 gives the result of ±4,096: every number but zero over- or underflows at both (R130). -/
theorem toFp32_scale2_clamp {v : Val} (h : v.within 1000) (k : Int) :
    toFp32 (v.scale2 (max (-4096) (min 4096 k))) = toFp32 (v.scale2 k) := by
  cases v with
  | nan => rfl
  | inf p => rfl
  | num p n e d =>
    obtain ⟨rfl, hn, hlo, hhi⟩ := h
    simp only [Val.scale2]
    by_cases h0 : n = 0
    · rw [h0, toFp32_zero, toFp32_zero]
    by_cases hbig : 4096 < k
    · rw [toFp32_huge h0 (by omega), toFp32_huge h0 (by omega)]
    by_cases hsmall : k < -4096
    · rw [toFp32_tiny hn (by omega), toFp32_tiny hn (by omega)]
    · have hk : max (-4096) (min 4096 k) = k := by omega
      rw [hk]

/-! ### Codes of results -/

/-- FP32 codes have 32 bits. -/
theorem toFp32_lt (v : Val) : (toFp32 v).1 < 2 ^ 32 := by
  have hs : fpFp32.signBit = 2 ^ 31 := rfl
  have hm : fpFp32.maxCode = 255 * 2 ^ 23 - 1 := rfl
  cases v with
  | nan => decide
  | inf p => cases p <;> decide
  | num p n e d =>
    rw [toFp32, Fp.write, hs, hm]
    split
    next hle =>
      have hp : (if p then 2 ^ 31 else 0) ≤ 2 ^ 31 := by cases p <;> decide
      exact Nat.lt_of_le_of_lt (Nat.add_le_add hp hle) (by decide)
    next => cases p <;> decide

theorem writeInt8_one : (writeInt 8 (Val.ofInt 1)).1 = 1 := by decide

theorem writeInt8_zero : (writeInt 8 Val.zero).1 = 0 := by decide

end Sys2Proof.Machine
end

section
/-! SUPPORT. The end of a vector instruction: the results that its command leaves in the destination, for the elementwise operations and
the reductions (R130 to R132, R156, R228). -/

namespace Sys2Proof.Machine

/-! ### What reads of storage do not see -/

/-- Reads of storage depend on stored bytes and on what the far devices hold alone. -/
theorem peek_congr {s t : State} (hm : s.mem = t.mem) (hf : s.farMem = t.farMem) (hp : s.far = t.far) (l : Nat) :
    s.peek l = t.peek l := by
  simp only [State.peek, State.farFill, hm, hf, hp]

theorem peek_orFlags (s : State) (c k : Nat) (f : BitVec 8) (l : Nat) : (s.orFlags c k f).peek l = s.peek l := by
  unfold State.orFlags State.modSlot
  split <;> rfl

theorem peek_idleUnit (s : State) (c : Nat) (u : UnitId) (f : Fld) (l : Nat) : (s.idleUnit c u f).peek l = s.peek l := by
  simp only [State.idleUnit]
  split <;> rfl

theorem peek_afterEnd (s : State) (c : Nat) (u : UnitId) (f : Fld) (l : Nat) : (s.afterEnd c u f).peek l = s.peek l :=
  peek_idleUnit _ c u f l

theorem peek_bump (s : State) (f : Fld) (i : List Nat) (n l : Nat) : (s.bump f i n).peek l = s.peek l := rfl

/-! ### The end of the instruction -/

/-- Without an injected error the instruction that the vector unit executes ends (R156, R157). -/
theorem unitEnd_vector {s : State} {c : Nat} {r : Running} {sl : Slot} (hr : (s.core c).runs .vector = some r)
    (hs : s.slot c r.entry.slot.val = some sl) (hi : r.inj = 0) : s.unitEnd c .vector = s.vectorEnd c r sl := by
  have hinj : decide ((if r.again then 2 else 1) ≤ r.inj) = false := by
    rw [hi]
    cases r.again <;> rfl
  simp only [State.unitEnd, hr, hs, hinj, Bool.false_eq_true, if_false]

/-- Where no operand byte has bad parity, what a finished instruction leaves in storage is what its effect leaves there. -/
theorem peek_finish {s : State} {c : Nat} {r : Running} {reads : List (Nat × Nat)} {f : State → State × BitVec 8}
    (hp : s.parityHit reads = none) (cnt : Fld) (u : UnitId) (st : Fld) (l : Nat) :
    (s.finish c r reads f (fun t => (t.bump cnt [c]).afterEnd c u st)).peek l = (f s).1.peek l := by
  simp only [State.finish, hp, peek_afterEnd, peek_bump, peek_orFlags]

/-- An instruction of the vector unit that ends. -/
structure State.EndsVector (s : State) (c : Nat) (r : Running) (sl : Slot) : Prop where
  slot : s.slot c r.entry.slot.val = some sl
  runs : (s.core c).runs .vector = some r
  clean : s.parityHit (unitReads sl r.entry.instr) = none
  noError : r.inj = 0

/-- A tensor's elements have the codes that `f` gives. -/
def State.holdsCodes (u : State) (d : Desc) (f : Nat → Nat → Nat) : Prop := ∀ m < d.rows, ∀ j < d.cols, u.elemCode d m j = f m j

section
variable {s : State} {core : CoreId} {r : Running} {sl : Slot} {d : Desc} {f : Nat → Nat → Nat}

theorem settles_vectorEnd (h : s.EndsVector core.val r sl) {t : State} (ht : ∀ l, (s.vectorEnd core.val r sl).peek l = t.peek l)
    (hf : t.holdsCodes d f) :
    settles (exec (.unitInstructionEnd core .vector) s) (fun u => u.holdsCodes d f) := by
  refine ⟨s.vectorEnd core.val r sl, ?_, fun m hm j hj => (elemCode_congr ht d m j).trans (hf m hm j hj)⟩
  rw [← unitEnd_vector h.runs h.slot h.noError]
  rfl

/-- An elementwise instruction settles with the elements that its effect leaves. -/
theorem settles_vec (h : s.EndsVector core.val r sl) {i : Instr} {v : VecIns} (hi : r.entry.instr = i) (hv : vecOf i = some v)
    (hd : sl.td v.td = some d) (hf : (s.doVec sl v 0 d.rows).1.holdsCodes d f) :
    settles (exec (.unitInstructionEnd core .vector) s) (fun u => u.holdsCodes d f) := by
  refine settles_vectorEnd h (fun l => ?_) hf
  simp only [State.vectorEnd, hi, hv, hd]
  exact peek_finish (hi ▸ h.clean) _ _ _ l

/-- A reduction settles with the elements that its effect leaves. -/
theorem settles_red (h : s.EndsVector core.val r sl) {i : Instr} {op : RedOp} {td ta : TReg} (hi : r.entry.instr = i)
    (hv : vecOf i = none) (hq : redOf i = some (op, td, ta)) (hd : sl.td td = some d)
    (hf : (s.doRed sl op td ta 0 d.rows).1.holdsCodes d f) :
    settles (exec (.unitInstructionEnd core .vector) s) (fun u => u.holdsCodes d f) := by
  refine settles_vectorEnd h (fun l => ?_) hf
  simp only [State.vectorEnd, hi, hv, hq, hd]
  exact peek_finish (hi ▸ h.clean) _ _ _ l

/-! ### Elementwise results -/

/-- The value of a tensor operand's element; zero for an operand that the instruction does not have. -/
def State.operand (s : State) (sl : Slot) (t : Option TReg) (m j : Nat) : Val :=
  match t.bind sl.td with
  | some x => s.elem x m j
  | none => Val.zero

/-- The scalar operand's register, zero where the instruction has none. -/
def Slot.scalarB (sl : Slot) (v : VecIns) : Word := match v.sb with | some r => sl.s r | none => 0#64

/-- The exact result of an elementwise instruction at a place, whose destination is `d` (R130). -/
def State.vecResult (s : State) (sl : Slot) (v : VecIns) (d : Desc) (m j : Nat) : Val :=
  let fa : Fmt := match v.ta.bind sl.td with | some x => x.fmt | none => d.fmt
  let b : Val := match v.tb with | some _ => s.operand sl v.tb m j | none => scalarVal fa (sl.scalarB v)
  (vecVal v.op (s.operand sl v.ta m j) b (s.operand sl v.tc m j) (max (-4096) (min 4096 (sl.scalarB v).toInt))).1

/-- Where the destination is neither an integer of 32 or 64 bits nor microscaled, each result is written in its format. -/
theorem doVec_codes {v : VecIns} (hd : sl.td v.td = some d) (hop : v.op ≠ .sel) (hint : isInt32or64 d.fmt = false)
    (hmx : d.fmt.isMx = false) :
    (s.doVec sl v 0 d.rows).1 = s.writeCodes d (fun m j => (d.fmt.write d.sat (s.vecResult sl v d m j)).1) := by
  simp only [State.doVec, hd, hop, if_false]
  rw [if_neg]
  · exact writeTensor_codes hmx s _
  · cases v.op <;> simp [hint]

/-- VSEL copies at each place the code of the element that it chooses (R130). -/
theorem doVec_sel {v : VecIns} {da db dc : Desc} {ta tb tc : TReg} (hd : sl.td v.td = some d) (hop : v.op = .sel)
    (hta : v.ta = some ta) (htb : v.tb = some tb) (htc : v.tc = some tc)
    (ha : sl.td ta = some da) (hb : sl.td tb = some db) (hc : sl.td tc = some dc) :
    (s.doVec sl v 0 d.rows).1 =
      s.writeCodes d (fun m j => if s.elemCode da m j ≠ 0 then s.elemCode db m j else s.elemCode dc m j) := by
  simp only [State.doVec, hd, hop, if_true, hta, htb, htc, Option.bind_some, ha, rows_from_zero]
  refine congrArg (s.writeCodes d) (funext fun m => funext fun j => ?_)
  by_cases h : s.elemCode da m j = 0 <;> simp [h, hb, hc]

theorem doRed_codes {op : RedOp} {td ta : TReg} {da : Desc} (hd : sl.td td = some d) (ha : sl.td ta = some da)
    (hmx : d.fmt.isMx = false) : (s.doRed sl op td ta 0 d.rows).1 =
      s.writeCodes d (fun m _ => (d.fmt.write d.sat (redRow op ((List.range da.cols).map (s.elem da m))).1).1) := by
  simp only [State.doRed, hd, ha]
  exact writeTensor_codes hmx s _

/-! ### The codes of the results -/

/-- Codes that fit the elements' width are what the elements then hold. -/
theorem Desc.Apart.holdsCodes_writeCodes {w : Nat} (h : d.Apart w) (hf : ∀ m j, f m j < 2 ^ d.fmt.width) :
    (s.writeCodes d f).holdsCodes d f := by
  intro m hm j hj
  rw [h.elemCode_writeCodes hm hj, ← pow256, ← h.whole, Nat.mod_eq_of_lt (hf m j)]

theorem write_fp32 (satur : Bool) (v : Val) : Fmt.fp32.write satur v = toFp32 v := by
  cases satur <;> rfl

/-- A comparison's value is written as 1 or 0. -/
theorem write_int8_ite (satur : Bool) (p : Prop) [Decidable p] :
    (Fmt.int8.write satur (if p then Val.ofInt 1 else Val.zero)).1 = if p then 1 else 0 := by
  split
  · exact writeInt8_one
  · exact writeInt8_zero

/-- The six relations of VCMP by their codes (R228). -/
theorem relHolds_iff (rel : Nat) (p q : Val) : relHolds rel p q = true ↔
    (rel = 0 ∧ p.eq q = true) ∨ (rel = 1 ∧ p.eq q = false) ∨ (rel = 2 ∧ p.lt q = true) ∨
      (rel = 3 ∧ p.le q = true) ∨ (rel = 4 ∧ q.lt p = true) ∨ (5 ≤ rel ∧ q.le p = true) := by
  match rel with
  | 0 | 1 | 2 | 3 | 4 | _ + 5 => simp [relHolds]

theorem operand_some {t : TReg} {x : Desc} (h : sl.td t = some x) (m j : Nat) : s.operand sl (some t) m j = s.elem x m j := by
  simp only [State.operand, Option.bind_some, h]

/-- An elementwise instruction with an FP32 destination leaves its results, rounded once. -/
theorem settles_vec_fp32 {w : Nat} (h : s.EndsVector core.val r sl) (hA : d.Apart w) (hfmt : d.fmt = .fp32) {i : Instr} {v : VecIns}
    {f : Nat → Nat → Val} (hi : r.entry.instr = i) (hv : vecOf i = some v) (hd : sl.td v.td = some d) (hop : v.op ≠ .sel)
    (hf : ∀ m j, toFp32 (s.vecResult sl v d m j) = toFp32 (f m j)) :
    settles (exec (.unitInstructionEnd core .vector) s) (fun u => u.holdsCodes d (fun m j => (toFp32 (f m j)).1)) := by
  refine settles_vec h hi hv hd ?_
  rw [doVec_codes hd hop (by rw [hfmt]; rfl) (by rw [hfmt]; rfl)]
  simp only [hfmt, write_fp32, hf]
  exact hA.holdsCodes_writeCodes (fun m j => by rw [hfmt]; exact toFp32_lt (f m j))

/-- A reduction into one FP32 column leaves each row's result, rounded once. -/
theorem settles_red_fp32 {w : Nat} (h : s.EndsVector core.val r sl) (hA : d.Apart w) (hfmt : d.fmt = .fp32) {i : Instr}
    {op : RedOp} {td ta : TReg} {da : Desc} {f : List Val → Val × BitVec 8} (hi : r.entry.instr = i) (hv : vecOf i = none)
    (hq : redOf i = some (op, td, ta)) (hd : sl.td td = some d)
    (ha : sl.td ta = some da) (hf : ∀ l, (redRow op l).1 = (f l).1) :
    settles (exec (.unitInstructionEnd core .vector) s) (fun u => u.holdsCodes d
      (fun m _ => (toFp32 (f ((List.range da.cols).map (s.elem da m))).1).1)) := by
  refine settles_red h hi hv hq hd ?_
  rw [doRed_codes hd ha (by rw [hfmt]; rfl)]
  simp only [hfmt, write_fp32, hf]
  exact hA.holdsCodes_writeCodes (fun m _ => by rw [hfmt]; exact toFp32_lt _)

end

/-- Settles O28: the unit ends with what the instruction's effect leaves, and elements that do not overlap read back as written. -/
theorem vectorElementResults : Obligations.VectorElementResults := by
  intro core g s r sl td ta tb tc sb rel d da db dc c i hslot hruns hclean hinj hd ha hb hc w addr hw hwhole hnear hapart a b x k gives
  have hE : s.EndsVector core.val r sl := ⟨hslot, hruns, hclean, hinj⟩
  have hA : d.Apart w := ⟨hwhole, hnear, hapart⟩
  refine ⟨?elementwise, ?reduction, ?select, ?compare⟩
  case elementwise =>
    intro hfmt f hif
    simp only [List.mem_cons, List.not_mem_nil, or_false, Prod.mk.injEq] at hif
    rcases hif with ⟨hi, rfl⟩ | ⟨hi, rfl⟩ | ⟨hi, rfl⟩ | ⟨hi, rfl⟩ | ⟨hi, rfl⟩ | ⟨hi, rfl⟩ | ⟨hi, rfl⟩ | ⟨hi, rfl⟩ | ⟨hi, rfl⟩ |
      ⟨hi, rfl⟩ | ⟨hi, rfl⟩ | ⟨hi, rfl⟩
    all_goals
      refine settles_vec_fp32 hE hA hfmt hi rfl hd (by simp) (fun m j => ?_)
      simp only [State.vecResult, vecVal, operand_some ha, operand_some hb, operand_some hc, a, b, x]
    · -- VMUL takes its scalar in the format of the source.
      simp only [Option.bind_some, ha]
      rfl
    · -- VSCALE cuts its scalar to ±4,096.
      exact toFp32_scale2_clamp (elem_within s da m j) k
    · -- VBCAST has no source and takes its scalar in the destination's format.
      simp only [Option.bind_none, hfmt]
      rfl
  case reduction =>
    intro hfmt hcols f hif
    simp only [List.mem_cons, List.not_mem_nil, or_false, Prod.mk.injEq] at hif
    rcases hif with ⟨hi, rfl⟩ | ⟨hi, rfl⟩ | ⟨hi, rfl⟩
    all_goals exact settles_red_fp32 hE hA hfmt hi rfl rfl hd ha (fun _ => rfl)
  case select =>
    intro hi hmx hfb hfc
    refine settles_vec hE hi rfl hd ?_
    rw [doVec_sel hd rfl rfl rfl rfl ha hb hc]
    refine hA.holdsCodes_writeCodes (fun m j => ?_)
    split
    · exact hfb ▸ elemCode_lt s db m j
    · exact hfc ▸ elemCode_lt s dc m j
  case compare =>
    intro hi hfmt
    refine settles_vec hE hi rfl hd ?_
    rw [doVec_codes hd (by simp) (by rw [hfmt]; rfl) (by rw [hfmt]; rfl)]
    simp only [State.vecResult, vecVal, operand_some ha, operand_some hb, hfmt, write_int8_ite, relHolds_iff]
    exact hA.holdsCodes_writeCodes (fun m j => by rw [hfmt]; split <;> decide)

end Sys2Proof.Machine
end

section
/-! SUPPORT. The registers of a core's units, which are laid out alike, and the instruction that a unit executes: what a write of one
leaves of the others (R4, R126, R157). -/

namespace Sys2Proof.Machine

/-! ### Registers laid out alike -/

/-- Registers of two kinds that are laid out alike, from different offsets, lie apart at every index. -/
theorem regAddr_ne {k k' : RegKind} (hd : k.dims = k'.dims) (hb : k.base ≠ k'.base) (i : List Nat) : regAddr k i ≠ regAddr k' i := by
  simpa only [regAddr, hd, ne_eq, Nat.add_right_cancel_iff] using hb

theorem get_put_alike (s : State) {f g : Fld} (i : List Nat) (v : Nat) (hd : g.kind.dims = f.kind.dims)
    (hb : g.kind.base ≠ f.kind.base) : (s.put f i v).get g i = s.get g i :=
  get_put_other s f g i i v (regAddr_ne hd hb i)

theorem get_bump_alike (s : State) {f g : Fld} (i : List Nat) (n : Nat) (hd : g.kind.dims = f.kind.dims)
    (hb : g.kind.base ≠ f.kind.base) : (s.bump f i n).get g i = s.get g i :=
  get_put_alike s i _ hd hb

/-- A field reads as the value that was written, where that fits it. -/
theorem get_put_fits {f : Fld} {v : Nat} (hv : v < 2 ^ f.len) (s : State) (i : List Nat) : (s.put f i v).get f i = v :=
  (get_put_same s f i v).trans (Nat.mod_eq_of_lt hv)

/-- A counter of `w` bits that is advanced. -/
theorem get_bump_width (w : Nat) {f : Fld} (hw : f.len = w) (s : State) (i : List Nat) (n : Nat) :
    (s.bump f i n).get f i = sat w (s.get f i + n) :=
  hw ▸ get_bump s f i n

theorem flag_of_get_eq {s : State} {f : Fld} {i : List Nat} (h : s.get f i = 1) : s.flag f i = true := by
  rw [State.flag, h]
  rfl

/-! ### What registers and cores leave alone -/

/-- From `s` to `t` nothing but registers and cores has changed. -/
def State.keepsRest (s t : State) : Prop := ∃ regs cores, t = { s with regs := regs, cores := cores }

namespace State.keepsRest

variable {s t : State}

theorem self (s : State) : s.keepsRest s := ⟨_, _, rfl⟩

theorem eq (h : s.keepsRest t) : t = { s with regs := t.regs, cores := t.cores } := by
  obtain ⟨_, _, rfl⟩ := h
  rfl

theorem put (h : s.keepsRest t) (f : Fld) (i : List Nat) (v : Nat) : s.keepsRest (t.put f i v) := by
  obtain ⟨_, _, rfl⟩ := h
  exact ⟨_, _, rfl⟩

theorem bump (h : s.keepsRest t) (f : Fld) (i : List Nat) (n : Nat) : s.keepsRest (t.bump f i n) := h.put f i _

theorem puts (h : s.keepsRest t) (l : List (Fld × List Nat × Nat)) : s.keepsRest (t.puts l) := by
  induction l generalizing t with
  | nil => exact h
  | cons x l ih => exact ih (h.put x.1 x.2.1 x.2.2)

theorem setRunning (h : s.keepsRest t) (c : Nat) (u : UnitId) (r : Running) : s.keepsRest (t.setRunning c u r) := by
  obtain ⟨_, _, rfl⟩ := h
  exact ⟨_, _, rfl⟩

end State.keepsRest

/-! ### The instruction that a unit executes -/

@[simp] theorem CoreSt.runs_setRuns (x : CoreSt) (u : UnitId) (r : Option Running) : (x.setRuns u r).runs u = r := by
  simp only [CoreSt.runs, CoreSt.setRuns, tget_tset_same]

theorem core_put (s : State) (f : Fld) (i : List Nat) (v c : Nat) : (s.put f i v).core c = s.core c := rfl

theorem core_bump (s : State) (f : Fld) (i : List Nat) (n c : Nat) : (s.bump f i n).core c = s.core c := rfl

theorem runs_setRunning (s : State) (c : Nat) (u : UnitId) (r : Running) : ((s.setRunning c u r).core c).runs u = some r := by
  rw [State.setRunning, core_modCore_same, CoreSt.runs_setRuns]

theorem get_setRunning (s : State) (c : Nat) (u : UnitId) (r : Running) (f : Fld) (i : List Nat) :
    (s.setRunning c u r).get f i = s.get f i := get_congr rfl f i

end Sys2Proof.Machine
end

section
/-! SUPPORT. Entries of the accumulator stores: what a read of one returns after a write of the same and of another (R61, R68, R109). -/

namespace Sys2Proof.Machine

/-! ### Numbers of several bytes -/

theorem peekLE_eq_leOf (s : State) (l n : Nat) : s.peekLE l n = leOf (s.peeks l n) := by
  induction n generalizing l with
  | zero => rfl
  | succ n ih =>
    rw [State.peekLE, ih, State.peeks, State.peeks, List.range_succ_eq_map, List.map_cons, List.map_map, leOf]
    simp only [Function.comp_def, Nat.succ_eq_add_one, Nat.add_zero, Nat.add_assoc, Nat.add_comm 1]

theorem pokeLE_eq_pokes (s : State) (l n v : Nat) : s.pokeLE l n v = s.pokes l (leBytes n v) := by
  induction n generalizing s l v with
  | zero => rfl
  | succ n ih => rw [State.pokeLE, ih, leBytes, State.pokes]

/-- Storage that reads alike holds the same numbers. -/
theorem peekLE_congr {s t : State} (h : ∀ l, s.peek l = t.peek l) (l n : Nat) : s.peekLE l n = t.peekLE l n := by
  simp only [peekLE_eq_leOf, State.peeks, h]

theorem pokes_accTags (bs : List Byte) (s : State) (l : Nat) : (s.pokes l bs).accTags = s.accTags := by
  induction bs generalizing s l with
  | nil => rfl
  | cons b t ih => rw [State.pokes, ih, poke_accTags]

/-! ### The addresses of the stores (R28) -/

/-- A byte of an accumulator store has one address alone. -/
theorem canon_acc {l : Nat} (h : accBase ≤ l ∧ l < accBase + 2 ^ 27) : canon l = l := by
  obtain ⟨hlo, hhi⟩ := h
  rw [accBase] at hlo hhi
  have htarget : targetOfLocal l = .acc (bits l 21 6) (bits l 0 21) := by
    unfold targetOfLocal
    rw [if_neg (by omega), if_neg (by omega), if_neg (by omega), if_pos (by omega)]
  rw [canon, htarget]

theorem sameByte_acc {l l' : Nat} (h : accBase ≤ l ∧ l < accBase + 2 ^ 27) (h' : accBase ≤ l' ∧ l' < accBase + 2 ^ 27)
    (hb : sameByte l l') : l = l' := by
  rcases hb with ⟨-, he⟩ | ⟨-, -, he⟩
  · exact he
  · rwa [canon_acc h, canon_acc h'] at he

/-- The bytes of an entry lie in the stores. -/
theorem accEntryAddr_mem {c e i : Nat} (hc : c < 64) (he : e < 131072) (hi : i < 16) :
    accBase ≤ accEntryAddr c e + i ∧ accEntryAddr c e + i < accBase + 2 ^ 27 := by
  unfold accEntryAddr
  omega

/-! ### One entry -/

/-- An entry depends on stored bytes and on the stores' tags alone. -/
theorem accGet_congr {s t : State} (h : ∀ l, s.peek l = t.peek l) (ht : s.accTags = t.accTags) (c e : Nat) :
    s.accGet c e = t.accGet c e := by
  simp only [State.accGet, peekLE_congr h, ht]

/-- The tag beside entry `k` of the stores written. -/
def State.setTag (s : State) (k : Nat) (tag : BitVec 8) : State := { s with accTags := tset 0#8 s.accTags k tag }

theorem peek_setTag (s : State) (k : Nat) (tag : BitVec 8) (l : Nat) : (s.setTag k tag).peek l = s.peek l :=
  peek_congr rfl rfl rfl l

theorem setTag_cores (s : State) (k : Nat) (tag : BitVec 8) : (s.setTag k tag).cores = s.cores := rfl

/-- An entry is written as its bytes and its tag. -/
theorem accSet_eq (s : State) (c e : Nat) (w : Wsf) :
    s.accSet c e w = (s.pokes (accEntryAddr c e) (leBytes 16 w.n.toNat)).setTag (c * 131072 + e) w.tag := by
  simp only [State.accSet, pokeLE_eq_pokes, State.setTag]

theorem accTags_accSet (s : State) (c e : Nat) (w : Wsf) :
    (s.accSet c e w).accTags = tset 0#8 s.accTags (c * 131072 + e) w.tag := by
  simp only [accSet_eq, State.setTag, pokes_accTags]

section
variable {c e e' : Nat} (hc : c < 64) (he : e < 131072)
include hc he

theorem accGet_accSet_same (s : State) (w : Wsf) : (s.accSet c e w).accGet c e = w := by
  have hbytes : (s.accSet c e w).peeks (accEntryAddr c e) 16 = leBytes 16 w.n.toNat := by
    refine List.ext_getElem (by rw [length_peeks, length_leBytes]) fun i _ hi => ?_
    have hlt : ∀ {j}, j < (leBytes 16 w.n.toNat).length → j < 16 := fun h => by rwa [length_leBytes] at h
    simp only [State.peeks, List.getElem_map, List.getElem_range, accSet_eq, peek_setTag]
    refine peek_pokes_same _ s _ (fun i j hi hj hs => ?_) i hi
    have := sameByte_acc (accEntryAddr_mem hc he (hlt hi)) (accEntryAddr_mem hc he (hlt hj)) hs
    omega
  have hn : w.n.toNat % 256 ^ 16 = w.n.toNat := Nat.mod_eq_of_lt (by have := w.n.isLt; omega)
  rw [State.accGet, peekLE_eq_leOf, hbytes, leOf_leBytes, hn, BitVec.ofNat_toNat, BitVec.setWidth_eq, accTags_accSet, tget_tset_same]

theorem accGet_accSet_other (he' : e' < 131072) (hne : e' ≠ e) (s : State) (w : Wsf) :
    (s.accSet c e w).accGet c e' = s.accGet c e' := by
  have hbytes : (s.accSet c e w).peeks (accEntryAddr c e') 16 = s.peeks (accEntryAddr c e') 16 := by
    refine List.map_congr_left fun i hi => ?_
    have hi := List.mem_range.mp hi
    rw [accSet_eq, peek_setTag]
    refine peek_pokes_other _ s _ _ fun j hj hs => ?_
    rw [length_leBytes] at hj
    have := sameByte_acc (accEntryAddr_mem hc he hj) (accEntryAddr_mem hc he' hi) hs
    unfold accEntryAddr at this
    omega
  simp only [State.accGet, peekLE_eq_leOf, hbytes, accTags_accSet, tget_tset_ne _ _ _ (show c * 131072 + e' ≠ c * 131072 + e by omega)]

end

end Sys2Proof.Machine
end

section
/-! SUPPORT. The end of the instructions of the matrix array: its counters, and the effects of MZERO, MACC and MCVT (R108, R115, R116,
R125, R126). -/

namespace Sys2Proof.Machine

/-! ### What writes of storage do not touch -/

/-- What every step of a fold keeps, the fold keeps. -/
theorem foldl_keeps {σ β α : Type} (p : σ → α) {f : σ → β → σ} (h : ∀ s x, p (f s x) = p s) (l : List β) (s : σ) :
    p (l.foldl f s) = p s :=
  List.foldlRecOn (motive := fun t => p t = p s) l f rfl (fun t ht x _ => (h t x).trans ht)

theorem pokes_cores (bs : List Byte) (s : State) (l : Nat) : (s.pokes l bs).cores = s.cores := by
  induction bs generalizing s l with
  | nil => rfl
  | cons b t ih => rw [State.pokes, ih, poke_cores]

theorem accSet_cores (s : State) (c e : Nat) (w : Wsf) : (s.accSet c e w).cores = s.cores := by
  rw [accSet_eq, setTag_cores, pokes_cores]

theorem setWsfElem_cores (s : State) (d : Desc) (m j : Nat) (w : Wsf) : (s.setWsfElem d m j w).cores = s.cores := by
  simp only [State.setWsfElem]
  split
  · exact accSet_cores s _ _ _
  · rw [poke_cores, pokeLE_eq_pokes, pokes_cores]

theorem setElemCode_cores (s : State) (d : Desc) (m j v : Nat) : (s.setElemCode d m j v).cores = s.cores :=
  foldl_keeps State.cores (fun _ _ => poke_cores _ _ _) _ s

theorem writeBlock_cores (s : State) (d : Desc) (cells : List (Nat × Nat)) (vs : List Val) :
    (s.writeBlock d cells vs).1.cores = s.cores := by
  cases cells with
  | nil => rfl
  | cons p t => exact (foldl_keeps State.cores (fun _ _ => setElemCode_cores _ _ _ _ _) _ _).trans (poke_cores _ _ _)

theorem writeTensor_cores (s : State) (d : Desc) (r0 r1 : Nat) (f : Nat → Nat → Val) :
    (s.writeTensor d r0 r1 f).1.cores = s.cores := by
  have keeps {β : Type} {g : State × BitVec 8 → β → State × BitVec 8} (h : ∀ x b, (g x b).1.cores = x.1.cores) (l : List β)
      (x : State × BitVec 8) : (l.foldl g x).1.cores = x.1.cores := foldl_keeps (fun y : State × BitVec 8 => y.1.cores) h l x
  simp only [State.writeTensor]
  split
  · refine keeps (fun x cells => ?_) _ (s, 0#8)
    exact writeBlock_cores x.1 d cells _
  · exact keeps (fun x m => keeps (fun x j => setElemCode_cores x.1 d _ _ _) _ x) _ (s, 0#8)

theorem doMcvt_cores (s : State) (ds dd : Desc) : (s.doMcvt ds dd).1.cores = s.cores := by
  unfold State.doMcvt
  split
  · exact foldl_keeps State.cores (fun t m => foldl_keeps State.cores (fun t j => setWsfElem_cores t dd _ _ _) _ t) _ s
  · exact writeTensor_cores s dd _ _ _

/-! ### The effect of MZERO (R108) -/

/-- MZERO leaves every entry of a region inside the store zero with no tag. -/
theorem accGet_doMzero {c : Nat} (hc : c < 64) {d : Desc} (hin : d.entry0 + (d.rows - 1) * d.stride + d.cols ≤ 131072) (s : State)
    {m j : Nat} (hm : m < d.rows) (hj : j < d.cols) : (s.doMzero c d).accGet c (d.entry0 + m * d.stride + j) = Wsf.zero := by
  have hentry : ∀ p ∈ placesOf (List.range d.rows) (List.range d.cols), d.entry0 + p.1 * d.stride + p.2 < 131072 := by
    intro p hp
    obtain ⟨hp1, hp2⟩ := mem_placesOf.mp hp
    rw [List.mem_range] at hp1 hp2
    have := Nat.mul_le_mul_right d.stride (Nat.le_sub_one_of_lt hp1)
    omega
  rw [State.doMzero, foldl_grid (fun (t : State) (p : Nat × Nat) => t.accSet c (d.entry0 + p.1 * d.stride + p.2) Wsf.zero)]
  refine foldl_establishes _ (fun p t => t.accGet c (d.entry0 + p.1 * d.stride + p.2) = Wsf.zero) _ ?_ ?_ s (m, j)
    (mem_placesOf.mpr ⟨List.mem_range.mpr hm, List.mem_range.mpr hj⟩)
  · exact fun t p hp => accGet_accSet_same hc (hentry p hp) t _
  · intro t p hp q hq _ hzero
    -- Two places may be one entry, which is then written zero again.
    by_cases heq : d.entry0 + q.1 * d.stride + q.2 = d.entry0 + p.1 * d.stride + p.2
    · rw [heq]
      exact accGet_accSet_same hc (hentry p hp) t _
    · rw [accGet_accSet_other hc (hentry p hp) (hentry q hq) heq]
      exact hzero

/-! ### A unit whose instruction has ended -/

theorem idleUnit_cores (s : State) (c : Nat) (u : UnitId) (f : Fld) : (s.idleUnit c u f).cores = s.cores := by
  simp only [State.idleUnit]
  split <;> rfl

theorem idleUnit_accTags (s : State) (c : Nat) (u : UnitId) (f : Fld) : (s.idleUnit c u f).accTags = s.accTags := by
  simp only [State.idleUnit]
  split <;> rfl

theorem get_idleUnit_alike (s : State) (c : Nat) (u : UnitId) {f g : Fld} (hd : g.kind.dims = f.kind.dims)
    (hb : g.kind.base ≠ f.kind.base) : (s.idleUnit c u f).get g [c] = s.get g [c] := by
  simp only [State.idleUnit]
  split
  · exact get_put_alike s _ _ hd hb
  · rfl

theorem core_afterEnd (s : State) (c : Nat) (u : UnitId) (f : Fld) : (s.afterEnd c u f).core c = (s.core c).setRuns u none :=
  (State.core_congr (idleUnit_cores _ c u f) c).trans (core_modCore_same _ _ _)

theorem runs_afterEnd (s : State) (c : Nat) (u : UnitId) (f : Fld) : ((s.afterEnd c u f).core c).runs u = none := by
  rw [core_afterEnd, CoreSt.runs_setRuns]

theorem slot_afterEnd (s : State) (c k : Nat) (u : UnitId) (f : Fld) : (s.afterEnd c u f).slot c k = s.slot c k := by
  rw [State.slot, core_afterEnd]
  rfl

theorem accTags_afterEnd (s : State) (c : Nat) (u : UnitId) (f : Fld) : (s.afterEnd c u f).accTags = s.accTags :=
  idleUnit_accTags _ c u f

theorem get_afterEnd_alike (s : State) (c : Nat) (u : UnitId) {f g : Fld} (hd : g.kind.dims = f.kind.dims)
    (hb : g.kind.base ≠ f.kind.base) : (s.afterEnd c u f).get g [c] = s.get g [c] :=
  get_idleUnit_alike _ c u hd hb

/-- A unit that was BUSY and has nothing queued is IDLE after its instruction. -/
theorem get_afterEnd_idle {s : State} {c : Nat} {u : UnitId} {f : Fld} (hu : u ≠ .vector) (hb : s.get f [c] = stBusy)
    (hq : (s.core c).queue u = []) : (s.afterEnd c u f).get f [c] = stIdle := by
  have hq' : ((s.core c).setRuns u none).queue u = [] := hq
  have hidle : s.afterEnd c u f = (s.modCore c (·.setRuns u none)).put f [c] stIdle := by
    rw [State.afterEnd, State.idleUnit]
    refine if_pos ⟨hb, ?_⟩
    rw [core_modCore_same, CoreSt.runs_setRuns, hq']
    exact ⟨rfl, rfl, Or.inl hu⟩
  rw [hidle, get_put_same]
  exact Nat.zero_mod _

theorem orFlags_accTags (s : State) (c k : Nat) (f : BitVec 8) : (s.orFlags c k f).accTags = s.accTags :=
  modSlot_accTags s c k _

theorem slot_orFlags {s : State} {c k : Nat} {sl : Slot} (h : s.slot c k = some sl) (f : BitVec 8) :
    (s.orFlags c k f).slot c k = some (sl.orFlags f) := by
  rw [State.orFlags, State.modSlot_some s c k _ sl h, State.slot_setSlot]

/-- Where no operand byte has bad parity an instruction's flags join its command's, and it ends. -/
theorem finish_clean {s : State} {c : Nat} {r : Running} {reads : List (Nat × Nat)} (hp : s.parityHit reads = none)
    (f : State → State × BitVec 8) (after : State → State) :
    s.finish c r reads f after = after ((f s).1.orFlags c r.entry.slot.val (f s).2) := by
  simp only [State.finish, hp]

/-! ### The ends (R116, R126) -/

/-- The array after an instruction of slot `k` that left `x.1`, with its flags `x.2`. -/
def State.arrayEnds (c k : Nat) (x : State × BitVec 8) : State := (x.1.orFlags c k x.2).afterEnd c .matrix F.mxaStatus_state

theorem runs_arrayEnds (c k : Nat) (x : State × BitVec 8) : ((State.arrayEnds c k x).core c).runs .matrix = none :=
  runs_afterEnd _ c .matrix _

theorem peek_arrayEnds (c k : Nat) (x : State × BitVec 8) (l : Nat) : (State.arrayEnds c k x).peek l = x.1.peek l :=
  (peek_afterEnd _ _ _ _ l).trans (peek_orFlags _ _ _ _ l)

theorem accGet_arrayEnds (c k : Nat) (x : State × BitVec 8) (e : Nat) : (State.arrayEnds c k x).accGet c e = x.1.accGet c e :=
  accGet_congr (peek_arrayEnds c k x) ((accTags_afterEnd _ _ _ _).trans (orFlags_accTags _ _ _ _)) c e

theorem slot_arrayEnds {c k : Nat} {x : State × BitVec 8} {sl : Slot} (h : x.1.slot c k = some sl) :
    (State.arrayEnds c k x).slot c k = some (sl.orFlags x.2) :=
  (slot_afterEnd _ c k .matrix _).trans (slot_orFlags h x.2)

section
variable {s : State} {c : Nat} {r : Running} {sl : Slot} (hr : (s.core c).runs .matrix = some r)
  (hs : s.slot c r.entry.slot.val = some sl)
include hr hs

theorem mmaEnd_mma {g : Issue} {tw tx tout : TReg} {acc : Bool} {dw dx : Desc} (hi : r.entry.instr = .mma g tw tx tout acc)
    (hw : sl.td tw = some dw) (hx : sl.td tx = some dx) (hrow : r.row = dx.rows) :
    s.mmaEnd c = ((s.bump F.mxaInstructions_count [c]).bump F.mxaMacCount_count [c] (dw.rows * dw.cols * dx.rows)).afterEnd c
      .matrix F.mxaStatus_state := by
  simp only [State.mmaEnd, hr, hs, hi, hw, hx, hrow, Nat.lt_irrefl, if_false]

theorem mmaEnd_mzero {g : Issue} {tout : TReg} {dt : Desc} (hi : r.entry.instr = .mzero g tout) (ht : sl.td tout = some dt)
    (hp : s.parityHit (unitReads sl r.entry.instr) = none) :
    s.mmaEnd c = State.arrayEnds c r.entry.slot.val (s.doMzero c dt, 0#8) := by
  simp only [State.mmaEnd, hr, hs, hi, ht, finish_clean (hi ▸ hp), State.arrayEnds]

theorem mmaEnd_macc {g : Issue} {ts tout : TReg} {ds dt : Desc} (hi : r.entry.instr = .macc g ts tout) (hts : sl.td ts = some ds)
    (ht : sl.td tout = some dt) (hp : s.parityHit (unitReads sl r.entry.instr) = none) :
    s.mmaEnd c = State.arrayEnds c r.entry.slot.val (s.doMacc c ds dt, 0#8) := by
  simp only [State.mmaEnd, hr, hs, hi, hts, ht, finish_clean (hi ▸ hp), State.arrayEnds]

theorem mmaEnd_mcvt {g : Issue} {ts td : TReg} {ds dd : Desc} (hi : r.entry.instr = .mcvt g ts td) (hts : sl.td ts = some ds)
    (ht : sl.td td = some dd) (hp : s.parityHit (unitReads sl r.entry.instr) = none) :
    s.mmaEnd c = State.arrayEnds c r.entry.slot.val (s.doMcvt ds dd) := by
  simp only [State.mmaEnd, hr, hs, hi, hts, ht, finish_clean (hi ▸ hp), State.arrayEnds]

end

/-- What an MMA's end leaves in the array's registers. -/
theorem mmaEnds_registers (s : State) (c products : Nat) :
    let u := ((s.bump F.mxaInstructions_count [c]).bump F.mxaMacCount_count [c] products).afterEnd c .matrix F.mxaStatus_state
    u.get F.mxaInstructions_count [c] = sat 64 (s.get F.mxaInstructions_count [c] + 1) ∧
      u.get F.mxaMacCount_count [c] = sat 64 (s.get F.mxaMacCount_count [c] + products) ∧
      (s.get F.mxaStatus_state [c] = stBusy → (s.core c).queue .matrix = [] → u.get F.mxaStatus_state [c] = stIdle) := by
  refine ⟨?instructions, ?products, fun hb hq => get_afterEnd_idle (by decide) ?busy ?queue⟩
  case instructions =>
    rw [get_afterEnd_alike _ c .matrix (by decide) (by decide), get_bump_alike _ _ _ (by decide) (by decide),
      get_bump_width 64 (by decide)]
  case products =>
    rw [get_afterEnd_alike _ c .matrix (by decide) (by decide), get_bump_width 64 (by decide),
      get_bump_alike _ _ _ (by decide) (by decide)]
  case busy => rw [get_bump_alike _ _ _ (by decide) (by decide), get_bump_alike _ _ _ (by decide) (by decide), hb]
  case queue => rw [core_bump, core_bump, hq]

/-- Settles O25: an MMA's end counts it and frees the array; MZERO, MACC and MCVT end with the storage and flags of their effects. -/
theorem matrixInstructionEnds : Obligations.MatrixInstructionEnds := by
  intro core g tw tx tout acc s r sl dt c hr hs
  refine ⟨?mma, ?mzero, ?macc, ?mcvt⟩
  case mma =>
    intro dw dx hi hw hx hrow
    refine ⟨_, rfl, ?_⟩
    rw [mmaEnd_mma hr hs hi hw hx hrow]
    exact ⟨runs_afterEnd _ c .matrix _, mmaEnds_registers s c _⟩
  case mzero =>
    intro hi ht _ hin hp
    refine ⟨_, rfl, ?_⟩
    rw [mmaEnd_mzero hr hs hi ht hp]
    refine ⟨runs_arrayEnds c _ _, fun m hm j hj => ?_⟩
    rw [accGet_arrayEnds]
    exact accGet_doMzero core.isLt hin s hm hj
  case macc =>
    intro ds hi hts ht hp
    refine ⟨_, rfl, ?_⟩
    rw [mmaEnd_macc hr hs hi hts ht hp]
    exact ⟨runs_arrayEnds c _ _, peek_arrayEnds c _ _⟩
  case mcvt =>
    intro ds hi hts ht hp
    refine ⟨_, rfl, ?_⟩
    rw [mmaEnd_mcvt hr hs hi hts ht hp]
    have hslot : (s.doMcvt ds dt).1.slot c r.entry.slot.val = some sl := by
      rw [State.slot, State.core_congr (doMcvt_cores s ds dt)]
      exact hs
    exact ⟨runs_arrayEnds c _ _, peek_arrayEnds c _ _, slot_arrayEnds hslot⟩

end Sys2Proof.Machine
end

section
/-! SUPPORT. The first mismatch of an instruction in each unit: what its record, its repeat and their counter leave (R121, R123, R155,
R172). -/

namespace Sys2Proof.Machine

/-! ### The matrix array (R121, R123) -/

section
variable (s : State) (c row group kind : Nat) (again : Bool) (col : Nat) (e : UEntry)

theorem mxaLog_mismatch : (s.mxaLog c row group kind again col e).get F.mxaStatus_mismatch [c] = 1 := by
  simp (disch := decide) only [State.mxaLog, puts_more, puts_none, get_put_alike]
  exact get_put_fits (by decide) _ _

theorem mxaLog_pc : (s.mxaLog c row group kind again col e).get F.mxaMismatchPc_pc [c] = e.pc % 2 ^ 64 := by
  simp only [State.mxaLog, puts_more, puts_none, get_put_same]
  rfl

theorem mxaLog_replays :
    (s.mxaLog c row group kind again col e).get F.mxaReplays_count [c] = s.get F.mxaReplays_count [c] := by
  simp (disch := decide) only [State.mxaLog, puts_more, puts_none, get_put_alike]

theorem keepsRest_mxaLog : s.keepsRest (s.mxaLog c row group kind again col e) := (State.keepsRest.self s).puts _

end

section
variable {s t : State} {c : Nat} {r : Running}

/-- What the first mismatch of an MMA leaves: its record, and its replay counted. -/
theorem replay_of_mxaMismatch (h : r.again = false) {group kind col : Nat} (ht : t = s.mxaMismatch c r true group kind col) :
    (t.core c).runs .matrix = some { r with again := true } ∧ t.get F.mxaStatus_state [c] = stReplay ∧
      t.get F.mxaReplays_count [c] = sat 32 (s.get F.mxaReplays_count [c] + 1) ∧ t.flag F.mxaStatus_mismatch [c] = true ∧
      t.get F.mxaMismatchPc_pc [c] = r.entry.pc % 2 ^ 64 ∧ s.keepsRest t := by
  simp only [State.mxaMismatch, h, Bool.false_eq_true, if_false, if_true] at ht
  subst ht
  refine ⟨?runs, ?state, ?replays, flag_of_get_eq ?mismatch, ?pc, ?rest⟩
  case runs => rw [core_bump, core_put, runs_setRunning]
  case state => rw [get_bump_alike _ _ _ (by decide) (by decide), get_put_fits (by decide)]
  case replays =>
    rw [get_bump_width 32 (by decide), get_put_alike _ _ _ (by decide) (by decide), get_setRunning, mxaLog_replays]
  case mismatch =>
    rw [get_bump_alike _ _ _ (by decide) (by decide), get_put_beside _ _ _ _ _ (by decide) (by decide), get_setRunning,
      mxaLog_mismatch]
  case pc =>
    rw [get_bump_alike _ _ _ (by decide) (by decide), get_put_alike _ _ _ (by decide) (by decide), get_setRunning, mxaLog_pc]
  case rest => exact (((keepsRest_mxaLog ..).setRunning ..).put ..).bump ..

/-- What the first mismatch of a matrix move leaves: its record, and its repeat. -/
theorem repeat_of_mxaMismatch (h : r.again = false) {group kind col : Nat} (ht : t = s.mxaMismatch c r false group kind col) :
    (t.core c).runs .matrix = some { r with again := true } ∧ t.flag F.mxaStatus_mismatch [c] = true ∧ s.keepsRest t := by
  simp only [State.mxaMismatch, h, Bool.false_eq_true, if_false] at ht
  subst ht
  refine ⟨runs_setRunning .., flag_of_get_eq ?mismatch, (keepsRest_mxaLog ..).setRunning ..⟩
  case mismatch => rw [get_setRunning, mxaLog_mismatch]

/-- With nothing injected, a row whose operands have good parity and whose checks fail is a mismatch of the array. -/
theorem commit_mismatch {g : Issue} {tw tx tout : TReg} {acc : Bool} {sl : Slot} {dw dx dt : Desc} {m : Fin 4 × Fin 8 × BitVec 8}
    (hi : r.entry.instr = .mma g tw tx tout acc) (hr : (s.core c).runs .matrix = some r) (hinj : r.inj = 0)
    (hh : s.issueHalted = false) (hs : s.slot c r.entry.slot.val = some sl) (hw : sl.td tw = some dw) (hx : sl.td tx = some dx)
    (ht : sl.td tout = some dt) (hrow : r.row < dx.rows) (hp : s.parityHit (rowReads sl tw dx r.row) = none) :
    s.commit c (some m) = s.mxaMismatch c r true m.2.1.val m.1.val m.2.2.toNat := by
  have hnone : decide ((if r.again then 2 else 1) ≤ r.inj) = false := by
    rw [hinj]
    cases r.again <;> rfl
  simp only [State.commit, hh, hr, hi, hs, hw, hx, ht, if_neg (Nat.not_le.mpr hrow), hp, hnone, Bool.and_false,
    Bool.false_eq_true, if_false]

/-- A mismatch found in a matrix instruction other than an MMA is one of the array: `hi` rules out the model's arm for an MMA. -/
theorem unitRepeat_matrixMove (hr : (s.core c).runs .matrix = some r) (hi : ∀ g tw tx tout acc, r.entry.instr ≠ .mma g tw tx tout acc)
    (kind bank : Nat) : s.unitRepeat c .matrixMove kind bank = s.mxaMismatch c r false 0 2 0 := by
  simp only [State.unitRepeat, hr]

/-! ### The vector, spline and row statistics units (R155) -/

/-- What the first mismatch of an instruction of these units leaves: its record, and its repeat counted. -/
theorem repeat_of_vsuMismatch (h : r.again = false) {u : UnitId} {f : Fld} {cls : Nat} {kind : Fin 3} {bank : Nat}
    (ht : t = s.vsuMismatch c u f cls r kind.val bank) :
    (t.core c).runs u = some { r with again := true } ∧ t.flag F.vsuStatus_mismatch [c] = true ∧
      t.get F.vsuRepeats_count [c] = sat 32 (s.get F.vsuRepeats_count [c] + 1) ∧
      t.get F.vsuMismatchLog_kind [c] = kind.val ∧ s.keepsRest t := by
  simp only [State.vsuMismatch, h, Bool.false_eq_true, if_false] at ht
  subst ht
  have hkind : kind.val < 2 ^ F.vsuMismatchLog_kind.len := Nat.lt_trans kind.isLt (by decide)
  refine ⟨?runs, flag_of_get_eq ?mismatch, ?repeats, ?kind, (((State.keepsRest.self s).puts _).setRunning ..).bump ..⟩
  case runs => rw [core_bump, runs_setRunning]
  case mismatch =>
    simp (disch := decide) only [get_bump_alike, get_setRunning, puts_more, puts_none, get_put_alike]
    exact get_put_fits (by decide) _ _
  case repeats =>
    rw [get_bump_width 32 (by decide), get_setRunning]
    simp (disch := decide) only [puts_more, puts_none, get_put_alike]
  case kind =>
    simp (disch := decide) only [get_bump_alike, get_setRunning, puts_more, puts_none, get_put_alike, get_put_beside]
    exact get_put_fits hkind _ _

theorem unitRepeat_vector (hr : (s.core c).runs .vector = some r) (kind bank : Nat) :
    s.unitRepeat c .vector kind bank = s.vsuMismatch c .vector F.vsuStatus_vecState 2 r kind bank := by
  simp only [State.unitRepeat, hr]

theorem unitRepeat_rowstat (hr : (s.core c).runs .rowstat = some r) (kind bank : Nat) :
    s.unitRepeat c .rowstat kind bank = s.vsuMismatch c .rowstat F.vsuStatus_rstState 4 r kind bank := by
  simp only [State.unitRepeat, hr]

/-! ### The attention-step unit (R172) -/

/-- What the first mismatch of an instruction of the attention-step unit leaves: its repeat counted. -/
theorem repeat_of_attMismatch (h : r.again = false) {kind : Nat} (ht : t = s.attMismatch c r kind) :
    (t.core c).runs .attention = some { r with again := true } ∧ t.flag F.attStatus_mismatch [c] = true ∧
      t.get F.attRepeats_count [c] = sat 32 (s.get F.attRepeats_count [c] + 1) ∧ s.keepsRest t := by
  simp only [State.attMismatch, h, Bool.false_eq_true, if_false] at ht
  subst ht
  refine ⟨?runs, flag_of_get_eq ?mismatch, ?repeats, (((State.keepsRest.self s).put ..).setRunning ..).bump ..⟩
  case runs => rw [core_bump, runs_setRunning]
  case mismatch => rw [get_bump_alike _ _ _ (by decide) (by decide), get_setRunning, get_put_fits (by decide)]
  case repeats => rw [get_bump_width 32 (by decide), get_setRunning, get_put_alike _ _ _ (by decide) (by decide)]

theorem unitRepeat_attention (hr : (s.core c).runs .attention = some r) (kind bank : Nat) :
    s.unitRepeat c .attention kind bank = s.attMismatch c r kind := by
  simp only [State.unitRepeat, hr]

end

/-- Settles O26: each unit's first mismatch is recorded, marks the running instruction as repeated, and is counted; nothing else
changes. -/
theorem firstMismatchRepeats : Obligations.FirstMismatchRepeats := by
  intro core s r kind bank c hfirst
  refine ⟨?mma, ?move, ?vector, ?rowstat, ?attention⟩
  case mma =>
    intro g tw tx tout acc sl dw dx dt m hi hr hinj hh hs hw hx ht hrow hp
    obtain ⟨hruns, hstate, hreplays, hmismatch, hpc, hrest⟩ :=
      replay_of_mxaMismatch hfirst (commit_mismatch (m := m) hi hr hinj hh hs hw hx ht hrow hp)
    exact ⟨_, rfl, hruns, hstate, hreplays, hmismatch, hpc, hrest.eq⟩
  case move =>
    intro hr hi
    obtain ⟨hruns, hmismatch, hrest⟩ := repeat_of_mxaMismatch hfirst (unitRepeat_matrixMove hr hi kind.val bank.val)
    exact ⟨_, rfl, hruns, hmismatch, hrest.eq⟩
  case vector =>
    intro hr
    obtain ⟨hruns, hmismatch, hrepeats, hkind, hrest⟩ := repeat_of_vsuMismatch hfirst (unitRepeat_vector hr kind.val bank.val)
    exact ⟨_, rfl, hruns, hmismatch, hrepeats, hkind, hrest.eq⟩
  case rowstat =>
    intro hr
    obtain ⟨hruns, hmismatch, hrepeats, -, hrest⟩ := repeat_of_vsuMismatch hfirst (unitRepeat_rowstat hr kind.val bank.val)
    exact ⟨_, rfl, hruns, hmismatch, hrepeats, hrest.eq⟩
  case attention =>
    intro hr
    obtain ⟨hruns, hmismatch, hrepeats, hrest⟩ := repeat_of_attMismatch hfirst (unitRepeat_attention hr kind.val bank.val)
    exact ⟨_, rfl, hruns, hmismatch, hrepeats, hrest.eq⟩

end Sys2Proof.Machine
end

section
/-! SUPPORT. The loads that end in a core: the user-table banks, the near-bank buffers, and the frames lent (R141, R142, R179, R190,
R232). -/

namespace Sys2Proof.Machine

theorem State.keepsRest.modCore {s t : State} (h : s.keepsRest t) (c : Nat) (f : CoreSt → CoreSt) : s.keepsRest (t.modCore c f) := by
  obtain ⟨_, _, rfl⟩ := h
  exact ⟨_, _, rfl⟩

/-! ### Fields of a core's registers -/

/-- A field of a number cut to a width that holds the field. -/
theorem bits_mod {w lo len : Nat} (h : lo + len ≤ w) (n : Nat) : bits (n % 2 ^ w) lo len = bits n lo len := by
  apply Nat.eq_of_testBit_eq
  intro i
  rw [testBit_bits, testBit_bits, Nat.testBit_mod_two_pow]
  by_cases hi : i < len
  · rw [decide_eq_true (show i + lo < w by omega), Bool.true_and]
  · rw [decide_eq_false hi, Bool.false_and, Bool.false_and]

/-- Registers that every core has once, at different offsets in its block, lie apart whatever the cores. -/
theorem regAddr_ne_of_perCore {k k' : RegKind} (hd : k.dims = [(0x40000, 64)]) (hd' : k'.dims = [(0x40000, 64)])
    (hb : k.base % 0x40000 ≠ k'.base % 0x40000) (i j : Nat) : regAddr k [i] ≠ regAddr k' [j] := by
  simp only [regAddr, hd, hd', List.zip_cons_cons, List.zip_nil_left, List.map_cons, List.map_nil, List.sum_cons, List.sum_nil]
  omega

/-! ### The banks of the user tables (R142) -/

section
variable (s : State) (c : Nat) {k v : Nat}

theorem bankState_setBank_same (hk : k < 8) (hv : v < 8) : (s.setBank c k v).bankState c k = v := by
  have hw : F.splTableState_bankState.len = 24 := rfl
  rw [State.bankState, State.setBank, get_put_same, hw, bits_mod (by omega), bits_putBits_same]
  exact Nat.mod_eq_of_lt hv

theorem bankState_setBank_other (k v : Nat) {j : Nat} (hj : j < 8) (h : j ≠ k) : (s.setBank c k v).bankState c j = s.bankState c j := by
  have hw : F.splTableState_bankState.len = 24 := rfl
  rw [State.bankState, State.setBank, get_put_same, hw, bits_mod (by omega), bits_putBits_other _ _ _ _ _ _ (by omega)]
  rfl

theorem bankState_modCore (f : CoreSt → CoreSt) (k : Nat) : (s.modCore c f).bankState c k = s.bankState c k := rfl

theorem core_setBank (k v : Nat) : (s.setBank c k v).core c = s.core c := core_put s _ _ _ c

theorem mem_setBank (k v : Nat) : (s.setBank c k v).mem = s.mem := put_mem s _ _ _

/-- The semaphores of a core lie apart from the register of its banks. -/
theorem bankState_put_semValue (i v k : Nat) : (s.put F.semValue_value [c, i] v).bankState c k = s.bankState c k := by
  have h : regAddr .splTableState [c] ≠ regAddr .semValue [c, i] := by
    have hbanks : regAddr .splTableState [c] = 0x1010008 + (0x40000 * c + 0) := rfl
    have hsem : regAddr .semValue [c, i] = 0x1004000 + (0x40000 * c + (0x10 * i + 0)) := rfl
    rw [hbanks, hsem]
    omega
  rw [State.bankState, State.bankState, get_put_other _ _ _ _ _ _ h]

end

theorem CoreSt.tables_takeLater (x : CoreSt) (k seq : Nat) : (x.takeLater k seq).1.tables = x.tables := by
  simp only [CoreSt.takeLater]

/-- From `s` to `t` the banks of core `c`, their images, and storage are as they were. -/
structure State.KeepsBanks (c : Nat) (s t : State) : Prop where
  banks : ∀ k, t.bankState c k = s.bankState c k
  tables : (t.core c).tables = (s.core c).tables
  mem : t.mem = s.mem

namespace State.KeepsBanks

variable {c : Nat} {s t u : State}

theorem refl (c : Nat) (s : State) : KeepsBanks c s s := ⟨fun _ => rfl, rfl, rfl⟩

theorem trans (h : KeepsBanks c s t) (h' : KeepsBanks c t u) : KeepsBanks c s u :=
  ⟨fun k => (h'.banks k).trans (h.banks k), h'.tables.trans h.tables, h'.mem.trans h.mem⟩

theorem setCore (s : State) (c : Nat) {x : CoreSt} (hx : x.tables = (s.core c).tables) : KeepsBanks c s (s.setCore c x) :=
  ⟨fun _ => rfl, by rw [core_setCore_same, hx], rfl⟩

theorem modCore (s : State) (c : Nat) (f : CoreSt → CoreSt) (hf : ∀ x, (f x).tables = x.tables := by exact fun _ => rfl) :
    KeepsBanks c s (s.modCore c f) :=
  setCore s c (hf _)

theorem setSlot (s : State) (c k : Nat) (v : Option Slot) : KeepsBanks c s (s.setSlot c k v) := modCore s c _

theorem modSlot (s : State) (c k : Nat) (f : Slot → Slot) : KeepsBanks c s (s.modSlot c k f) := by
  unfold State.modSlot
  split
  · exact setSlot ..
  · exact refl ..

theorem takeSem (s : State) (c i n : Nat) : KeepsBanks c s (s.takeSem c i n) := by
  have hput (v : Nat) : KeepsBanks c s (s.put F.semValue_value [c, i] v) :=
    ⟨bankState_put_semValue s c i v, congrArg CoreSt.tables (core_put s _ _ _ c), put_mem s _ _ _⟩
  unfold State.takeSem
  exact (hput _).trans (modCore _ c _)

/-- Grants of a semaphore (R93). -/
theorem grantSems (c i : Nat) (l : List Nat) (s : State) : KeepsBanks c s (Machine.grantSems c i l s) := by
  induction l generalizing s with
  | nil => exact modCore s c _
  | cons k l ih =>
    unfold Machine.grantSems
    split
    · split
      · exact ih s
      · split
        · exact ((takeSem s c i _).trans (modSlot _ c k _)).trans (ih _)
        · exact modCore s c _
    · exact ih s

/-- A wait that is given up. -/
theorem unwait (s : State) (c k : Nat) : KeepsBanks c s (s.unwait c k) := by
  unfold State.unwait
  split
  · exact refl c s
  · next sl _ =>
    refine (setSlot s c k (some { sl with wait := none, granted := false })).trans ?_
    dsimp only
    split
    · exact (modCore _ c _).trans (grantSems ..)
    · exact modCore _ c _
    · exact refl ..

/-- A stop that is found (R99). -/
theorem stopSlot (s : State) (c k : Nat) (d : Detail) (seq : Nat) (e : Option UEntry) : KeepsBanks c s (s.stopSlot c k d seq e) := by
  have hlater : KeepsBanks c s ((s.unwait c k).setCore c (((s.unwait c k).core c).takeLater k seq).1) :=
    (unwait s c k).trans (setCore _ c (CoreSt.tables_takeLater ..))
  unfold State.stopSlot
  split
  · exact refl c s
  · dsimp only
    exact iteInduction (motive := KeepsBanks c s) (fun _ => setSlot ..) (fun _ => hlater.trans (setSlot ..))

end State.KeepsBanks

/-! ### A user-table load (R141, R142) -/

/-- The state in which the oldest user-table load of a core has left the list of loads. -/
def State.dropLoad (s : State) (c : Nat) (rest : List UEntry) : State := s.modCore c (fun x => { x with loading := rest })

section
variable {s : State} {c : Nat} {e : UEntry} {sl : Slot} {rest : List UEntry} {g : Issue} {tb : Fin 4} {b : Fin 2} {sa : SReg} {im : Nat}
  (hs : s.slot c e.slot.val = some sl) (hl : (s.core c).loading = e :: rest) (hi : e.instr = .spld g tb b sa)
  (hp : s.parityHit [((sl.s sa).toNat, 5152)] = none) (him : s.peekLE (localOf (sl.s sa).toNat) 5152 = im)
include hs hl hi hp him

/-- What a user-table load without bad bytes ends with: its bank READY with the image, or EMPTY and a stop of its instruction. -/
theorem spldDone_clean :
    s.spldDone c =
      if tableOk im then
        ((s.dropLoad c rest).setBank c (2 * tb.val + b.val) bankReady).modCore c
          (fun x => { x with tables := tset 0 x.tables (2 * tb.val + b.val) im })
      else ((s.dropLoad c rest).setBank c (2 * tb.val + b.val) bankEmpty).stopEntry c e (excDetail xTable 3) := by
  have hslot : (s.dropLoad c rest).slot c e.slot.val = some sl := by
    rw [State.slot, State.dropLoad, core_modCore_same]
    exact hs
  have hparity : (s.dropLoad c rest).parityHit [((sl.s sa).toNat, 5152)] = none := hp
  have hpeek : ∀ l, (s.dropLoad c rest).peek l = s.peek l := fun _ => rfl
  have himage : (s.dropLoad c rest).peekLE (localOf (sl.s sa).toNat) 5152 = im := (peekLE_congr hpeek _ _).trans him
  simp only [State.dropLoad] at hslot hparity himage
  simp only [State.spldDone, hl, hi, hslot, hparity, himage, State.dropLoad]

/-- A valid image is in its bank, which is READY; the other banks stay. -/
theorem spldDone_ok (hok : tableOk im = true) :
    (s.spldDone c).bankState c (2 * tb.val + b.val) = bankReady ∧
      tget 0 ((s.spldDone c).core c).tables (2 * tb.val + b.val) = im ∧ ((s.spldDone c).core c).loading = rest ∧
      (∀ j < 8, j ≠ 2 * tb.val + b.val → (s.spldDone c).bankState c j = s.bankState c j) ∧ s.keepsRest (s.spldDone c) := by
  rw [spldDone_clean hs hl hi hp him, if_pos hok]
  refine ⟨?ready, ?image, ?loading, ?others, ?rest⟩
  case ready => rw [bankState_modCore, bankState_setBank_same _ _ (by omega) (by decide)]
  case image => rw [core_modCore_same, tget_tset_same]
  case loading => rw [core_modCore_same, core_setBank, State.dropLoad, core_modCore_same]
  case others =>
    intro j hj hne
    rw [bankState_modCore, bankState_setBank_other _ _ _ _ hj hne, State.dropLoad, bankState_modCore]
  case rest => exact (((State.keepsRest.self s).modCore ..).put ..).modCore ..

/-- An image that is not valid leaves its bank EMPTY, and no image. -/
theorem spldDone_bad (hbad : tableOk im = false) :
    (s.spldDone c).bankState c (2 * tb.val + b.val) = bankEmpty ∧
      tget 0 ((s.spldDone c).core c).tables (2 * tb.val + b.val) = tget 0 (s.core c).tables (2 * tb.val + b.val) ∧
      (s.spldDone c).mem = s.mem := by
  rw [spldDone_clean hs hl hi hp him, if_neg (by rw [hbad]; decide)]
  obtain ⟨hbanks, htables, hmem⟩ : State.KeepsBanks c ((s.dropLoad c rest).setBank c (2 * tb.val + b.val) bankEmpty)
    (((s.dropLoad c rest).setBank c (2 * tb.val + b.val) bankEmpty).stopEntry c e (excDetail xTable 3)) := State.KeepsBanks.stopSlot ..
  refine ⟨?empty, ?image, hmem.trans (mem_setBank ..)⟩
  case empty => rw [hbanks, bankState_setBank_same _ _ (by omega) (by decide)]
  case image => rw [htables, core_setBank, State.dropLoad, core_modCore_same]

end

/-! ### A near-bank load (R190) -/

/-- A list of codes written into a buffer from entry `o`. -/
def fillFrom (t : Table Nat) (o : Nat) (l : List Nat) : Table Nat :=
  (l.zip (List.range l.length)).foldl (fun t x => tset 0 t (o + x.2) x.1) t

theorem mem_zip_range {l : List Nat} {x : Nat × Nat} : x ∈ l.zip (List.range l.length) ↔ l[x.2]? = some x.1 := by
  rw [List.range_eq_range', ← List.zipIdx_eq_zip_range', List.mem_zipIdx_iff_getElem?]

theorem tget_fillFrom (t : Table Nat) (o : Nat) (l : List Nat) {i : Nat} (hi : i < l.length) : tget 0 (fillFrom t o l) (o + i) = l[i] := by
  have hmem : (l[i], i) ∈ l.zip (List.range l.length) := mem_zip_range.mpr (List.getElem?_eq_getElem hi)
  refine foldl_establishes _ (fun x t => tget 0 t (o + x.2) = x.1) _ (fun t x _ => tget_tset_same 0 t _ _) ?_ t _ hmem
  intro t x hx y hy hne hold
  -- Entries of one place hold one code.
  have hplace : o + y.2 ≠ o + x.2 := by
    intro he
    have he : y.2 = x.2 := Nat.add_left_cancel he
    have hcodes : some y.1 = some x.1 := by rw [← mem_zip_range.mp hy, ← mem_zip_range.mp hx, he]
    exact hne (Prod.ext (Option.some.inj hcodes) he)
  rw [tget_tset_ne _ _ _ hplace]
  exact hold

/-- The buffers of an NBR after a load: of its index buffer from `o`, or of its vector buffer with its scales. -/
def NbrBuf.loaded (b : NbrBuf) (index : Bool) (o : Nat) (codes scales : List Nat) : NbrBuf :=
  if index then { b with index := fillFrom b.index o codes }
  else { b with vec := fillFrom b.vec 0 codes, scales := fillFrom b.scales 0 scales }

/-- The buffers of NBR `k` of a channel changed where the mask names it. -/
def State.changeBuf (c n : Nat) (mask : BitVec 4) (f : NbrBuf → NbrBuf) (s : State) (k : Nat) : State :=
  if mask.getLsbD k then s.setBuf c n k (f (s.buf c n k)) else s

section
variable (c n : Nat) (mask : BitVec 4) (f : NbrBuf → NbrBuf)

theorem changeBuf_keeps {α : Type} (p : State → α) (hp : ∀ s k b, p (s.setBuf c n k b) = p s) (s : State) (k : Nat) :
    p (s.changeBuf c n mask f k) = p s := by
  unfold State.changeBuf
  split
  · exact hp ..
  · rfl

theorem buf_changeBuf_same (s : State) (k : Nat) :
    (s.changeBuf c n mask f k).buf c n k = if mask.getLsbD k then f (s.buf c n k) else s.buf c n k := by
  unfold State.changeBuf
  split
  · exact buf_setBuf_same ..
  · rfl

theorem buf_changeBuf_other (s : State) {j k : Nat} (h : j ≠ k) : (s.changeBuf c n mask f k).buf c n j = s.buf c n j := by
  unfold State.changeBuf
  split
  · exact tget_tset_ne _ _ _ (by omega)
  · rfl

/-- Of each NBR once, the buffers are changed where the mask names it. -/
theorem buf_foldl_changeBuf {l : List Nat} (hl : l.Nodup) (s : State) (j : Nat) :
    (l.foldl (State.changeBuf c n mask f) s).buf c n j =
      if j ∈ l ∧ mask.getLsbD j = true then f (s.buf c n j) else s.buf c n j := by
  induction l generalizing s with
  | nil => simp
  | cons k l ih =>
    obtain ⟨hk, hl⟩ := List.nodup_cons.mp hl
    rw [List.foldl_cons, ih hl]
    by_cases hj : j = k
    · subst hj
      simp [hk, buf_changeBuf_same]
    · simp [hj, buf_changeBuf_other]

end

/-- A buffer into which a tensor's codes have gone from entry `o` holds its elements in element order. -/
theorem tget_fillFrom_tensorCodes (t : Table Nat) (o : Nat) (s : State) (d : Desc) {i : Nat} (hi : i < d.rows * d.cols) :
    tget 0 (fillFrom t o (s.tensorCodes d)) (o + i) = s.elemCode d (i / d.cols) (i % d.cols) := by
  have hlen : i < (s.tensorCodes d).length := by rwa [State.tensorCodes, List.length_map, List.length_range]
  rw [tget_fillFrom t o _ hlen]
  simp only [State.tensorCodes, List.getElem_map, List.getElem_range]

/-- The state in which the near-bank load of a channel has left the list of loads. -/
def State.dropNbload (s : State) (c n : Nat) : State := s.modCore c (fun x => { x with nbloads := tset none x.nbloads n none })

/-- The buffers of every NBR of a channel that the mask names hold a tensor. -/
def State.loadBufs (s : State) (c n : Nat) (mask : BitVec 4) (index : Bool) (o : Nat) (d : Desc) : State :=
  (List.range 4).foldl (State.changeBuf c n mask (·.loaded index o (s.tensorCodes d) (s.tensorScales d))) (s.dropNbload c n)

section
variable {s : State} {c n : Nat} {e : UEntry} {sl : Slot} {d : Desc} {g : Issue} {ch : ChanId} {ta : TReg} {mask : BitVec 4}
  {index : Bool} {ioff : BitVec 12}

/-- What a near-bank load of a tensor without bad bytes ends with. -/
theorem nbloadDone_clean (hs : s.slot c e.slot.val = some sl) (hl : tget none (s.core c).nbloads n = some e)
    (hi : e.instr = .nbload g ch ta mask index ioff) (hd : sl.td ta = some d) (hp : s.parityHit d.allRuns = none) :
    s.nbloadDone c n = s.loadBufs c n mask index ioff.toNat d := by
  have hslot : (s.dropNbload c n).slot c e.slot.val = some sl := by
    rw [State.slot, State.dropNbload, core_modCore_same]
    exact hs
  have hparity : (s.dropNbload c n).parityHit d.allRuns = none := hp
  simp only [State.dropNbload] at hslot hparity
  simp only [State.nbloadDone, hl, hi, hslot, hd, hparity]
  rfl

end

section
variable {s : State} {c n : Nat} {mask : BitVec 4} {index : Bool} {o : Nat} {d : Desc}

/-- Of every other part of the state only the list of loads has changed. -/
theorem loadBufs_keeps {α : Type} (p : State → α) (hp : ∀ s k b, p (s.setBuf c n k b) = p s) :
    p (s.loadBufs c n mask index o d) = p (s.dropNbload c n) :=
  foldl_keeps p (fun t k => changeBuf_keeps c n mask _ p hp t k) _ _

theorem nbloads_loadBufs : tget none ((s.loadBufs c n mask index o d).core c).nbloads n = none := by
  rw [loadBufs_keeps (·.core c) fun _ _ _ => rfl, State.dropNbload, core_modCore_same, tget_tset_same]

theorem buf_loadBufs {j : Nat} (hj : j < 4) : (s.loadBufs c n mask index o d).buf c n j =
    if mask.getLsbD j = true then (s.buf c n j).loaded index o (s.tensorCodes d) (s.tensorScales d) else s.buf c n j := by
  rw [State.loadBufs, buf_foldl_changeBuf c n mask _ List.nodup_range]
  simp only [List.mem_range, hj, true_and]
  rfl

end

/-! ### Frames that are lent (R179) -/

/-- Other frames in transit. -/
def State.setLoans (s : State) (l : List Loan) : State := { s with loans := l }

theorem get_setLoans (s : State) (l : List Loan) (f : Fld) (i : List Nat) : (s.setLoans l).get f i = s.get f i := get_congr rfl f i

theorem loans_setLoans (s : State) (l : List Loan) : (s.setLoans l).loans = l := rfl

/-- A field written beside other loans changes nothing else. -/
theorem put_setLoans_eq (s : State) (f : Fld) (i : List Nat) (v : Nat) (l : List Loan) :
    (s.put f i v).setLoans l = { s with loans := ((s.put f i v).setLoans l).loans, regs := ((s.put f i v).setLoans l).regs } := rfl

/-- A usable lender whose unit is enabled and whose list gives a frame has it in transit, and counts it. -/
theorem kvBorrow_of_kvPop {s s1 : State} {l b n : Nat} {far : Bool} (hu : s.coreUsable l = true)
    (he : s.flag F.kvControl_enable [l] = true) (hp : kvPop l far s = .ok (s1, some n)) :
    s.kvBorrow l b far = (s1.put F.kvPending_count [l] (s1.get F.kvPending_count [l] + 1)).setLoans
      (s1.loans ++ [{ lender := l, borrower := b, far := far, frame := n }]) := by
  simp only [State.kvBorrow, hu, he, hp, Bool.not_true, Bool.or_self, Bool.false_eq_true, if_false, State.setLoans]

/-- The state in which the oldest frame in transit, `x`, is its borrower's. -/
def State.delivers (s : State) (x : Loan) (rest : List Loan) : State :=
  { s with loans := rest, gotFrames := tset [] s.gotFrames x.borrower (tget [] s.gotFrames x.borrower ++ [(x.far, x.frame)]) }

/-- An acknowledgement takes the oldest frame in transit from its lender to its borrower. -/
theorem kvAck_of_oldest {s : State} {x : Loan} {rest : List Loan} (h : s.loans = x :: rest) :
    s.kvAck x.lender x.borrower =
      (((s.delivers x rest).put F.kvPending_count [x.lender] ((s.delivers x rest).get F.kvPending_count [x.lender] - 1)).bump
        F.kvBorrowCount_count [x.borrower]).heldUp x.borrower x.far := by
  have hfind : s.loans.find? (fun y => y.lender == x.lender && y.borrower == x.borrower) = some x := by simp [h]
  have herase : s.loans.erase x = rest := by rw [h, List.erase_cons_head]
  simp only [State.kvAck, hfind, herase, State.delivers]

/-- The held frames of a core stand in a register of their own. -/
theorem get_heldUp (s : State) (c : Nat) (far : Bool) {f : Fld} (i : Nat) (hd : f.kind.dims = [(0x40000, 64)])
    (hb : f.kind.base % 0x40000 ≠ RegKind.kvHeld.base % 0x40000) : (s.heldUp c far).get f [i] = s.get f [i] := by
  cases far <;> exact get_put_other _ _ _ _ _ _ (regAddr_ne_of_perCore hd rfl hb i c)

/-- One frame fewer is pending at the lender, one more counted at the borrower. -/
theorem kvAck_counts (s : State) (l b : Nat) (far : Bool) :
    let u := ((s.put F.kvPending_count [l] (s.get F.kvPending_count [l] - 1)).bump F.kvBorrowCount_count [b]).heldUp b far
    u.get F.kvPending_count [l] = s.get F.kvPending_count [l] - 1 ∧
      u.get F.kvBorrowCount_count [b] = sat 32 (s.get F.kvBorrowCount_count [b] + 1) := by
  have hfits : s.get F.kvPending_count [l] - 1 < 2 ^ F.kvPending_count.len :=
    Nat.lt_of_le_of_lt (Nat.sub_le _ _) (get_lt s F.kvPending_count [l])
  constructor
  · rw [get_heldUp _ _ _ _ rfl (by decide), get_bump_other _ _ _ _ _ _ (regAddr_ne_of_perCore rfl rfl (by decide) _ _),
      get_put_fits hfits]
  · rw [get_heldUp _ _ _ _ rfl (by decide), get_bump_width 32 rfl,
      get_put_other _ _ _ _ _ _ (regAddr_ne_of_perCore rfl rfl (by decide) _ _)]

theorem heldUp_loans (s : State) (c : Nat) (far : Bool) : (s.heldUp c far).loans = s.loans := put_loans ..
theorem heldUp_gotFrames (s : State) (c : Nat) (far : Bool) : (s.heldUp c far).gotFrames = s.gotFrames := put_gotFrames ..
theorem heldUp_mem (s : State) (c : Nat) (far : Bool) : (s.heldUp c far).mem = s.mem := put_mem ..

/-- Settles O32: each load ends with its bank or its buffers filled, and a frame lent is counted in transit until it is
acknowledged. -/
theorem loadsEnd : Obligations.LoadsEnd := by
  intro core ch g s e sl c n
  refine ⟨?table, ?nearbank, fun borrower => ⟨?borrow, ?acknowledge⟩⟩
  case table =>
    intro tb b sa rest hs hl hi hp im k
    refine ⟨fun hok => ⟨s.spldDone c, rfl, ?_⟩, fun hbad => ⟨s.spldDone c, rfl, spldDone_bad hs hl hi hp rfl hbad⟩⟩
    obtain ⟨hready, himage, hloading, hothers, hrest⟩ := spldDone_ok hs hl hi hp rfl hok
    exact ⟨hready, himage, hloading, hothers, hrest.eq⟩
  case nearbank =>
    intro ch' ta mask index ioff d hs hl hi hd hp
    refine ⟨s.nbloadDone c n, rfl, ?_⟩
    rw [nbloadDone_clean hs hl hi hd hp]
    refine ⟨nbloads_loadBufs, loadBufs_keeps State.mem fun _ _ _ => rfl, loadBufs_keeps State.regs fun _ _ _ => rfl, ?others, ?named⟩
    case others =>
      intro j hj hm
      rw [buf_loadBufs hj, if_neg (by rw [hm]; decide)]
    case named =>
      intro j hj hm
      rw [buf_loadBufs hj, if_pos hm]
      cases index with
      | true => exact ⟨rfl, fun _ => ⟨rfl, fun i hi => tget_fillFrom_tensorCodes _ _ s d hi⟩, (absurd · (by decide))⟩
      | false =>
        refine ⟨rfl, (absurd · (by decide)), fun _ => ⟨rfl, fun i hi => ?_⟩⟩
        have h := tget_fillFrom_tensorCodes (s.buf c n j).vec 0 s d hi
        rwa [Nat.zero_add] at h
  case borrow =>
    intro far s1 frame hu he hp
    refine ⟨_, rfl, ?_⟩
    rw [kvBorrow_of_kvPop hu he hp]
    have hw : F.kvPending_count.len = 32 := rfl
    exact ⟨loans_setLoans .., by rw [get_setLoans, get_put_same, hw], put_setLoans_eq ..⟩
  case acknowledge =>
    intro x rest hx hlender hborrower _
    refine ⟨s.kvAck c borrower.val, rfl, ?_⟩
    rw [← hlender, ← hborrower, kvAck_of_oldest hx]
    have hregs : (s.delivers x rest).regs = s.regs := rfl
    obtain ⟨hpending, hcount⟩ := kvAck_counts (s.delivers x rest) x.lender x.borrower x.far
    rw [get_congr hregs] at hpending hcount
    refine ⟨?loans, hpending, hcount, ?got, ?mem⟩
    case loans => rw [heldUp_loans, bump_loans, put_loans]; rfl
    case got => rw [heldUp_gotFrames, bump_gotFrames, put_gotFrames]; exact tget_tset_same ..
    case mem => rw [heldUp_mem, bump_mem, put_mem]; rfl

end Sys2Proof.Machine
end

section
/-! SUPPORT. A reduction whose source has other rows than its destination: the unit ends it over the destination's rows (R132), which
refutes the statement that takes the rows from the source. -/

namespace Sys2Proof.Machine

/-! ### What a change releases where issue is halted (R404) -/

/-- Nothing is released by a change: issue is halted, no access waits beside the machine, no request waits for a region. -/
structure State.Quiet (s : State) : Prop where
  halted : s.issueHalted = true
  held : s.heldAcc = []
  request : s.bring.mbWait = none

namespace State.keepsRest

variable {s t : State}

theorem idleUnit (h : s.keepsRest t) (c : Nat) (u : UnitId) (f : Fld) : s.keepsRest (t.idleUnit c u f) := by
  simp only [State.idleUnit]
  split
  · exact h.put ..
  · exact h

theorem quiet (h : s.keepsRest t) (hs : s.Quiet) : t.Quiet := by
  obtain ⟨_, _, rfl⟩ := h
  exact ⟨hs.halted, hs.held, hs.request⟩

theorem mem (h : s.keepsRest t) : t.mem = s.mem := by
  obtain ⟨_, _, rfl⟩ := h
  rfl

/-- A core of a quiet state: no instruction leaves its queue. -/
theorem kick (h : s.keepsRest t) (hs : s.Quiet) (c : Nat) : s.keepsRest (t.kick c) := by
  simp only [State.kick, (h.quiet hs).halted, Bool.not_true, Bool.false_eq_true, and_false, if_false]
  exact (((h.idleUnit ..).idleUnit ..).idleUnit ..).idleUnit ..

end State.keepsRest

theorem kickAll_keepsRest {s : State} (hs : s.Quiet) : s.keepsRest s.kickAll := by
  have hcores : s.keepsRest ((s.cores.map Prod.fst).foldl (fun s c => s.kick c) s) :=
    List.foldlRecOn (motive := s.keepsRest) _ _ (State.keepsRest.self s) fun _ h c _ => h.kick hs c
  simp only [State.kickAll, hs.held, List.isEmpty_nil, if_true, State.regionCheck, (hcores.quiet hs).request]
  exact hcores

/-! ### The counterexample -/

/-- An FP32 tensor of one column at offset `off` of the scratchpad of core 0. -/
def columnDesc (off rows : Nat) : Desc :=
  { base := selfAddr (spadBase + off), tagBase := 0, scaleBase := 0, rows := rows, cols := 1, stride := 1, sstride := 0, fmt := .fp32
    anchor := 0, sat := false, blockAxis := 0, split := 0, axisOrigin := 0 }

/-- Its image (R221). -/
def columnImage (off rows : Nat) : Image := BitVec.ofNat 512 (selfAddr (spadBase + off) + rows * 2 ^ 192 + 2 ^ 209 + 2 ^ 256)

/-- A context with a destination of one row in t1 and a source of two rows in t2. -/
def reductionSlot : Slot := { tds := [(1, columnImage 0x10 1), (2, columnImage 0 2)] }

def reduction : Running := { entry := { slot := 0, seq := 0, pc := 0, instr := .vrmax { core := 0 } 1 2 } }

/-- Core 0 executes VRMAX over a source whose second element is 1.0, while THERMTRIP halts issue. -/
def reducing : State :=
  { mem := [(spadBase + 6, 0x80#8), (spadBase + 7, 0x3F#8)], power := { tripped := true }
    cores := [(0, { slots := [(0, some reductionSlot)], running := [(1, some reduction)] })] }

/-- The effect of the reduction over the two rows of its source. -/
def reducedTwoRows : State × BitVec 8 := reducing.doRed reductionSlot .max 1 2 0 2

theorem reducing_unitEnd_quiet : (reducing.unitEnd 0 .vector).Quiet := ⟨by decide +kernel, by decide +kernel, by decide +kernel⟩

theorem reducedTwoRows_quiet : reducedTwoRows.1.Quiet := ⟨by decide +kernel, by decide +kernel, by decide +kernel⟩

/-- The second row of the source gives a result that the unit's end does not write. -/
theorem reducedTwoRows_mem_ne : reducedTwoRows.1.mem ≠ (reducing.unitEnd 0 .vector).mem := by decide +kernel

theorem td_reductionSlot_source : reductionSlot.td 2 = some (columnDesc 0 2) := by decide +kernel

/-- Refutes O29: the statement counts a reduction's rows in its source, the model in its destination. Where the source has two rows
and the destination one, the effect over two rows is not what the unit's end leaves. -/
theorem not_unitInstructionEnds : ¬ Obligations.UnitInstructionEnds := by
  intro h
  obtain ⟨-, hred, -⟩ := h 0 reducing reduction reductionSlot rfl (by decide +kernel) rfl
  obtain ⟨u, hexec, hended, -⟩ := hred .max 1 2 (columnDesc 0 2) reducedTwoRows rfl rfl td_reductionSlot_source rfl
  obtain ⟨-, -, -, hrest, -⟩ := hended
  have hu : reducedTwoRows.1.keepsRest u := ⟨_, _, hrest⟩
  have hkick : (reducing.unitEnd 0 .vector).kickAll = u.kickAll := Host.Outcome.next.inj hexec
  apply reducedTwoRows_mem_ne
  calc reducedTwoRows.1.mem = u.mem := hu.mem.symm
    _ = u.kickAll.mem := (kickAll_keepsRest (hu.quiet reducedTwoRows_quiet)).mem.symm
    _ = (reducing.unitEnd 0 .vector).kickAll.mem := by rw [hkick]
    _ = (reducing.unitEnd 0 .vector).mem := (kickAll_keepsRest reducing_unitEnd_quiet).mem

end Sys2Proof.Machine
end

section
/-! SUPPORT. Near-bank runs at work: their result writes, the ends of steps and runs, and the pauses for refresh (R202 to R205). -/

namespace Sys2Proof.Machine

/-! ### Registers that lie at different places of a 64-byte line -/

/-- Strides of whole lines lead from one instance to a whole number of lines further. -/
theorem dvd_offset_of_lines (l : List (Nat × Nat)) (h : ∀ p ∈ l, 64 ∣ p.1) (i : List Nat) :
    64 ∣ ((l.zip i).map (fun p => p.1.1 * p.2)).sum := by
  induction l generalizing i with
  | nil => exact Nat.dvd_zero 64
  | cons p l ih =>
    cases i with
    | nil => exact Nat.dvd_zero 64
    | cons j i =>
      rw [List.zip_cons_cons, List.map_cons, List.sum_cons]
      exact Nat.dvd_add (Nat.dvd_mul_right_of_dvd (h p List.mem_cons_self) j) (ih (fun q hq => h q (List.mem_cons_of_mem p hq)) i)

/-- Instances that stand whole lines of 64 bytes apart hold their register at one place of its line. -/
theorem regAddr_mod_line {k : RegKind} (h : ∀ p ∈ k.dims, 64 ∣ p.1) (i : List Nat) : regAddr k i % 64 = k.base % 64 := by
  have hlines : 64 ∣ ((k.dims.zip i).map (fun p => p.1.1 * p.2)).sum := dvd_offset_of_lines k.dims h i
  rw [regAddr]
  omega

theorem regAddr_ne_of_line {k k' : RegKind} (hk : ∀ p ∈ k.dims, 64 ∣ p.1) (hk' : ∀ p ∈ k'.dims, 64 ∣ p.1)
    (hb : k.base % 64 ≠ k'.base % 64) (i j : List Nat) : regAddr k i ≠ regAddr k' j := fun h =>
  hb (by rw [← regAddr_mod_line hk i, ← regAddr_mod_line hk' j, h])

theorem get_put_line (s : State) {f g : Fld} (i j : List Nat) (v : Nat) (hg : ∀ p ∈ g.kind.dims, 64 ∣ p.1)
    (hf : ∀ p ∈ f.kind.dims, 64 ∣ p.1) (hb : g.kind.base % 64 ≠ f.kind.base % 64) : (s.put f i v).get g j = s.get g j :=
  get_put_other s f g i j v (regAddr_ne_of_line hg hf hb j i)

theorem get_bump_line (s : State) {f g : Fld} (i j : List Nat) (v : Nat) (hg : ∀ p ∈ g.kind.dims, 64 ∣ p.1)
    (hf : ∀ p ∈ f.kind.dims, 64 ∣ p.1) (hb : g.kind.base % 64 ≠ f.kind.base % 64) : (s.bump f i v).get g j = s.get g j :=
  get_put_line s i j _ hg hf hb

/-- A bit that is set in a number cut to a width that holds the bit. -/
theorem bit_putBits_one {w i : Nat} (h : i < w) (n : Nat) : bit (putBits n i 1 1 % 2 ^ w) i = true := by
  show (bits (putBits n i 1 1 % 2 ^ w) i 1 == 1) = true
  rw [bits_mod h, bits_putBits_same]
  rfl

theorem flag_eq_false_of_get {s : State} {f : Fld} {i : List Nat} (h : s.get f i = 0) : s.flag f i = false := by
  rw [State.flag, h]
  rfl

/-! ### What registers leave alone -/

theorem slot_put (s : State) (f : Fld) (i : List Nat) (v c k : Nat) : (s.put f i v).slot c k = s.slot c k := rfl

theorem run_put (s : State) (f : Fld) (i : List Nat) (v c n : Nat) : (s.put f i v).run c n = s.run c n := rfl

theorem nextRun_put (s : State) (f : Fld) (i : List Nat) (v c n : Nat) : (s.put f i v).nextRun c n = s.nextRun c n := rfl

theorem nextRun_setRun (s : State) (c n : Nat) (r : Option NbRun) : (s.setRun c n r).nextRun c n = s.nextRun c n := rfl

theorem run_bump (s : State) (f : Fld) (i : List Nat) (v c n : Nat) : (s.bump f i v).run c n = s.run c n := rfl

theorem chan_bump (s : State) (f : Fld) (i : List Nat) (v c n : Nat) : (s.bump f i v).chan c n = s.chan c n := rfl

theorem run_modChan (s : State) (c n : Nat) (f : Chan → Chan) : (s.modChan c n f).run c n = s.run c n := rfl

theorem mem_modChan (s : State) (c n : Nat) (f : Chan → Chan) : (s.modChan c n f).mem = s.mem := rfl

theorem get_modChan (s : State) (c n : Nat) (f : Chan → Chan) (g : Fld) (i : List Nat) : (s.modChan c n f).get g i = s.get g i :=
  get_congr rfl g i

theorem chan_modChan (s : State) (c n : Nat) (f : Chan → Chan) : (s.modChan c n f).chan c n = f (s.chan c n) := by
  simp only [State.modChan, State.chan, State.setChan, tget_tset_same]

/-! ### Event flags (R95) -/

theorem event_of_get {s t : State} {c : Nat} (h : t.get F.evSet_flags [c] = s.get F.evSet_flags [c]) (i : Nat) :
    t.event c i = s.event c i := by
  rw [State.event, State.event, h]

theorem event_put_line (s : State) {f : Fld} (j : List Nat) (v c i : Nat) (hf : ∀ p ∈ f.kind.dims, 64 ∣ p.1)
    (hb : RegKind.evSet.base % 64 ≠ f.kind.base % 64) : (s.put f j v).event c i = s.event c i :=
  event_of_get (get_put_line s j [c] v (by decide) hf hb) i

theorem event_putEvent (s : State) (c : Nat) {i : Nat} (hi : i < 64) : (s.putEvent c i true).event c i = true := by
  rw [State.event, State.putEvent, get_put_same]
  exact bit_putBits_one hi _

/-- Where no slot waits on it, a flag that is set stays set. -/
theorem setEvent_of_noWait {s : State} {c i : Nat} (h : tget [] (s.core c).evQ i = []) : s.setEvent c i = s.putEvent c i true := by
  have hq : tget [] ((s.putEvent c i true).core c).evQ i = [] := by rwa [State.putEvent, core_put]
  simp only [State.setEvent, hq]

theorem State.keepsRest.modSlot {s t : State} (h : s.keepsRest t) (c k : Nat) (f : Slot → Slot) : s.keepsRest (t.modSlot c k f) := by
  unfold State.modSlot
  split
  · exact h.modCore ..
  · exact h

theorem State.keepsRest.setEvent {s t : State} (h : s.keepsRest t) (c i : Nat) : s.keepsRest (t.setEvent c i) := by
  have hput (v : Bool) {u : State} (hu : s.keepsRest u) : s.keepsRest (u.putEvent c i v) := hu.put ..
  simp only [State.setEvent]
  split
  · exact hput true h
  · exact (hput false ((hput true h).modCore ..)).modSlot ..

theorem State.keepsRest.nbRun {s t : State} (h : s.keepsRest t) : t.nbRun = s.nbRun := by
  obtain ⟨_, _, rfl⟩ := h
  rfl

theorem State.keepsRest.nbNext {s t : State} (h : s.keepsRest t) : t.nbNext = s.nbNext := by
  obtain ⟨_, _, rfl⟩ := h
  rfl

theorem get_modSlot (s : State) (c k : Nat) (f : Slot → Slot) (g : Fld) (i : List Nat) : (s.modSlot c k f).get g i = s.get g i :=
  get_congr (modSlot_regs s c k f) g i

/-- An event changes no register but those of the flags. -/
theorem get_setEvent (s : State) (c i : Nat) {g : Fld} (j : List Nat) (hg : ∀ p ∈ g.kind.dims, 64 ∣ p.1)
    (hb : g.kind.base % 64 ≠ RegKind.evSet.base % 64) : (s.setEvent c i).get g j = s.get g j := by
  have hput (t : State) (v : Bool) : (t.putEvent c i v).get g j = t.get g j := get_put_line t [c] j _ hg (by decide) hb
  simp only [State.setEvent]
  split
  · exact hput s true
  · rw [State.granted, get_modSlot, hput, get_congr (modCore_regs ..), hput]

/-! ### Result writes (R203, R204) -/

section
variable {s s1 : State} {c n : Nat} {r : NbRun} {a : Nat} {b : List Byte} {rest : List (Nat × List Byte)}

theorem resultWrite_served {bs : List Byte} (hr : s.run c n = some r) (hw : r.writes = (a, b) :: rest)
    (ha : s.access (mNbr c) r.tc a (.wr b) = (s1, .ok bs)) :
    s.resultWrite c n = s1.setRun c n (some { r with writes := rest }) := by
  simp only [State.resultWrite, hr, hw, ha]

theorem resultWrite_failed {st : Nat} (hr : s.run c n = some r) (hw : r.writes = (a, b) :: rest)
    (ha : s.access (mNbr c) r.tc a (.wr b) = (s1, .fail st)) : s.resultWrite c n = s1.failRun c n r (nbCodeOf st) a := by
  simp only [State.resultWrite, hr, hw, ha]

/-- The end code of a failed write is none of an aborted run, whose flags would go. -/
theorem nbCodeOf_ne_nbAborted (st : Nat) : nbCodeOf st ≠ nbAborted := by
  unfold nbCodeOf
  split
  · decide
  · split
    · decide
    · decide

/-- A run that fails before its code is decided ends with the code of the failure, and sends nothing more. -/
theorem failed_of_undecided (hc : r.code = none) {k : Nat} (hk : k ≠ nbAborted) :
    r.failed k = { r with code := some k, writes := [] } := by
  simp only [NbRun.failed, hc, Option.getD_none, if_neg hk]

theorem run_failRun (s : State) (c n : Nat) (r : NbRun) (k a : Nat) : (s.failRun c n r k a).run c n = some (r.failed k) := by
  rw [State.failRun, run_put, run_setRun_same]

theorem errAddr_failRun (s : State) (c n : Nat) (r : NbRun) (k : Nat) (ha : a < 2 ^ 64) :
    (s.failRun c n r k a).get F.nbErrAddr_address [c, n] = a :=
  get_put_fits ha _ _

end

/-! ### The end of a step (R202) -/

/-- The event of a step that sets one. -/
def State.stepEvent (s : State) (c : Nat) (t : NbStep) : State := if t.evEn then s.setEvent c t.event else s

/-- The run goes on with its next step. -/
def State.nextStep (s : State) (c n : Nat) (r : NbRun) : State :=
  (s.setRun c n (some { r with step := (r.step + 1) % 64, visit := 0, read := false, again := false })).put F.nbStatus_step [c, n]
    ((r.step + 1) % 64)

theorem stepEvent_keepsRest (s : State) (c : Nat) (t : NbStep) : s.keepsRest (s.stepEvent c t) := by
  unfold State.stepEvent
  split
  · exact (State.keepsRest.self s).setEvent ..
  · exact State.keepsRest.self s

theorem cores_stepEvent_disabled (s : State) (c : Nat) {t : NbStep} (h : t.evEn = false) : (s.stepEvent c t).cores = s.cores := by
  rw [State.stepEvent, h]
  rfl

theorem event_stepEvent {s : State} {c : Nat} {t : NbStep} (h : t.evEn = true) (hq : tget [] (s.core c).evQ t.event = [])
    (ht : t.event < 64) : (s.stepEvent c t).event c t.event = true := by
  rw [State.stepEvent, if_pos h, setEvent_of_noWait hq]
  exact event_putEvent s c ht

/-- The flag that a step names is one of the core's 64. -/
theorem nbStep_event_lt (s : State) (c n i : Nat) : (s.nbStep c n i).event < 64 := Nat.mod_lt _ (by decide)

section
variable {s : State} {c n : Nat} {r : NbRun}

/-- What the end of a step that is done comes to: its event, then the run's end with OK after the last step, or the next step. -/
theorem stepEnd_done (hr : s.run c n = some r) (hc : r.code = none) (hread : r.read = true) (hw : r.writes = []) :
    s.stepEnd c n =
      if (s.nbStep c n r.step).last then (s.stepEvent c (s.nbStep c n r.step)).setRun c n (some { r with code := some nbOk })
      else (s.stepEvent c (s.nbStep c n r.step)).nextStep c n r := by
  simp only [State.stepEnd, hr, hc, hread, hw, Option.isSome_none, Bool.not_true, List.isEmpty_nil, Bool.or_self, Bool.false_eq_true,
    if_false, State.stepEvent, State.nextStep]

theorem run_nextStep (s : State) (c n : Nat) (r : NbRun) :
    (s.nextStep c n r).run c n = some { r with step := (r.step + 1) % 64, visit := 0, read := false, again := false } := by
  rw [State.nextStep, run_put, run_setRun_same]

theorem step_nextStep (s : State) (c n : Nat) (r : NbRun) : (s.nextStep c n r).get F.nbStatus_step [c, n] = (r.step + 1) % 64 :=
  get_put_fits (Nat.mod_lt _ (by decide)) _ _

theorem cores_nextStep (s : State) (c n : Nat) (r : NbRun) : (s.nextStep c n r).cores = s.cores := put_cores ..

theorem mem_nextStep (s : State) (c n : Nat) (r : NbRun) : (s.nextStep c n r).mem = s.mem := put_mem ..

theorem event_nextStep (s : State) (c n : Nat) (r : NbRun) (i : Nat) : (s.nextStep c n r).event c i = s.event c i :=
  event_put_line (f := F.nbStatus_step) _ _ _ _ _ (by decide) (by decide)

end

/-! ### A pause for refresh (R205) -/

section
variable (s : State) (c n : Nat)

/-- Every owed refresh is issued in a pause, which closes the rows of the channel. -/
theorem chan_nbrPause : (s.nbrPause c n).chan c n =
    { s.chan c n with refreshing := (s.chan c n).refreshing + s.get F.slcStatus_owed [c, n], openRow := [] } := by
  rw [State.nbrPause, chan_bump, State.issueRefresh, chan_modChan, chan_bump]

/-- Splits and refreshes are counted in registers of their own. -/
theorem splits_nbrPause : (s.nbrPause c n).get F.nbSplits_count [c, n] = sat 32 (s.get F.nbSplits_count [c, n] + 1) := by
  rw [State.nbrPause, get_bump_width 32 rfl, State.issueRefresh, get_modChan, get_bump_line _ _ _ _ (by decide) (by decide) (by decide)]

theorem run_nbrPause : (s.nbrPause c n).run c n = s.run c n := by
  rw [State.nbrPause, run_bump, State.issueRefresh, run_modChan, run_bump]

theorem mem_nbrPause : (s.nbrPause c n).mem = s.mem := by
  rw [State.nbrPause, bump_mem, State.issueRefresh, mem_modChan, bump_mem]

/-- A channel that the NBRs leave loses their hold of it at most. -/
theorem chan_freeBurst : (s.freeBurst c n).chan c n =
    { s.chan c n with holder := (s.chan c n).holder.filter (fun h => h.req.requester != rqNbr) } :=
  chan_modChan ..

theorem get_freeBurst (f : Fld) (i : List Nat) : (s.freeBurst c n).get f i = s.get f i := get_congr rfl f i

end

/-- Near the refresh deadline a row burst that is ready gives way to the pause. -/
theorem rowBurst_near {s : State} {c n toDeadline : Nat} {r : NbRun} (errs : List (Fin 4 × Fin 144)) (mm : Option (Fin 4))
    (hr : s.run c n = some r) (ht : toDeadline ≤ 256) (hc : r.code = none) (hread : r.read = false) (hi : s.issueHalted = false)
    (hu : s.chanUsable c n = true) (hb : s.burstReady c n = true) (hf : (s.chan c n).refreshing = 0) :
    s.rowBurst c n toDeadline errs mm = (s.freeBurst c n).nbrPause c n := by
  simp only [State.rowBurst, hr, hc, hread, hi, hu, hb, hf, Option.isSome_none, Bool.or_self, Bool.not_true, Bool.false_eq_true,
    if_false, bne_self_eq_false, if_pos ht]

/-! ### The end of a run (R203) -/

/-- The registers in which the end of a run is seen. -/
def State.putRunEnd (s : State) (c n : Nat) (r : NbRun) (k : Nat) : State :=
  s.puts [(F.nbStatus_code, [c, n], k), (F.nbStatus_step, [c, n], r.step), (F.nbStatus_running, [c, n], 0), (F.nbStatus_done, [c, n], 1),
    (F.nbDoneSummary_done, [c], putBits (s.get F.nbDoneSummary_done [c]) n 1 1)]

/-- A run has left the run slot, with its event and its flags; the run behind it has not started. -/
def State.runLeft (s : State) (c n : Nat) (r : NbRun) (k : Nat) : State :=
  (((s.putRunEnd c n r k).setRun c n none).setEvent c r.event).modSlot c r.slot.val (fun sl => { sl with aflags := sl.aflags ||| r.aflags })

/-- The run in the next slot starts after one that has ended with code `k`. -/
def State.startNext (s : State) (c n k : Nat) : State :=
  match s.nextRun c n with
  | none => s
  | some t => (s.setNextRun c n none).startRun c n (if k = nbOk then t else { t with code := some nbAborted })

theorem endRun_eq (s : State) (c n : Nat) (r : NbRun) (k : Nat) : s.endRun c n r k = (s.runLeft c n r k).startNext c n k := rfl

theorem runEnds_decided {s : State} {c n k : Nat} {r : NbRun} (hr : s.run c n = some r) (hc : r.code = some k) (hw : r.writes = []) :
    s.runEnds c n = ((s.freeBurst c n).runLeft c n r k).startNext c n k := by
  simp only [State.runEnds, hr, hc, hw, List.isEmpty_nil, if_true, endRun_eq]

section
variable (s : State) (c n : Nat) (r : NbRun) (k : Nat)

/-- The fields of NB_STATUS after a run's end. -/
theorem status_putRunEnd : let u := s.putRunEnd c n r k
    u.get F.nbStatus_code [c, n] = k % 16 ∧ u.get F.nbStatus_step [c, n] = r.step % 64 ∧
      u.get F.nbStatus_running [c, n] = 0 ∧ u.get F.nbStatus_done [c, n] = 1 := by
  -- NB_DONE_SUMMARY is written last, and is another register.
  have hsummary (t : State) (v : Nat) {g : Fld} (hg : g.kind = .nbStatus) :
      (t.put F.nbDoneSummary_done [c] v).get g [c, n] = t.get g [c, n] :=
    get_put_line t _ _ _ (by rw [hg]; decide) (by decide) (by rw [hg]; decide)
  simp only [State.putRunEnd, puts_more, puts_none]
  refine ⟨?code, ?step, ?running, ?done⟩
  case code =>
    rw [hsummary _ _ rfl, get_put_beside _ F.nbStatus_done F.nbStatus_code _ _ rfl (by decide),
      get_put_beside _ F.nbStatus_running F.nbStatus_code _ _ rfl (by decide),
      get_put_beside _ F.nbStatus_step F.nbStatus_code _ _ rfl (by decide), get_put_same]
    rfl
  case step =>
    rw [hsummary _ _ rfl, get_put_beside _ F.nbStatus_done F.nbStatus_step _ _ rfl (by decide),
      get_put_beside _ F.nbStatus_running F.nbStatus_step _ _ rfl (by decide), get_put_same]
    rfl
  case running =>
    rw [hsummary _ _ rfl, get_put_beside _ F.nbStatus_done F.nbStatus_running _ _ rfl (by decide), get_put_fits (by decide)]
  case done => rw [hsummary _ _ rfl, get_put_fits (by decide)]

theorem summary_putRunEnd (hn : n < 32) : bit ((s.putRunEnd c n r k).get F.nbDoneSummary_done [c]) n = true := by
  simp only [State.putRunEnd, puts_more, puts_none, get_put_same]
  exact bit_putBits_one hn _

theorem putRunEnd_keepsRest : s.keepsRest (s.putRunEnd c n r k) := (State.keepsRest.self s).puts _

theorem core_putRunEnd : (s.putRunEnd c n r k).core c = s.core c := State.core_congr (puts_cores ..) c

/-- A register other than the event flags holds what the run's end wrote. -/
theorem get_runLeft {g : Fld} (j : List Nat) (hg : ∀ p ∈ g.kind.dims, 64 ∣ p.1) (hb : g.kind.base % 64 ≠ RegKind.evSet.base % 64) :
    (s.runLeft c n r k).get g j = (s.putRunEnd c n r k).get g j := by
  rw [State.runLeft, get_modSlot, get_setEvent _ _ _ _ hg hb]
  exact get_congr (setRun_regs ..) g j

theorem runLeft_keepsRest : ((s.putRunEnd c n r k).setRun c n none).keepsRest (s.runLeft c n r k) :=
  ((State.keepsRest.self _).setEvent ..).modSlot ..

theorem run_runLeft : (s.runLeft c n r k).run c n = none := by
  rw [State.run, (runLeft_keepsRest s c n r k).nbRun]
  exact run_setRun_same ..

theorem nextRun_runLeft : (s.runLeft c n r k).nextRun c n = s.nextRun c n := by
  rw [State.nextRun, (runLeft_keepsRest s c n r k).nbNext, setRun_nbNext, (putRunEnd_keepsRest s c n r k).nbNext, State.nextRun]

theorem mem_runLeft : (s.runLeft c n r k).mem = s.mem := by
  rw [(runLeft_keepsRest s c n r k).mem, setRun_mem, (putRunEnd_keepsRest s c n r k).mem]

end

section
variable {s : State} {c n : Nat} {r : NbRun} (k : Nat) (hq : tget [] (s.core c).evQ r.event = [])
include hq

/-- Where no slot waits on the run's event, the run's end is a write of registers, and of its command's flags. -/
theorem runLeft_of_noWait : s.runLeft c n r k = (((s.putRunEnd c n r k).setRun c n none).putEvent c r.event true).modSlot c r.slot.val
    (fun sl => { sl with aflags := sl.aflags ||| r.aflags }) := by
  have hleft : tget [] (((s.putRunEnd c n r k).setRun c n none).core c).evQ r.event = [] := by
    rw [State.core_congr (setRun_cores ..), core_putRunEnd, hq]
  rw [State.runLeft, setEvent_of_noWait hleft]

theorem event_runLeft (he : r.event < 64) : (s.runLeft c n r k).event c r.event = true := by
  rw [runLeft_of_noWait k hq, event_of_get (get_modSlot ..)]
  exact event_putEvent _ _ he

theorem slot_runLeft {sl : Slot} (hs : s.slot c r.slot.val = some sl) :
    (s.runLeft c n r k).slot c r.slot.val = some { sl with aflags := sl.aflags ||| r.aflags } := by
  have hslot : (((s.putRunEnd c n r k).setRun c n none).putEvent c r.event true).slot c r.slot.val = some sl := by
    rw [State.putEvent, slot_put, State.slot, State.core_congr (setRun_cores ..), core_putRunEnd]
    exact hs
  rw [runLeft_of_noWait k hq, State.modSlot_some _ _ _ _ _ hslot, State.slot_setSlot]

end

/-! ### The start of the run behind (R203) -/

section
variable (s : State) (c n k : Nat)

theorem startNext_keeps {α : Type} (p : State → α) (hnext : ∀ t v, p (State.setNextRun t c n v) = p t)
    (hrun : ∀ t v, p (State.setRun t c n v) = p t) (hrunning : ∀ t v, p (State.put t F.nbStatus_running [c, n] v) = p t)
    (hstep : ∀ t v, p (State.put t F.nbStatus_step [c, n] v) = p t) : p (s.startNext c n k) = p s := by
  unfold State.startNext
  split
  · rfl
  · rw [State.startRun, puts_more, puts_more, puts_none, hstep, hrunning, hrun, hnext]

theorem cores_startNext : (s.startNext c n k).cores = s.cores :=
  startNext_keeps s c n k State.cores (fun _ _ => rfl) (fun _ _ => rfl) (fun _ _ => rfl) fun _ _ => rfl

theorem mem_startNext : (s.startNext c n k).mem = s.mem :=
  startNext_keeps s c n k State.mem (fun _ _ => rfl) (fun _ _ => rfl) (fun _ _ => rfl) fun _ _ => rfl

/-- A register other than NB_STATUS. -/
theorem get_startNext_line {g : Fld} (j : List Nat) (hg : ∀ p ∈ g.kind.dims, 64 ∣ p.1)
    (hb : g.kind.base % 64 ≠ RegKind.nbStatus.base % 64) : (s.startNext c n k).get g j = s.get g j :=
  startNext_keeps s c n k (State.get · g j) (fun _ _ => get_congr rfl _ _) (fun _ _ => get_congr rfl _ _)
    (fun t v => get_put_line t _ _ v hg (by decide) hb) fun t v => get_put_line t _ _ v hg (by decide) hb

/-- A field of NB_STATUS other than RUNNING and STEP. -/
theorem get_startNext_beside {g : Fld} (hk : g.kind = .nbStatus) (hrunning : 1 ≤ g.lo) (hstep : g.lo + g.len ≤ 8) :
    (s.startNext c n k).get g [c, n] = s.get g [c, n] :=
  startNext_keeps s c n k (State.get · g [c, n]) (fun _ _ => get_congr rfl _ _) (fun _ _ => get_congr rfl _ _)
    (fun t v => get_put_beside t F.nbStatus_running g _ v hk (.inr hrunning))
    fun t v => get_put_beside t F.nbStatus_step g _ v hk (.inl hstep)

variable {s c n}

theorem startNext_none (h : s.nextRun c n = none) : s.startNext c n k = s := by
  simp only [State.startNext, h]

theorem run_startNext_some {t : NbRun} (h : s.nextRun c n = some t) :
    (s.startNext c n k).run c n = some (if k = nbOk then t else { t with code := some nbAborted }) := by
  simp only [State.startNext, h, State.startRun, puts_more, puts_none, run_put, run_setRun_same]

theorem nextRun_startNext_some {t : NbRun} (h : s.nextRun c n = some t) : (s.startNext c n k).nextRun c n = none := by
  simp only [State.startNext, h, State.startRun, puts_more, puts_none, nextRun_put, nextRun_setRun, nextRun_setNextRun_same]

end

/-- Settles O34: each event of a run is brought to what it comes to, from which its clauses are read. -/
theorem nearBankRunProgress : Obligations.NearBankRunProgress := by
  intro core ch s s1 r c n hr
  refine ⟨fun a b rest hw => ⟨?served, ?failed⟩, ?stepEnd, ?pause, ?runEnd⟩
  case served =>
    intro ha
    refine ⟨s.resultWrite c n, rfl, ?_⟩
    rw [resultWrite_served hr hw ha]
    exact ⟨run_setRun_same .., rfl⟩
  case failed =>
    intro st ha hfits hc
    refine ⟨s.resultWrite c n, rfl, ?_⟩
    rw [resultWrite_failed hr hw ha]
    refine ⟨?_, errAddr_failRun s1 c n r _ hfits, rfl⟩
    rw [run_failRun, failed_of_undecided hc (nbCodeOf_ne_nbAborted st)]
    rfl
  case stepEnd =>
    intro hc hread hw t
    refine ⟨s.stepEnd c n, rfl, ?_⟩
    have hrest : s.keepsRest (s.stepEvent c t) := stepEvent_keepsRest s c t
    have hevent (he : t.evEn = true) (hq : tget [] (s.core c).evQ t.event = []) : (s.stepEvent c t).event c t.event = true :=
      event_stepEvent he hq (nbStep_event_lt s c n r.step)
    rw [stepEnd_done hr hc hread hw]
    by_cases hl : t.last = true
    · rw [if_pos hl]
      exact ⟨hevent, cores_stepEvent_disabled s c, fun _ => run_setRun_same .., fun h => absurd hl (ne_true_of_eq_false h),
        hrest.mem⟩
    · rw [if_neg hl]
      exact ⟨fun he hq => (event_nextStep ..).trans (hevent he hq), fun he => (cores_nextStep ..).trans (cores_stepEvent_disabled s c he),
        fun h => absurd h hl, fun _ => ⟨run_nextStep .., step_nextStep ..⟩, (mem_nextStep ..).trans hrest.mem⟩
  case pause =>
    intro toDeadline errs mm ht hc hread hi hu hb hf
    refine ⟨s.rowBurst c n toDeadline errs mm, rfl, ?_⟩
    rw [rowBurst_near errs mm hr ht hc hread hi hu hb hf]
    refine ⟨(run_nbrPause ..).trans hr, ?refreshing, ?rows, ?splits, mem_nbrPause ..⟩
    case refreshing => simp only [chan_nbrPause, chan_freeBurst, get_freeBurst, hf, Nat.zero_add]
    case rows => rw [chan_nbrPause]
    case splits => rw [splits_nbrPause, get_freeBurst]
  case runEnd =>
    intro k hc hk hw
    refine ⟨s.runEnds c n, rfl, ?_⟩
    rw [runEnds_decided hr hc hw]
    obtain ⟨hcode, hstep, hrunning, hdone⟩ := status_putRunEnd (s.freeBurst c n) c n r k
    have hstatus {g : Fld} (hg : g.kind = .nbStatus) :
        ((s.freeBurst c n).runLeft c n r k).get g [c, n] = ((s.freeBurst c n).putRunEnd c n r k).get g [c, n] :=
      get_runLeft _ _ _ _ _ _ (by rw [hg]; decide) (by rw [hg]; decide)
    have hnext : ((s.freeBurst c n).runLeft c n r k).nextRun c n = s.nextRun c n := nextRun_runLeft ..
    refine ⟨?code, ?done, ?summary, ?event, ?alone, ?behind, ?flags, (mem_startNext ..).trans (mem_runLeft ..)⟩
    case code =>
      rw [get_startNext_beside _ _ _ _ rfl (by decide) (by decide), hstatus rfl, hcode]
      exact Nat.mod_eq_of_lt hk
    case done =>
      apply flag_of_get_eq
      rw [get_startNext_beside _ _ _ _ rfl (by decide) (by decide), hstatus rfl, hdone]
    case summary =>
      rw [get_startNext_line _ _ _ _ _ (by decide) (by decide), get_runLeft _ _ _ _ _ _ (by decide) (by decide)]
      exact summary_putRunEnd _ c n r k ch.isLt
    case event =>
      intro he hq
      rw [event_of_get (get_startNext_line _ _ _ _ _ (by decide) (by decide))]
      exact event_runLeft (s := s.freeBurst c n) k hq he
    case alone =>
      intro h
      rw [startNext_none k (hnext.trans h)]
      exact ⟨run_runLeft .., flag_eq_false_of_get ((hstatus rfl).trans hrunning), (hstatus rfl).trans hstep⟩
    case behind =>
      intro t h
      exact ⟨nextRun_startNext_some k (hnext.trans h), run_startNext_some k (hnext.trans h)⟩
    case flags =>
      intro sl hs hq
      rw [State.slot, State.core_congr (cores_startNext ..)]
      exact slot_runLeft (s := s.freeBurst c n) k hq hs

end Sys2Proof.Machine
end

section
/-! SUPPORT. The DMA engines at work: the equation of each event of a descriptor (its start, its bursts and its end), and what the
registers and the engine hold after it (R250 to R253). -/

namespace Sys2Proof.Machine

/-! ### Engines and registers lie apart -/

theorem eng_put (s : State) (f : Fld) (i : List Nat) (v c e : Nat) : (s.put f i v).eng c e = s.eng c e := rfl

theorem eng_bump (s : State) (f : Fld) (i : List Nat) (n c e : Nat) : (s.bump f i n).eng c e = s.eng c e := rfl

theorem get_setEng (s : State) (c e : Nat) (x : DmaEng) (f : Fld) (i : List Nat) : (s.setEng c e x).get f i = s.get f i :=
  get_congr rfl f i

theorem dmaState_setEng (s : State) (c e : Nat) (x : DmaEng) : (s.setEng c e x).dmaState c e = s.dmaState c e := get_setEng ..

theorem dmaState_put_state {v : Nat} (hv : v < 4) (s : State) (c e : Nat) :
    (s.put F.dmaStatus_state [c, e] v).dmaState c e = v := get_put_fits hv ..

/-- From `s` to `t` nothing but registers and DMA engines has changed. -/
def State.keepsBesideDma (s t : State) : Prop := ∃ regs dma, t = { s with regs := regs, dma := dma }

namespace State.keepsBesideDma

variable {s t : State}

theorem self (s : State) : s.keepsBesideDma s := ⟨_, _, rfl⟩

theorem eq (h : s.keepsBesideDma t) : t = { s with regs := t.regs, dma := t.dma } := by
  obtain ⟨_, _, rfl⟩ := h
  rfl

theorem put (h : s.keepsBesideDma t) (f : Fld) (i : List Nat) (v : Nat) : s.keepsBesideDma (t.put f i v) := by
  obtain ⟨_, _, rfl⟩ := h
  exact ⟨_, _, rfl⟩

theorem setEng (h : s.keepsBesideDma t) (c e : Nat) (x : DmaEng) : s.keepsBesideDma (t.setEng c e x) := by
  obtain ⟨_, _, rfl⟩ := h
  exact ⟨_, _, rfl⟩

end State.keepsBesideDma

/-! ### The start of a descriptor (R250, R251) -/

/-- An engine with a descriptor just read, as it is held: the rest of its queue, the chain, its image, and DESC_INVALID at once for
an image that is not valid. -/
def DmaEng.holding (queue : List DmaReq) (r : DmaReq) (image : Nat) (flush : Bool) : DmaEng :=
  { queue := queue, req := some r, desc := r.addr, image := image, flush := flush, code := if dmaValid image then none else some 2 }

theorem dmaStart_of_queue {s s1 : State} {c e : Nat} {r : DmaReq} {q : List DmaReq} {b : List Byte} (hi : s.issueHalted = false)
    (hu : s.coreUsable c = true) (hst : s.dmaState c e = dmaIdle ∨ s.dmaState c e = dmaActive) (hl : (s.eng c e).loaded = false)
    (hr : (s.eng c e).req = none) (hq : (s.eng c e).queue = r :: q) (ha : s.access (mDma c e) r.tc r.addr (.rd 64) = (s1, .ok b)) :
    s.dmaStart c e = some ((s1.setEng c e (.holding q r (leOf b) (s.eng c e).flush)).put F.dmaStatus_state [c, e] dmaActive) := by
  have hready : (s.dmaState c e == dmaIdle || s.dmaState c e == dmaActive) = true := by simpa using hst
  simp only [State.dmaStart, hi, hu, hready, hl, hr, hq, State.dmaLoad, ha]
  rfl

theorem exec_dmaDescriptorStart {core : CoreId} {eng : Fin 4} {s t : State} (hi : s.issueHalted = false)
    (h : s.dmaStart core.val eng.val = some t) : exec (.dmaDescriptorStart core eng) s = .next t.kickAll := by
  show execDmaDescriptorStart core eng s = _
  simp only [execDmaDescriptorStart, hi, h]
  rfl

/-! ### Bursts (R251 to R253) -/

/-- The address that the engine's next burst reads from. -/
def DmaEng.src (x : DmaEng) : Nat := dmaAddr (dmaField x.image 0x08 8) (dmaField x.image 0x20 8) x.row x.byte

/-- The address that it writes to. -/
def DmaEng.dst (x : DmaEng) : Nat := dmaAddr (dmaField x.image 0x10 8) (dmaField x.image 0x28 8) x.row x.byte

/-- Its length: to the end of the row, and no further than a 64-byte boundary of the destination. -/
def DmaEng.burst (x : DmaEng) : Nat := min (dmaLen x.image - x.byte) (64 - x.dst % 64)

theorem dmaAddr_lt (base stride r b : Nat) : dmaAddr base stride r b < 2 ^ 64 := by
  have hlt : ((base : Int) + r * toSigned 64 stride + b).emod (2 ^ 64) < 2 ^ 64 := Int.emod_lt_of_pos _ (by decide)
  unfold dmaAddr
  omega

/-- Engine `e` of core `c` is ACTIVE at a descriptor of chain `r` that has not ended. -/
structure State.Moving (s : State) (c e : Nat) (r : DmaReq) : Prop where
  issue : s.issueHalted = false
  active : s.dmaState c e = dmaActive
  loaded : (s.eng c e).loaded = true
  code : (s.eng c e).code = none
  req : (s.eng c e).req = some r

section
variable {s s1 s2 : State} {c e : Nat} {r : DmaReq} (h : s.Moving c e r)
include h

theorem dmaMove_served {bs : List Byte} (hf : dmaFill (s.eng c e).image = false)
    (hrd : s.access (mDma c e) r.tc (s.eng c e).src (.rd (s.eng c e).burst) = (s1, .ok bs))
    (hwr : s1.access (mDma c e) r.tc (s.eng c e).dst (.wr bs) = (s2, .ok [])) :
    s.dmaMove c e false =
      some ((s2.setEng c e ((s.eng c e).advance (s.eng c e).burst)).bump F.dmaBytes_value [c, e] (s.eng c e).burst) := by
  simp only [DmaEng.src, DmaEng.dst, DmaEng.burst] at hrd hwr ⊢
  simp [State.dmaMove, h.issue, h.active, h.loaded, h.code, h.req, hf, hrd, hwr]

theorem dmaMove_readFails {st : Nat} (hf : dmaFill (s.eng c e).image = false)
    (hrd : s.access (mDma c e) r.tc (s.eng c e).src (.rd (s.eng c e).burst) = (s1, .fail st)) :
    s.dmaMove c e false = some ((s1.setEng c e { s.eng c e with code := some (dmaCode st) }).put F.dmaFailedAddr_value [c, e]
      (s.eng c e).src) := by
  simp only [DmaEng.src, DmaEng.dst, DmaEng.burst] at hrd ⊢
  simp [State.dmaMove, h.issue, h.active, h.loaded, h.code, h.req, hf, hrd]

theorem dmaMove_firstMismatch (ha : (s.eng c e).again = false) :
    s.dmaMove c e true = some (s.setEng c e { s.eng c e with again := true }) := by
  simp [State.dmaMove, h.issue, h.active, h.loaded, h.code, ha]

end

theorem exec_dmaBurst {core : CoreId} {eng : Fin 4} {mismatch : Bool} {s t : State} (hi : s.issueHalted = false)
    (h : s.dmaMove core.val eng.val mismatch = some t) : exec (.dmaBurst core eng mismatch) s = .next t.kickAll := by
  show execDmaBurst core eng mismatch s = _
  simp only [execDmaBurst, hi, h]
  rfl

/-! ### The end of a descriptor (R252, R253) -/

/-- A descriptor's code in DMA_STATUS: LAST_CODE, and ERR unless it is OK. -/
def State.dmaCoded (s : State) (c e k : Nat) : State :=
  if k = 0 then s.put F.dmaStatus_lastCode [c, e] k else (s.put F.dmaStatus_lastCode [c, e] k).put F.dmaStatus_err [c, e] 1

/-- The state of an engine whose chain has ended with code `k`. -/
def State.dmaStateAfter (s : State) (c e k : Nat) (queue : List DmaReq) : Nat :=
  if s.dmaState c e = dmaFaulted then dmaFaulted else if 2 ≤ k then dmaStopped else if queue.isEmpty then dmaIdle else dmaActive

section
variable (s : State) (c e k : Nat)

theorem dmaCoded_keepsBesideDma : s.keepsBesideDma (s.dmaCoded c e k) := by
  unfold State.dmaCoded
  split
  · exact (State.keepsBesideDma.self s).put ..
  · exact ((State.keepsBesideDma.self s).put ..).put ..

theorem lastCode_dmaCoded (hk : k < 256) : (s.dmaCoded c e k).get F.dmaStatus_lastCode [c, e] = k := by
  unfold State.dmaCoded
  split
  · exact get_put_fits hk ..
  · rw [get_put_beside _ F.dmaStatus_err F.dmaStatus_lastCode _ _ rfl (by decide)]
    exact get_put_fits hk ..

theorem err_dmaCoded (hk : k ≠ 0) : (s.dmaCoded c e k).get F.dmaStatus_err [c, e] = 1 := by
  rw [State.dmaCoded, if_neg hk]
  exact get_put_fits (by decide) ..

theorem dmaState_dmaCoded : (s.dmaCoded c e k).dmaState c e = s.dmaState c e := by
  have hcode (t : State) (v : Nat) : (t.put F.dmaStatus_lastCode [c, e] v).dmaState c e = t.dmaState c e :=
    get_put_beside _ _ _ _ _ rfl (by decide)
  have herr (t : State) (v : Nat) : (t.put F.dmaStatus_err [c, e] v).dmaState c e = t.dmaState c e :=
    get_put_beside _ _ _ _ _ rfl (by decide)
  unfold State.dmaCoded
  split
  · exact hcode ..
  · exact (herr ..).trans (hcode ..)

theorem dmaStateAfter_lt (queue : List DmaReq) : s.dmaStateAfter c e k queue < 4 := by
  have hlast : (if queue.isEmpty then dmaIdle else dmaActive) < 4 := by split <;> decide
  unfold State.dmaStateAfter
  split
  · decide
  · split
    · decide
    · exact hlast

end

section
variable {s s1 : State} {c e k : Nat} {r : DmaReq} (hc : (s.eng c e).code = some k) (hr : (s.eng c e).req = some r)
  (ha : s.access (mDma c e) r.tc ((s.eng c e).desc + 0x1C) (.wr (leBytes 4 (0x100 + k))) = (s1, .ok []))
  (hs : dmaSigEn (s.eng c e).image = false)
include hc hr ha hs

/-- The last descriptor of a chain, one without signal or event. -/
theorem dmaComplete_chainEnds (hend : k ≠ 0 ∨ dmaChain (s.eng c e).image = false) (hev : r.event = none) :
    s.dmaComplete c e = some (((s1.dmaCoded c e k).setEng c e { queue := (s.eng c e).queue }).put F.dmaStatus_state [c, e]
      (s1.dmaStateAfter c e k (s.eng c e).queue)) := by
  have hlast : ¬ (k = 0 ∧ dmaChain (s.eng c e).image = true ∧ (!(s.eng c e).flush) = true) := by
    rintro ⟨hk, hchain, -⟩
    exact hend.elim (absurd hk) fun h => absurd hchain (by simp [h])
  have hstate : (if k = 0 then s1.put F.dmaStatus_lastCode [c, e] k
      else (s1.put F.dmaStatus_lastCode [c, e] k).put F.dmaStatus_err [c, e] 1).dmaState c e = s1.dmaState c e := dmaState_dmaCoded ..
  simp only [State.dmaComplete, hc, hr, ha, hs, Bool.and_false, Bool.false_eq_true, if_false, if_neg hlast, State.chainEvent, hev,
    dmaState_setEng, hstate]
  rfl

/-- A descriptor that ended OK and names a next one. -/
theorem dmaComplete_chainGoesOn (hk : k = 0) (hchain : dmaChain (s.eng c e).image = true) (hf : (s.eng c e).flush = false) :
    s.dmaComplete c e = some ((s1.dmaCoded c e k).setEng c e
      { queue := (s.eng c e).queue, req := some r, desc := dmaNext (s.eng c e).image }) := by
  have hnext : k = 0 ∧ dmaChain (s.eng c e).image = true ∧ (!(s.eng c e).flush) = true := ⟨hk, hchain, by rw [hf]; rfl⟩
  simp only [State.dmaComplete, hc, hr, ha, hs, Bool.and_false, Bool.false_eq_true, if_false, if_pos hnext]
  rfl

end

theorem exec_dmaCompletion {core : CoreId} {eng : Fin 4} {s t : State} (h : s.dmaComplete core.val eng.val = some t) :
    exec (.dmaCompletion core eng) s = .next t.kickAll := by
  show execDmaCompletion core eng s = _
  simp only [execDmaCompletion, h]
  rfl

/-- Settles O30: each event of a descriptor answers the state that its equation gives, from which the clauses are read. -/
theorem dmaDescriptorRuns : Obligations.DmaDescriptorRuns := by
  intro core eng s s1 s2 b bs c e x
  refine ⟨?start, ?bursts, ?ends⟩
  case start =>
    intro r q hi hu hst hl hr hq ha
    refine ⟨_, exec_dmaDescriptorStart hi (dmaStart_of_queue hi hu hst hl hr hq ha), dmaState_put_state (by decide) .., ?_, rfl⟩
    rw [eng_put]
    exact eng_setEng_same ..
  case bursts =>
    intro r n src dst hi hst hl hc hr hdst hsrc hn
    have hmoving : s.Moving c e r := ⟨hi, hst, hl, hc, hr⟩
    obtain rfl : dst = x.dst := hdst
    obtain rfl : src = x.src := hsrc
    obtain rfl : n = x.burst := hn
    refine ⟨?served, ?failed, ?mismatch⟩
    case served =>
      intro hf hrd hwr
      refine ⟨_, exec_dmaBurst hi (dmaMove_served hmoving hf hrd hwr), ?_, ?_, rfl⟩
      · rw [eng_bump]
        exact eng_setEng_same ..
      · rw [get_bump_width 64 rfl, get_setEng]
    case failed =>
      intro st hf hrd
      refine ⟨_, exec_dmaBurst hi (dmaMove_readFails hmoving hf hrd), ?_, get_put_fits (dmaAddr_lt ..) .., rfl⟩
      rw [eng_put]
      exact eng_setEng_same ..
    case mismatch =>
      intro hagain
      exact ⟨_, exec_dmaBurst hi (dmaMove_firstMismatch hmoving hagain), eng_setEng_same .., rfl⟩
  case ends =>
    intro r k hc hk hr ha hs
    have hcoded : s1.keepsBesideDma (s1.dmaCoded c e k) := dmaCoded_keepsBesideDma ..
    refine ⟨?chainEnds, ?goesOn⟩
    case chainEnds =>
      intro hend hev
      refine ⟨_, exec_dmaCompletion (dmaComplete_chainEnds hc hr ha hs hend hev), ?eng, ?code, ?err, ?state,
        ((hcoded.setEng ..).put ..).eq⟩
      case eng =>
        rw [eng_put]
        exact eng_setEng_same ..
      case code =>
        refine (get_put_beside _ F.dmaStatus_state F.dmaStatus_lastCode _ _ rfl (by decide)).trans ?_
        rw [get_setEng]
        exact lastCode_dmaCoded _ _ _ _ hk
      case err =>
        intro hne
        apply flag_of_get_eq
        refine (get_put_beside _ F.dmaStatus_state F.dmaStatus_err _ _ rfl (by decide)).trans ?_
        rw [get_setEng]
        exact err_dmaCoded _ _ _ _ hne
      case state =>
        intro hne
        rw [dmaState_put_state (dmaStateAfter_lt ..), State.dmaStateAfter, if_neg hne]
        simp only [List.isEmpty_iff]
        rfl
    case goesOn =>
      intro hk0 hchain hf
      refine ⟨_, exec_dmaCompletion (dmaComplete_chainGoesOn hc hr ha hs hk0 hchain hf), eng_setEng_same .., ?_, ?_⟩
      · rw [get_setEng, lastCode_dmaCoded _ _ _ _ hk, hk0]
      · rw [dmaState_setEng]
        exact dmaState_dmaCoded ..

end Sys2Proof.Machine
end

section
/-! SUPPORT. The control of the DMA engines and the ownership of scratchpad banks: what DMA_SUBMIT, RESTART, FLUSH and SPAD_HANDOVER
leave, and what a bad parity that a re-read corrects does (R247, R249, R250, R253, R255). -/

namespace Sys2Proof.Machine

/-! ### Writes of registers only -/

theorem regsOnly_self (s : State) (l : List Nat) : regsOnly s s l := ⟨rfl, fun _ _ _ => rfl⟩

theorem regsOnly.put {s t : State} {l : List Nat} (h : regsOnly s t l) {f : Fld} {i : List Nat} (hf : regAddr f.kind i ∈ l) (v : Nat) :
    regsOnly s (t.put f i v) l := by
  obtain ⟨heq, hreg⟩ := h
  refine ⟨congrArg (fun u : State => { u with regs := (t.put f i v).regs }) heq, fun k j hk => ?_⟩
  rw [reg_put_other t f i v k j fun e => hk (e ▸ hf), hreg k j hk]

theorem regsOnly.bump {s t : State} {l : List Nat} (h : regsOnly s t l) {f : Fld} {i : List Nat} (hf : regAddr f.kind i ∈ l) (n : Nat) :
    regsOnly s (t.bump f i n) l := h.put hf _

theorem regsOnly.puts {s t : State} {l : List Nat} (h : regsOnly s t l) (w : List (Fld × List Nat × Nat))
    (hw : ∀ x ∈ w, regAddr x.1.kind x.2.1 ∈ l) : regsOnly s (t.puts w) l := by
  induction w generalizing t with
  | nil => exact h
  | cons x w ih => exact ih (h.put (hw x List.mem_cons_self) x.2.2) fun y hy => hw y (List.mem_cons_of_mem x hy)

theorem atReg_served {s : State} {k : RegKind} {i : List Nat} (h : s.regServed mHostIo (regAddr k i) = true) (f : State → State) :
    s.atReg k i f = f s := if_pos h

/-! ### Single bits of a field, and saturating counts -/

theorem bit_eq_testBit (n i : Nat) : bit n i = n.testBit i := by
  rw [Nat.testBit_eq_decide_div_mod_eq]
  rfl

theorem bit_toNat {w : Nat} (x : BitVec w) (i : Nat) : bit x.toNat i = x.getLsbD i := by
  rw [bit_eq_testBit, BitVec.testBit_toNat]

/-- One bit written into a number of `w` bits. -/
theorem bit_putBits_mod {w j : Nat} (hj : j < w) (n i v : Nat) :
    bit (putBits n i 1 v % 2 ^ w) j = if j = i then bit v 0 else bit n j := by
  simp only [bit_eq_testBit, Nat.testBit_mod_two_pow, hj, decide_true, Bool.true_and, testBit_putBits]
  by_cases h : j = i
  · subst h
    rw [if_pos (by omega), if_pos rfl, Nat.sub_self]
  · rw [if_neg (by omega), if_neg h]

theorem sat_sat_add (w a b : Nat) : sat w (sat w a + b) = sat w (a + b) := by
  have hpos := Nat.two_pow_pos w
  unfold sat
  by_cases ha : a < 2 ^ w
  · rw [if_pos ha]
  · rw [if_neg ha, if_neg (show ¬ a + b < 2 ^ w by omega)]
    split <;> omega

theorem sat_of_get (s : State) {f : Fld} {w : Nat} (hw : f.len = w) (i : List Nat) : sat w (s.get f i) = s.get f i :=
  if_pos (hw ▸ get_lt s f i)

/-! ### DMA_SUBMIT and RESTART (R250, R253, R255) -/

section
variable {s : State} {c e : Nat}

theorem dmaSubmit_queues (v : Nat) (hst : s.dmaState c e ≠ dmaStopped) (hf : s.dmaState c e ≠ dmaFaulted)
    (hroom : (s.eng c e).queue.length < 16) : s.dmaSubmit c e v true = s.setEng c e { s.eng c e with
      queue := (s.eng c e).queue ++ [{ addr := v / 64 * 64, tc := v % 8, owner := none, event := none }] } := by
  have hcap : ¬ dmaCap ≤ (s.eng c e).queue.length := Nat.not_le.mpr hroom
  simp [State.dmaSubmit, hst, hf, hcap]

theorem dmaSubmit_ignored (v : Nat) {wide : Bool}
    (h : wide = false ∨ s.dmaState c e = dmaStopped ∨ s.dmaState c e = dmaFaulted ∨ 16 ≤ (s.eng c e).queue.length) :
    s.dmaSubmit c e v wide = s.spadIgnored c := by
  have hrefused : (!wide || s.dmaState c e == dmaStopped || s.dmaState c e == dmaFaulted ||
      decide (dmaCap ≤ (s.eng c e).queue.length)) = true := by
    simpa [or_assoc] using (show wide = false ∨ _ ∨ _ ∨ dmaCap ≤ (s.eng c e).queue.length from h)
  exact if_pos hrefused

theorem ignored_spadIgnored (s : State) (c : Nat) :
    (s.spadIgnored c).get F.spadIgnored_count [c] = sat 32 (s.get F.spadIgnored_count [c] + 1) := get_bump_width 32 rfl ..

theorem dmaRestart_stopped (h : s.dmaState c e = dmaStopped) :
    s.dmaRestart c e = s.put F.dmaStatus_state [c, e] (if (s.eng c e).queue = [] then dmaIdle else dmaActive) := by
  simp only [State.dmaRestart, h, if_true, List.isEmpty_iff]

theorem dmaRestart_other (h : s.dmaState c e ≠ dmaStopped) : s.dmaRestart c e = s := if_neg h

end

/-! ### The events of chains that end (R95, R252) -/

/-- The events of several chains, in their order. -/
def State.chainEvents (s : State) (c : Nat) (l : List DmaReq) : State := l.foldl (fun s r => s.chainEvent c r) s

theorem event_putEvent_other (s : State) (c : Nat) (v : Bool) {i j : Nat} (hi : i < 64) (h : i ≠ j) :
    (s.putEvent c j v).event c i = s.event c i := by
  rw [State.event, State.putEvent, get_put_same]
  exact (bit_putBits_mod hi ..).trans (if_neg h)

theorem evQ_modSlot (s : State) (c k : Nat) (f : Slot → Slot) : ((s.modSlot c k f).core c).evQ = (s.core c).evQ := by
  unfold State.modSlot
  split
  · rw [State.setSlot, core_modCore_same]
    rfl
  · rfl

theorem event_setEvent_other (s : State) (c : Nat) {i j : Nat} (hi : i < 64) (h : i ≠ j) :
    (s.setEvent c j).event c i = s.event c i := by
  simp only [State.setEvent]
  split
  · exact event_putEvent_other s c true hi h
  · rw [State.granted, event_of_get (get_modSlot ..), event_putEvent_other _ c false hi h,
      event_of_get (get_congr (modCore_regs ..) ..), event_putEvent_other _ c true hi h]

theorem evQ_setEvent_other (s : State) (c : Nat) {i j : Nat} (h : i ≠ j) :
    tget [] ((s.setEvent c j).core c).evQ i = tget [] (s.core c).evQ i := by
  have hput (t : State) (v : Bool) : (t.putEvent c j v).core c = t.core c := core_put ..
  simp only [State.setEvent]
  split
  · rw [hput]
  · rw [State.granted, evQ_modSlot, hput, core_modCore_same, hput]
    exact tget_tset_ne _ _ _ h

section
variable {s : State} {c i : Nat}

theorem noWait_chainEvent (h : tget [] (s.core c).evQ i = []) (r : DmaReq) : tget [] ((s.chainEvent c r).core c).evQ i = [] := by
  unfold State.chainEvent
  split
  case h_1 j _ =>
    by_cases hj : i = j
    · subst hj
      rwa [setEvent_of_noWait h, State.putEvent, core_put]
    · rwa [evQ_setEvent_other s c hj]
  case h_2 => exact h

/-- A flag that no slot waits on is set by the end of its own chain, and stays set at the end of any other. -/
theorem event_chainEvent (hi : i < 64) (h : tget [] (s.core c).evQ i = []) {r : DmaReq} (hr : s.event c i = true ∨ r.event = some i) :
    (s.chainEvent c r).event c i = true := by
  unfold State.chainEvent
  split
  case h_1 j hj =>
    by_cases hij : i = j
    · subst hij
      rw [setEvent_of_noWait h]
      exact event_putEvent s c hi
    · rw [event_setEvent_other s c hi hij]
      exact hr.resolve_right fun hri => hij (Option.some.inj (hri.symm.trans hj))
  case h_2 hnone => exact hr.resolve_right fun hri => by simp [hri] at hnone

theorem event_chainEvents (hi : i < 64) (h : tget [] (s.core c).evQ i = []) {l : List DmaReq}
    (hl : s.event c i = true ∨ ∃ r ∈ l, r.event = some i) : (s.chainEvents c l).event c i = true := by
  induction l generalizing s with
  | nil => exact hl.resolve_right (by simp)
  | cons r l ih =>
    refine ih (noWait_chainEvent h r) ?_
    obtain hs | ⟨q, hq, hqi⟩ := hl
    · exact .inl (event_chainEvent hi h (.inl hs))
    · obtain rfl | hq := List.mem_cons.mp hq
      · exact .inl (event_chainEvent hi h (.inr hqi))
      · exact .inr ⟨q, hq, hqi⟩

end

theorem keepsRest_chainEvent (s : State) (c : Nat) (r : DmaReq) : s.keepsRest (s.chainEvent c r) := by
  unfold State.chainEvent
  split
  · exact (State.keepsRest.self s).setEvent ..
  · exact State.keepsRest.self s

theorem mem_chainEvents (s : State) (c : Nat) (l : List DmaReq) : (s.chainEvents c l).mem = s.mem :=
  foldl_keeps State.mem (fun t r => (keepsRest_chainEvent t c r).mem) l s

theorem dmaState_chainEvent (s : State) (c d e : Nat) (r : DmaReq) : (s.chainEvent c r).dmaState d e = s.dmaState d e := by
  unfold State.chainEvent
  split
  · exact get_setEvent s c _ _ (by decide) (by decide)
  · rfl

theorem dmaState_chainEvents (s : State) (c d e : Nat) (l : List DmaReq) : (s.chainEvents c l).dmaState d e = s.dmaState d e :=
  foldl_keeps (State.dmaState · d e) (fun t r => dmaState_chainEvent t c d e r) l s

/-! ### FLUSH (R253) -/

section
variable {s : State} {c e : Nat}

/-- The descriptor that the engine holds stays, and ends its chain. -/
theorem dmaFlush_loaded (h : (s.eng c e).loaded = true) : s.dmaFlush c e =
    (s.chainEvents c (s.eng c e).queue).setEng c e { s.eng c e with queue := [], flush := true } := by
  simp only [State.dmaFlush, h, if_true]
  rfl

/-- With no descriptor held, the chain between two descriptors ends too. -/
theorem dmaFlush_unloaded (h : (s.eng c e).loaded = false) (hf : s.dmaState c e ≠ dmaFaulted) : s.dmaFlush c e =
    ((s.chainEvents c ((s.eng c e).queue ++ (s.eng c e).req.toList)).setEng c e {}).put F.dmaStatus_state [c, e] dmaIdle := by
  have hstate (l : List DmaReq) : ((s.chainEvents c l).setEng c e {}).dmaState c e ≠ dmaFaulted := by
    rwa [dmaState_setEng, dmaState_chainEvents]
  have happend (l m : List DmaReq) : s.chainEvents c (l ++ m) = (s.chainEvents c l).chainEvents c m := List.foldl_append
  cases hr : (s.eng c e).req with
  | none =>
    have hempty := hstate (s.eng c e).queue
    simp only [State.chainEvents] at hempty
    simp [State.dmaFlush, h, hr, State.chainEvents, hempty]
  | some r =>
    have hlast := hstate ((s.eng c e).queue ++ [r])
    simp only [State.chainEvents, List.foldl_append, List.foldl_cons, List.foldl_nil] at hlast
    simp [State.dmaFlush, h, hr, State.chainEvents, hlast]

end

/-! ### Handover of banks (R247) -/

/-- What a write of SPAD_HANDOVER does to bank `b`. -/
def State.handoverBank (s : State) (c mask : Nat) (target : Bool) (b : Nat) : State :=
  if !bit mask b then s
  else if bit (s.get F.spadOwner_handover [c]) b then s.spadIgnored c
  else if bit (s.get F.spadOwner_dma [c]) b == target then s
  else s.put F.spadOwner_handover [c] (putBits (s.get F.spadOwner_handover [c]) b 1 1)

/-- What it has done once the banks below `n` are through. -/
def State.handoverBelow (s : State) (c mask : Nat) (target : Bool) (n : Nat) : State :=
  (List.range n).foldl (fun s b => s.handoverBank c mask target b) s

section
variable (s : State) (c mask : Nat) (target : Bool)

theorem handover_eq_handoverBelow : s.handover c mask target = s.handoverBelow c mask target 32 := rfl

theorem handoverBelow_succ (n : Nat) :
    s.handoverBelow c mask target (n + 1) = (s.handoverBelow c mask target n).handoverBank c mask target n := by
  simp only [State.handoverBelow, List.range_succ, List.foldl_append, List.foldl_cons, List.foldl_nil]

/-- A bank outside the mask, or one that the target owns, stays as it is; one in HANDOVER is ignored; any other comes into HANDOVER. -/
theorem handoverBank_cases (n : Nat) : let hand := s.get F.spadOwner_handover [c]; let dma := s.get F.spadOwner_dma [c]
    (bit mask n = false ∨ bit hand n = false ∧ bit dma n = target) ∧ s.handoverBank c mask target n = s ∨
    (bit mask n = true ∧ bit hand n = true) ∧ s.handoverBank c mask target n = s.spadIgnored c ∨
    (bit mask n = true ∧ bit hand n = false ∧ bit dma n ≠ target) ∧
      s.handoverBank c mask target n = s.put F.spadOwner_handover [c] (putBits hand n 1 1) := by
  intro hand dma
  simp only [State.handoverBank]
  cases hm : bit mask n with
  | false => exact .inl ⟨.inl rfl, rfl⟩
  | true =>
    cases hh : bit hand n with
    | true => exact .inr (.inl ⟨⟨rfl, rfl⟩, rfl⟩)
    | false =>
      by_cases ho : bit dma n = target
      · exact .inl ⟨.inr ⟨rfl, ho⟩, if_pos (beq_iff_eq.mpr ho)⟩
      · exact .inr (.inr ⟨⟨rfl, rfl, ho⟩, if_neg fun h => ho (beq_iff_eq.mp h)⟩)

theorem owner_handoverBank (n : Nat) :
    (s.handoverBank c mask target n).get F.spadOwner_dma [c] = s.get F.spadOwner_dma [c] := by
  obtain ⟨-, he⟩ | ⟨-, he⟩ | ⟨-, he⟩ := handoverBank_cases s c mask target n <;> rw [he]
  · exact get_bump_alike s [c] 1 (by decide) (by decide)
  · exact get_put_beside s _ _ [c] _ rfl (by decide)

/-- A bank of the mask that the target does not own is in HANDOVER afterwards; the others are as they were. -/
theorem bit_handoverBank (n : Nat) {b : Nat} (hb : b < 32) :
    bit ((s.handoverBank c mask target n).get F.spadOwner_handover [c]) b =
      (bit (s.get F.spadOwner_handover [c]) b || (decide (b = n) && (bit mask b && (bit (s.get F.spadOwner_dma [c]) b != target)))) := by
  have hw : F.spadOwner_handover.len = 32 := rfl
  obtain ⟨hstays, he⟩ | ⟨⟨-, hh⟩, he⟩ | ⟨⟨hm, -, ho⟩, he⟩ := handoverBank_cases s c mask target n <;> rw [he]
  · by_cases hbn : b = n
    · subst hbn
      obtain hm | ⟨-, ho⟩ := hstays
      · simp [hm]
      · simp [ho]
    · simp [hbn]
  · rw [State.spadIgnored, get_bump_alike _ _ _ (by decide) (by decide)]
    by_cases hbn : b = n
    · simp [hbn, hh]
    · simp [hbn]
  · rw [get_put_same, hw, bit_putBits_mod hb]
    by_cases hbn : b = n
    · have hset : bit 1 0 = true := by decide
      subst hbn
      simp [hm, ho, hset]
    · simp [hbn]

theorem ignored_handoverBank (n : Nat) : (s.handoverBank c mask target n).get F.spadIgnored_count [c] =
    sat 32 (s.get F.spadIgnored_count [c] + if bit mask n && bit (s.get F.spadOwner_handover [c]) n then 1 else 0) := by
  have hsame : s.get F.spadIgnored_count [c] = sat 32 (s.get F.spadIgnored_count [c] + 0) := (sat_of_get s rfl [c]).symm
  obtain ⟨hm | ⟨hh, -⟩, he⟩ | ⟨⟨hm, hh⟩, he⟩ | ⟨⟨-, hh, -⟩, he⟩ := handoverBank_cases s c mask target n <;> rw [he]
  · rw [hm]
    exact hsame
  · rw [hh, Bool.and_false]
    exact hsame
  · rw [hm, hh]
    exact ignored_spadIgnored s c
  · rw [hh, Bool.and_false]
    exact (get_put_alike s [c] _ (by decide) (by decide)).trans hsame

theorem regsOnly.handoverBank {s t : State} {l : List Nat} {c : Nat} (h : regsOnly s t l) (ho : regAddr .spadOwner [c] ∈ l)
    (hi : regAddr .spadIgnored [c] ∈ l) (n : Nat) : regsOnly s (t.handoverBank c mask target n) l := by
  obtain ⟨-, he⟩ | ⟨-, he⟩ | ⟨-, he⟩ := handoverBank_cases t c mask target n <;> rw [he]
  · exact h
  · exact h.bump hi _
  · exact h.put ho _

theorem regsOnly_handoverBelow (n : Nat) :
    regsOnly s (s.handoverBelow c mask target n) [regAddr .spadOwner [c], regAddr .spadIgnored [c]] :=
  List.foldlRecOn (motive := fun t => regsOnly s t _) _ _ (regsOnly_self s _)
    fun _ ht b _ => ht.handoverBank mask target List.mem_cons_self (List.mem_cons_of_mem _ List.mem_cons_self) b

theorem owner_handoverBelow (n : Nat) :
    (s.handoverBelow c mask target n).get F.spadOwner_dma [c] = s.get F.spadOwner_dma [c] :=
  foldl_keeps (State.get · F.spadOwner_dma [c]) (fun t b => owner_handoverBank t c mask target b) _ s

theorem bit_handoverBelow (n : Nat) {b : Nat} (hb : b < 32) :
    bit ((s.handoverBelow c mask target n).get F.spadOwner_handover [c]) b =
      (bit (s.get F.spadOwner_handover [c]) b || (decide (b < n) && (bit mask b && (bit (s.get F.spadOwner_dma [c]) b != target)))) := by
  induction n with
  | zero => simp [State.handoverBelow]
  | succ n ih =>
    have hlt : decide (b < n + 1) = (decide (b < n) || decide (b = n)) := by
      rw [← Bool.decide_or]
      exact decide_eq_decide.mpr Nat.lt_succ_iff_lt_or_eq
    rw [handoverBelow_succ, bit_handoverBank _ _ _ _ _ hb, owner_handoverBelow, ih, hlt, Bool.and_or_distrib_right, Bool.or_assoc]

theorem ignored_handoverBelow {n : Nat} (hn : n ≤ 32) : (s.handoverBelow c mask target n).get F.spadIgnored_count [c] =
    sat 32 (s.get F.spadIgnored_count [c] +
      ((List.range n).filter (fun b => bit mask b && bit (s.get F.spadOwner_handover [c]) b)).length) := by
  induction n with
  | zero => exact (sat_of_get s rfl [c]).symm
  | succ n ih =>
    -- Bank n is as it was until the write comes to it.
    have hbank : bit ((s.handoverBelow c mask target n).get F.spadOwner_handover [c]) n = bit (s.get F.spadOwner_handover [c]) n := by
      rw [bit_handoverBelow _ _ _ _ _ (by omega), decide_eq_false (Nat.lt_irrefl n), Bool.false_and, Bool.or_false]
    rw [handoverBelow_succ, ignored_handoverBank, hbank, ih (by omega), sat_sat_add, List.range_succ, List.filter_append,
      List.length_append, Nat.add_assoc]
    congr 3
    rw [List.filter_cons, List.filter_nil]
    cases bit mask n && bit (s.get F.spadOwner_handover [c]) n <;> rfl

end

section
variable {s : State} {c bank : Nat} (h : bit (s.get F.spadOwner_handover [c]) bank = true)
include h

theorem handoverEnds_eq : s.handoverEnds c bank =
    (s.put F.spadOwner_handover [c] (putBits (s.get F.spadOwner_handover [c]) bank 1 0)).put F.spadOwner_dma [c]
      (putBits (s.get F.spadOwner_dma [c]) bank 1 (if bit (s.get F.spadOwner_dma [c]) bank then 0 else 1)) := by
  simp only [State.handoverEnds, h]
  rfl

theorem bit_handover_handoverEnds {b : Nat} (hb : b < 32) : bit ((s.handoverEnds c bank).get F.spadOwner_handover [c]) b =
    (decide (b ≠ bank) && bit (s.get F.spadOwner_handover [c]) b) := by
  have hw : F.spadOwner_handover.len = 32 := rfl
  rw [handoverEnds_eq h, get_put_beside _ F.spadOwner_dma F.spadOwner_handover _ _ rfl (by decide), get_put_same, hw, bit_putBits_mod hb]
  by_cases hbank : b = bank <;> simp [hbank, bit]

theorem bit_owner_handoverEnds {b : Nat} (hb : b < 32) : bit ((s.handoverEnds c bank).get F.spadOwner_dma [c]) b =
    (decide (b = bank) ^^ bit (s.get F.spadOwner_dma [c]) b) := by
  have hw : F.spadOwner_dma.len = 32 := rfl
  rw [handoverEnds_eq h, get_put_same, hw, bit_putBits_mod hb]
  by_cases hbank : b = bank
  · subst hbank
    cases bit (s.get F.spadOwner_dma [c]) b <;> simp [bit]
  · simp [hbank]

theorem regsOnly_handoverEnds : regsOnly s (s.handoverEnds c bank) [regAddr .spadOwner [c]] := by
  rw [handoverEnds_eq h]
  exact (regsOnly_put s F.spadOwner_handover [c] _).put (f := F.spadOwner_dma) List.mem_cons_self _

end

/-! ### Bad parity (R249) -/

/-- The record of a bad parity found where the log is free. -/
def State.parityLogged (s : State) (c bank off m : Nat) (dmaSide : Bool) : State :=
  s.puts [(F.spadParityLog_valid, [c], 1), (F.spadParityLog_persistent, [c], 0), (F.spadParityLog_dmaSide, [c], if dmaSide then 1 else 0),
    (F.spadParityLog_bank, [c], bank), (F.spadParityLog_offset, [c], off), (F.spadParityLog_masterId, [c], m)]

section
variable (s : State) (c : Nat) {bank off m : Nat} (dmaSide : Bool)

theorem regsOnly.parityLogged {s t : State} {l : List Nat} {c : Nat} (h : regsOnly s t l) (hl : regAddr .spadParityLog [c] ∈ l)
    (bank off m : Nat) : regsOnly s (t.parityLogged c bank off m dmaSide) l := by
  refine h.puts _ ?_
  simp only [List.forall_mem_cons]
  exact ⟨hl, hl, hl, hl, hl, hl, fun _ hx => absurd hx List.not_mem_nil⟩

/-- A bad parity that a re-read corrects is counted, and recorded where the log is free. -/
theorem parityReread_corrected (k : Nat) (hb : bank < 32) (ho : off < 2 ^ 19) : s.parityReread c bank off m k dmaSide false =
    if s.flag F.spadParityLog_valid [c] then s.bump F.spadParityCount_count [c]
    else (s.bump F.spadParityCount_count [c]).parityLogged c bank off m dmaSide := by
  have hcore : (spadBase + c * 2 ^ 24 + (bank * 2 ^ 19 + off) - spadBase) / 2 ^ 24 = c := by omega
  have hoff : (spadBase + c * 2 ^ 24 + (bank * 2 ^ 19 + off) - spadBase) % 2 ^ 24 = bank * 2 ^ 19 + off := by omega
  have hbank : (bank * 2 ^ 19 + off) / 2 ^ 19 = bank := by omega
  have hin : (bank * 2 ^ 19 + off) % 2 ^ 19 = off := by omega
  have hvalid : (s.bump F.spadParityCount_count [c]).flag F.spadParityLog_valid [c] = s.flag F.spadParityLog_valid [c] := by
    rw [State.flag, State.flag, get_bump_alike _ _ _ (by decide) (by decide)]
  simp only [State.parityReread, State.parityFound, hcore, hoff, hbank, hin, hvalid, Bool.not_false, if_true, Bool.false_eq_true, if_false]
  rfl

theorem count_parityLogged (bank off m : Nat) :
    (s.parityLogged c bank off m dmaSide).get F.spadParityCount_count [c] = s.get F.spadParityCount_count [c] := by
  simp (disch := decide) only [State.parityLogged, puts_more, puts_none, get_put_alike]

theorem bank_parityLogged (off m : Nat) (hb : bank < 32) : (s.parityLogged c bank off m dmaSide).get F.spadParityLog_bank [c] = bank := by
  simp (disch := decide) only [State.parityLogged, puts_more, puts_none, get_put_beside]
  exact get_put_fits hb ..

theorem offset_parityLogged (bank m : Nat) (ho : off < 2 ^ 19) :
    (s.parityLogged c bank off m dmaSide).get F.spadParityLog_offset [c] = off := by
  simp (disch := decide) only [State.parityLogged, puts_more, puts_none, get_put_beside]
  exact get_put_fits ho ..

theorem masterId_parityLogged (bank off : Nat) (hm : m < 2 ^ 9) :
    (s.parityLogged c bank off m dmaSide).get F.spadParityLog_masterId [c] = m := get_put_fits hm ..

end

/-- Settles O31: each write brings about the state that its equation gives, bank by bank for a handover. -/
theorem dmaControlAndBanks : Obligations.DmaControlAndBanks := by
  intro core eng s c e x
  refine ⟨?submit, ?control, ?handover, ?handoverEnds, ?parity⟩
  case submit =>
    intro v wide hserved
    have hexec : exec (.dmaSubmit core eng v wide) s = .next (s.dmaSubmit c e v.toNat wide).kickAll :=
      congrArg (fun t => Host.Outcome.next (State.kickAll t)) (atReg_served hserved _)
    refine ⟨?queued, ?ignored⟩
    case queued =>
      intro hw hst hf hroom
      refine ⟨_, hexec, ?_⟩
      rw [hw, dmaSubmit_queues v.toNat hst hf hroom]
      exact ⟨rfl, eng_setEng_same ..⟩
    case ignored =>
      intro h
      refine ⟨_, hexec, ?_⟩
      rw [dmaSubmit_ignored v.toNat h]
      exact ⟨regsOnly_put s F.spadIgnored_count [c] _, ignored_spadIgnored s c⟩
  case control =>
    intro hserved
    have hrestart : exec (.dmaRestart core eng) s = .next (s.dmaRestart c e).kickAll :=
      congrArg (fun t => Host.Outcome.next (State.kickAll t)) (atReg_served hserved _)
    have hflush : exec (.dmaFlush core eng) s = .next (s.dmaFlush c e).kickAll :=
      congrArg (fun t => Host.Outcome.next (State.kickAll t)) (atReg_served hserved _)
    refine ⟨?stopped, ?other, ?loaded, ?unloaded⟩
    case stopped =>
      intro hst
      refine ⟨_, hrestart, ?_⟩
      rw [dmaRestart_stopped hst]
      exact ⟨regsOnly_put s F.dmaStatus_state [c, e] _, dmaState_put_state (by split <;> decide) ..⟩
    case other =>
      intro hst
      exact ⟨_, hrestart, dmaRestart_other hst⟩
    case loaded =>
      intro hl
      refine ⟨_, hflush, ?_⟩
      rw [dmaFlush_loaded hl]
      refine ⟨eng_setEng_same .., mem_chainEvents .., fun r hr i hi he hq => ?_⟩
      rw [event_of_get (get_setEng ..)]
      exact event_chainEvents hi hq (.inr ⟨r, hr, he⟩)
    case unloaded =>
      intro hl hf
      refine ⟨_, hflush, ?_⟩
      rw [dmaFlush_unloaded hl hf]
      refine ⟨?_, dmaState_put_state (by decide) .., mem_chainEvents ..⟩
      rw [eng_put]
      exact eng_setEng_same ..
  case handover =>
    intro mask target hserved
    refine ⟨s.handoverBelow c mask.toNat target 32,
      congrArg (fun t => Host.Outcome.next (State.kickAll t)) (atReg_served hserved _), regsOnly_handoverBelow .., owner_handoverBelow ..,
      fun b hb => ?_, ?_⟩
    · rw [bit_handoverBelow _ _ _ _ _ hb, decide_eq_true hb, Bool.true_and, bit_toNat]
    · simp only [ignored_handoverBelow _ _ _ _ (Nat.le_refl 32), bit_toNat]
  case handoverEnds =>
    intro bank hbank hfree
    have hends : bit (s.get F.spadOwner_dma [c]) bank.val = true ∨ (!s.bankBusy c bank.val) = true :=
      hfree.imp_right fun h => by rw [h]; rfl
    exact ⟨_, congrArg Host.Outcome.next (if_pos hends), regsOnly_handoverEnds hbank,
      fun b hb => ⟨bit_handover_handoverEnds hbank hb, bit_owner_handoverEnds hbank hb⟩⟩
  case parity =>
    intro bank off m k dmaSide
    have hb : bank.val < 32 := bank.isLt
    have ho : off.toNat < 2 ^ 19 := off.isLt
    refine ⟨s.parityReread c bank.val off.toNat m.toNat k.val dmaSide false, rfl, ?_⟩
    rw [parityReread_corrected s c dmaSide k.val hb ho]
    have hcounted : regsOnly s (s.bump F.spadParityCount_count [c]) [regAddr .spadParityCount [c], regAddr .spadParityLog [c]] :=
      (regsOnly_self s _).bump List.mem_cons_self 1
    have hcount : (s.bump F.spadParityCount_count [c]).get F.spadParityCount_count [c] = sat 32 (s.get F.spadParityCount_count [c] + 1) :=
      get_bump_width 32 rfl ..
    cases hv : s.flag F.spadParityLog_valid [c] with
    | true =>
      refine ⟨hcounted, hcount, fun h => absurd h (by simp), fun _ => ?_⟩
      exact reg_put_other s _ _ _ _ _ (regAddr_ne (by decide) (by decide) [c])
    | false =>
      refine ⟨hcounted.parityLogged dmaSide (List.mem_cons_of_mem _ List.mem_cons_self) _ _ _, (count_parityLogged ..).trans hcount,
        fun _ => ⟨bank_parityLogged _ _ _ _ _ hb, offset_parityLogged _ _ _ _ _ ho, masterId_parityLogged _ _ _ _ _ m.isLt⟩,
        fun h => absurd h (by simp)⟩

end Sys2Proof.Machine
end
